-- ==== Sys2Proof/Word.lean ====
section
/-!
DEFINITION. The word types of the NK6400 model and nothing else: a byte of memory or of a packet, and a 64-bit
register word (R5). Numbers that the manual only counts or compares (node IDs, indexes, lengths) are `Nat`.
-/
namespace Sys2Proof

/-- A byte of memory, of a packet or of a flit. -/
abbrev Byte := BitVec 8

/-- A 64-bit register or memory word (R5, R360). -/
abbrev Word := BitVec 64

end Sys2Proof
end

