-- ==== Sys2Proof/Machine/Bits.lean ====
section
/-!
DEFINITION. Bit fields, saturating counts and byte order: R3 numbers bits from the least significant, R4 puts the least
significant byte at the lowest address.
-/
namespace Sys2Proof.Machine
open Sys2Proof

/-- Field of `len` bits of `x` that starts at bit `lo` (R3). -/
def fld (x lo len : Nat) : Nat := x / 2 ^ lo % 2 ^ len

/-- Bit `i` of `x` (R3). -/
def tbit (x i : Nat) : Bool := x / 2 ^ i % 2 == 1

/-- A truth value as a one-bit field. -/
def b2n (b : Bool) : Nat := if b then 1 else 0

/-- The next value of a count of `w` bits that saturates. -/
def satInc (w n : Nat) : Nat := if n + 1 < 2 ^ w then n + 1 else 2 ^ w - 1

/-- A count of `w` bits after `k` more occurrences. -/
def satAdd (w n k : Nat) : Nat := if n + k < 2 ^ w then n + k else 2 ^ w - 1

/-- A view of `w` bits of a wider count, saturating. -/
def satView (w n : Nat) : Nat := if n < 2 ^ w then n else 2 ^ w - 1

/-- Fields packed upward from bit 0: each pair is (width, value). -/
def pack : List (Nat × Nat) → Nat
  | [] => 0
  | (w, v) :: r => v % 2 ^ w + 2 ^ w * pack r

/-- Bits given as truth values, bit 0 first. -/
def packBits : List Bool → Nat
  | [] => 0
  | b :: r => b2n b + 2 * packBits r

/-- Little-endian value of bytes (R4). -/
def leNat : List Byte → Nat
  | [] => 0
  | b :: r => b.toNat + 256 * leNat r

/-- The `n` little-endian bytes of a value (R4). -/
def leBytes : Nat → Nat → List Byte
  | 0, _ => []
  | n + 1, x => BitVec.ofNat 8 x :: leBytes n (x / 256)

/-- Number of ones among the low `n` bits. -/
def popcount (n x : Nat) : Nat := ((List.range n).filter (tbit x)).length

/-- The numbers below `n` whose bit is set in `x`, in ascending order. -/
def bitsOf (n x : Nat) : List Nat := (List.range n).filter (tbit x)

/-- Value of a two's-complement field of `w` bits. -/
def toInt (w x : Nat) : Int := if x % 2 ^ w < 2 ^ (w - 1) then (x % 2 ^ w : Nat) else (x % 2 ^ w : Nat) - (2 ^ w : Nat)

/-- Two's-complement field of `w` bits that holds an integer. -/
def ofInt (w : Nat) (i : Int) : Nat := (i % (2 ^ w : Nat)).toNat

/-- Exclusive or of two numbers bit by bit. -/
def nxor (a b : Nat) : Nat := Nat.xor a b

/-- The smallest number not below `x` that is a multiple of `a`. -/
def alignUp (a x : Nat) : Nat := (x + a - 1) / a * a

end Sys2Proof.Machine
end

