-- ==== Sys2Proof/Machine/KMap.lean ====
section
/-!
DEFINITION. Tables of the machine as plain data: a list of (index, entry) pairs with rising indexes, in which an index
that is not listed holds a stated default. The same form holds memory (a default byte) and sparse tables (no entry).
-/
namespace Sys2Proof.Machine
open Sys2Proof

/-- A table indexed by numbers. -/
abbrev KMap (α : Type) := List (Nat × α)

/-- The listed entry at `k`, if there is one. -/
def KMap.find? {α : Type} : KMap α → Nat → Option α
  | [], _ => none
  | (k', v) :: r, k => if k' = k then some v else KMap.find? r k

/-- The entry at `k`, or the default. -/
def KMap.getD {α : Type} (m : KMap α) (k : Nat) (d : α) : α := (KMap.find? m k).getD d

/-- The entry at `k`, or the type's own default. -/
def KMap.get {α : Type} [Inhabited α] (m : KMap α) (k : Nat) : α := KMap.getD m k default

/-- Whether `k` is listed. -/
def KMap.has {α : Type} (m : KMap α) (k : Nat) : Bool := (KMap.find? m k).isSome

/-- The table without an entry at `k`. -/
def KMap.erase {α : Type} : KMap α → Nat → KMap α
  | [], _ => []
  | (k', v) :: r, k => if k' = k then KMap.erase r k else (k', v) :: KMap.erase r k

/-- Put `v` at `k`, replacing what stands there and keeping the indexes rising. -/
def KMap.ins {α : Type} : KMap α → Nat → α → KMap α
  | [], k, v => [(k, v)]
  | (k', v') :: r, k, v =>
    if k < k' then (k, v) :: (k', v') :: r
    else if k = k' then (k, v) :: r
    else (k', v') :: KMap.ins r k v

/-- Put `v` at `k` in a table whose unlisted entries are `d`: the value `d` is not listed. -/
def KMap.setD {α : Type} [DecidableEq α] (m : KMap α) (k : Nat) (v d : α) : KMap α :=
  if v = d then KMap.erase m k else KMap.ins m k v

/-- Put `v` at `k` in a table whose unlisted entries are the type's default. -/
def KMap.set {α : Type} [DecidableEq α] [Inhabited α] (m : KMap α) (k : Nat) (v : α) : KMap α :=
  KMap.setD m k v default

/-- Change the entry at `k`. -/
def KMap.mod {α : Type} [DecidableEq α] [Inhabited α] (m : KMap α) (k : Nat) (f : α → α) : KMap α :=
  KMap.set m k (f (KMap.get m k))

/-- Change the entry at `k` where one is listed. -/
def KMap.upd {α : Type} (m : KMap α) (k : Nat) (f : α → α) : KMap α :=
  match KMap.find? m k with
  | some v => KMap.ins m k (f v)
  | none => m

/-- The indexes that are listed, in rising order. -/
def KMap.keys {α : Type} (m : KMap α) : List Nat := m.map Prod.fst

/-- The canonical form: rising indexes, and no listed entry equal to the default. -/
def KMap.wf {α : Type} [DecidableEq α] (m : KMap α) (d : α) : Bool :=
  match m with
  | [] => true
  | (k, v) :: r => decide (v ≠ d) && (match r with | [] => true | (k', _) :: _ => decide (k < k')) && KMap.wf r d

/-- The first number below `n` that is not listed. -/
def KMap.firstFree {α : Type} (m : KMap α) (n : Nat) : Option Nat := (List.range n).find? (fun k => !KMap.has m k)

end Sys2Proof.Machine
end

