-- ==== Sys2Proof/Tables.lean ====
section
/-!
DEFINITION. The tables of the data plane that a mirror pair copies from one module to the other (R493), and the packets
that they hold: regions, snapshots, directory, contexts, queues, groups, error logs, mirror records.
-/
namespace Sys2Proof

/-- A fabric packet: the fields of the header of R427 and every byte after the 16-byte header (control part and body).
`rsv` holds the header's reserved bits, [31:26] below [127:80]. -/
structure Packet where
  /-- [7:0] OPCODE (R428) -/
  opcode : Nat := 0
  /-- [18:8] LEN, packet length in 4-byte words, header included -/
  len : Nat := 4
  /-- [21:19] virtual channel (R26) -/
  vc : Nat := 0
  /-- [23:22] service class (R28) -/
  sclass : Nat := 0
  /-- [24] fence flag -/
  fence : Bool := false
  /-- [25] routing epoch bit -/
  repoch : Bool := false
  /-- reserved header bits, zero in every well-formed packet (R430) -/
  rsv : Nat := 0
  /-- [43:32] destination node ID -/
  dst : Nat := 0
  /-- [55:44] source node ID -/
  src : Nat := 0
  /-- [63:56] hops left -/
  ttl : Nat := 0
  /-- [79:64] transaction ID -/
  tid : Nat := 0
  /-- bytes 16 onward: the control part and the body -/
  data : List Byte := []
  /-- inside the module only: a poison flag for each 64-bit word that the body touches (R367); empty where the packet's own
  POISON flag holds for all of them -/
  pz : List Bool := []
deriving DecidableEq, Repr, Inhabited

end Sys2Proof

namespace Sys2Proof.Machine
open Sys2Proof

/-- An error-log slot (R382, R660, R661). -/
structure LogSlot where
  valid : Bool := false
  /-- 2 bits -/
  sev : Nat := 0
  /-- 8 bits -/
  code : Nat := 0
  /-- 16 bits -/
  source : Nat := 0
  /-- 32 bits -/
  info : Nat := 0
  /-- 64 bits each -/
  addr : Nat := 0
  detail : Nat := 0
  time : Nat := 0
deriving DecidableEq, Repr, Inhabited

/-- An error log (R380, R660). -/
structure ErrorLog where
  /-- COUNT, 32 bits, saturating -/
  count : Nat := 0
  overflow : Bool := false
  first : LogSlot := {}
  latest : LogSlot := {}
  fatal : LogSlot := {}
deriving DecidableEq, Repr, Inhabited

/-! ### Regions and snapshots (chapters 03, 05) -/

/-- An access-list entry (R87). -/
structure AclEntry where
  /-- node ID or group ID, 12 bits -/
  id : Nat := 0
  group : Bool := false
  r : Bool := false
  w : Bool := false
  atomic : Bool := false
deriving DecidableEq, Repr, Inhabited

/-- A region-table entry (R85). -/
structure Region where
  /-- STATE: 0 FREE, 1 ACTIVE, 2 REVOKING, 3 WIPING -/
  state : Nat := 0
  /-- KIND: 0 COHERENT, 1 NONCOHERENT, 2 PRIVATE, 3 SNAPSHOT -/
  kind : Nat := 0
  mirrored : Bool := false
  holderDead : Bool := false
  acl : List AclEntry := []
  /-- BASE_GRANULE, GRANULES, SNAP_RESERVE, 18 bits each -/
  base : Nat := 0
  granules : Nat := 0
  reserve : Nat := 0
  /-- OWNER_TAG, CREATE_TIME, 64 bits each -/
  tag : Nat := 0
  time : Nat := 0
  /-- GENERATION, DENIED_COUNT, 32 bits each -/
  generation : Nat := 0
  denied : Nat := 0
  /-- DENIED_FIRST_NODE, DENIED_FIRST_OFFSET (bits [47:4]) -/
  firstNode : Nat := 0
  firstOffset : Nat := 0
  /-- SERVICE_ID, 12 bits -/
  service : Nat := 0
deriving DecidableEq, Repr, Inhabited

/-- A shard-map entry (R151). -/
structure Shard where
  psn : Nat := 0
  priv : Bool := false
  origin : Nat := 0
deriving DecidableEq, Repr, Inhabited

/-- A version slot (R146, R153); its map lists the logical shards that differ from the map of R151 at creation. -/
structure VersionSlot where
  /-- 0 FREE, 1 CURRENT, 2 RETAINED, 3 DRAFT, 4 ORPHAN, 5 RECLAIMING -/
  state : Nat := 0
  writer : Nat := 0
  version : Nat := 0
  base : Nat := 0
  time : Nat := 0
  map : KMap Shard := []
deriving DecidableEq, Repr, Inhabited

/-- A binding of a node to a slot (R147). -/
structure Binding where
  node : Nat := 0
  slot : Nat := 0
deriving DecidableEq, Repr, Inhabited

/-- A copy-on-write under way (R164): the slot, the logical shard and the PSN taken for it. -/
structure Copying where
  slot : Nat := 0
  shard : Nat := 0
  psn : Nat := 0
deriving DecidableEq, Repr, Inhabited

/-- The versions of a SNAPSHOT region (R145–R160). -/
structure Snap where
  cur : Nat := 0
  slots : KMap VersionSlot := []
  /-- bindings 0–63 -/
  bindings : KMap Binding := []
  lowWater : Nat := 0
  cow : Nat := 0
  refused : Nat := 0
  conflicts : Nat := 0
  /-- SNAP_LOW has been raised and the sum has not risen again (R170) -/
  low : Bool := false
  copies : List Copying := []
deriving DecidableEq, Repr, Inhabited

/-- A change of rights or a death under way (R99, R103, R105). -/
structure Change where
  /-- 0 rights, 1 release, 2 dead agent -/
  kind : Nat := 0
  /-- the mailbox, and whether its command still waits for the answer -/
  mailbox : Nat := 0
  answers : Bool := true
  /-- regions concerned -/
  regions : List Nat := []
  /-- nodes that lost R, each with the region that they lost it in (R99) -/
  lost : List (Nat × Nat) := []
  /-- the dead node -/
  node : Nat := 0
  /-- slices whose scan has ended, bit t for slice t -/
  scanned : Nat := 0
  /-- serial number at acceptance: what began before it has a lower one -/
  serial : Nat := 0
  /-- rights were removed, so that lines are recalled -/
  removes : Bool := false
deriving DecidableEq, Repr, Inhabited

/-- A snapshot command between acceptance and switch (R167). -/
structure Switching where
  mailbox : Nat := 0
  opcode : Nat := 0
  region : Nat := 0
  node : Nat := 0
  answers : Bool := true
  serial : Nat := 0
deriving DecidableEq, Repr, Inhabited

/-! ### Directory (chapter 04) -/

/-- A directory entry (R113, R114). -/
structure DirEntry where
  /-- X, else S -/
  owned : Bool := false
  /-- FMT: group vector -/
  vector : Bool := false
  /-- sharer pointers, at most 4; the owner alone in X -/
  ptrs : List Nat := []
  /-- the group vector, 64 bits -/
  groups : Nat := 0
  /-- order of last use -/
  used : Nat := 0
deriving DecidableEq, Repr, Inhabited

/-- Whom a transaction serves: a request message, a line of a BULK or tile access (by serial number), or the home itself. -/
inductive Serves where
  | message (p : Packet)
  | bulk (id : Nat)
  | recall
deriving DecidableEq, Repr, Inhabited

/-- A transient-table slot in use (R113, R115, R122). -/
structure Txn where
  /-- line number within the pool -/
  line : Nat := 0
  /-- 3 TS, 4 TF, 5 TW, 6 TA, 7 TP -/
  state : Nat := 0
  serves : Serves := .recall
  /-- region and serial number at the region check (R99) -/
  region : Nat := 0
  serial : Nat := 0
  /-- the node ID as which the home speaks (R487) -/
  home : Nat := 0
  /-- the requester's node ID, TID and opcode, and its service class -/
  requester : Nat := 0
  tid : Nat := 0
  opcode : Nat := 0
  sclass : Nat := 0
  /-- nodes whose answer is awaited (TS, TF, TP) -/
  waits : List Nat := []
  /-- the owner snooped (TF, TW) -/
  owner : Nat := 0
  /-- the snoop that was sent -/
  snoop : Nat := 0
  /-- the owner's WB_DATA is held (TF), or the requester wrote back in TA; TID of that WB_DATA -/
  data : Bool := false
  wbTid : Nat := 0
  /-- the requester was in H as a pointer when its UPGRADE was taken -/
  wasSharer : Bool := false
  /-- a snoop answer, and the forwarded data, have come for a BULK read (R429) -/
  answered : Bool := false
  forwarded : Option (List Byte × Bool) := none
  /-- what takeover probes reported: node and state (1 S, 2 E, 3 M); the requester reported OPEN (R140) -/
  found : List (Nat × Nat) := []
  /-- PROBE_DATA taken, by the node that sent it (R140) -/
  copied : List (Nat × Packet) := []
  reopened : Bool := false
  /-- TP: the transaction awaited an owner in TF or TW -/
  hadOwner : Bool := false
  /-- a victim recall (R126) -/
  victim : Bool := false
deriving DecidableEq, Repr, Inhabited

/-- A replay-filter entry (R482). -/
structure FilterEntry where
  src : Nat := 0
  tid : Nat := 0
  opcode : Nat := 0
  addr : Nat := 0
  /-- 0 open, 1 ended with the answer kept, 2 ended with CMP_ACK, 3 ended without CMP_ACK -/
  outcome : Nat := 0
  answer : Option Packet := none
deriving DecidableEq, Repr, Inhabited

/-- A request in the overflow queue: its serial number and region at the region check, its location, and the message. -/
structure Waiting where
  serial : Nat := 0
  region : Nat := 0
  packet : Packet := {}
deriving DecidableEq, Repr, Inhabited

/-- A BULK or tile access in progress at its home (R429, R116): its pieces are served in order. -/
structure BulkOp where
  /-- the fabric request; of a tile access only its service class is used -/
  packet : Packet := {}
  /-- a tile access of this module, already checked at chunk start -/
  isLocal : Bool := false
  /-- region, its kind, and the slice that serves it -/
  region : Nat := 0
  kind : Nat := 0
  tile : Nat := 0
  /-- 0 read, 1 write, 2 atomic -/
  op : Nat := 0
  /-- location in the pool after R162, and the pool offset as addressed -/
  loc : Nat := 0
  bytes : Nat := 0
  /-- pool offset as addressed; the slot of a SNAPSHOT region; the location is still to be found (R162, R164) -/
  addr : Nat := 0
  slot : Nat := 0
  pend : Bool := false
  /-- nobody takes its answer -/
  quiet : Bool := false
  /-- a fault notification of a context: only its loss is counted (R72) -/
  notify : Option Nat := none
  /-- bytes done -/
  done : Nat := 0
  /-- data of a read so far or of a write, and a poison flag for each byte -/
  data : List Byte := []
  pz : List Bool := []
  /-- a transaction of its tile serves the next line -/
  waiting : Bool := false
deriving DecidableEq, Repr, Inhabited

/-- A request for a line, from a message or from a BULK or tile access. -/
structure LineReq where
  serves : Serves := .recall
  region : Nat := 0
  serial : Nat := 0
  home : Nat := 0
  requester : Nat := 0
  tid : Nat := 0
  opcode : Nat := 0
  sclass : Nat := 0
  /-- location in the pool -/
  loc : Nat := 0
  /-- HTID of its transaction; 0 where none was opened -/
  htid : Nat := 0
deriving DecidableEq, Repr, Inhabited

/-- What a home has checked and still does, in the order in which it came to it: an access to an MCS that does not serve now (R353,
R584, R614), or a write that waits for a copy of its shard (R164). -/
inductive Parked where
  /-- a request performed at the MCS -/
  | perform (tile : Nat) (req : LineReq)
  /-- the data of a grant: its slot and opcode -/
  | grant (tile : Nat) (req : LineReq) (slot op : Nat)
  /-- the data of a message stored over its line, with a WB_ACK that follows or not -/
  | store (region loc : Nat) (p : Packet) (ack : Bool)
  /-- a poison write -/
  | poison (line : Nat)
  /-- a request or write-back of a SNAPSHOT region, with its region, slot and serial number -/
  | shard (region slot serial : Nat) (p : Packet)
  /-- a notification of tile `t` for context `c` held for a snapshot command (R72, R167) -/
  | notice (tile context value : Nat)
deriving DecidableEq, Repr, Inhabited

/-- A directory slice with its tile's overflow queue and replay filter (R115, R127, R128, R136, R482). -/
structure DirSlice where
  entries : KMap DirEntry := []
  txns : KMap Txn := []
  /-- generation of each slot, 3 bits -/
  gens : KMap Nat := []
  /-- overflow queue, oldest first, at most 8 -/
  overflow : List Waiting := []
  /-- (node, TID) of the reservation -/
  reserved : Option (Nat × Nat) := none
  /-- counts of R136: 0 RETRY with RESV, 1 without, 2 overflow high water, 3 victim recalls, 4–7 timeouts by row of R133
  (TF or TW, TS, TA, TP), 8 late, 9 lines poisoned -/
  counts : KMap Nat := []
  /-- replay filter: open entries and ended ones in order of ending -/
  filter : List FilterEntry := []
  /-- lines whose entry is lost and whose rebuild waits for a transient slot (R378) -/
  broken : List Nat := []
deriving DecidableEq, Repr, Inhabited

/-! ### Contexts and translation (chapter 02) -/

/-- A translation context (R39–R43). -/
structure Context where
  bound : Bool := false
  agent : Nat := 0
  /-- MODE: MIRRORED -/
  mirrored : Bool := false
  root : Nat := 0
  tableRegion : Nat := 0
  ring : Nat := 0
  ringLog2 : Nat := 0
  notify : Nat := 0
  timeout : Nat := 0
  /-- service ID of R491 -/
  service : Nat := 0
  /-- table pages of a MIRRORED context, root first (log entry 23) -/
  pages : List Nat := []
  /-- records written since bind (R70) -/
  records : Nat := 0
  /-- FAULT_ID last written to each ring slot -/
  ringIds : KMap Nat := []
  /-- counts of R43: 0 faults, 1 invalidations, 2 stale replies, 3 fault timeouts, 4 ring overwrites, 5 notifications dropped,
  6 ignored doorbells -/
  counts : KMap Nat := []
deriving DecidableEq, Repr, Inhabited

/-- Who waits for a fault: a descriptor (queue, index), or a collective write (queue 0x8000 + GROUP, segment or record). -/
structure Waiter where
  queue : Nat := 0
  index : Nat := 0
deriving DecidableEq, Repr, Inhabited

/-- A slot of a fault table (R68). -/
structure FaultSlot where
  isOpen : Bool := false
  /-- sequence, 16 bits -/
  seq : Nat := 0
  ctx : Nat := 0
  page : Nat := 0
  access : Nat := 0
  waiters : List Waiter := []
deriving DecidableEq, Repr, Inhabited

/-- A pre-translated entry (R55): a page of a context. -/
structure PreEntry where
  ctx : Nat := 0
  /-- VA and size of the page -/
  va : Nat := 0
  size : Nat := 0
  fpa : Nat := 0
  r : Bool := false
  w : Bool := false
  atomic : Bool := false
  /-- level of the leaf -/
  level : Nat := 1
  stale : Bool := false
  absent : Bool := false
deriving DecidableEq, Repr, Inhabited

/-- A translation: the page, its frame and its rights (R44–R49). -/
abbrev Translation := PreEntry

/-- A walk-cache entry (R52): a context's table entry by its FPA. -/
structure WalkEntry where
  ctx : Nat := 0
  fpa : Nat := 0
  value : Nat := 0
deriving DecidableEq, Repr, Inhabited

/-- An accepted invalidation that waits for R62. -/
structure Invalidation where
  /-- the mailbox that waits, or none for an XLT_INV packet -/
  mailbox : Option Nat := none
  packet : Packet := {}
  ctx : Nat := 0
  /-- every context -/
  all : Bool := false
  /-- VA ranges: base and length -/
  ranges : List (Nat × Nat) := []
  tag : Nat := 0
  serial : Nat := 0
  denied : Bool := false
deriving DecidableEq, Repr, Inhabited

/-! ### Queues and descriptors (chapter 08) -/

/-- A place of an operand: its number under R257, and a VA or a scratch offset. -/
structure Loc where
  operand : Nat := 0
  va : Nat := 0
  scratch : Bool := false
deriving DecidableEq, Repr, Inhabited

/-- Bytes that are written with a chunk: scale entries and sidecar records of its blocks (R259). -/
structure Side where
  loc : Loc := {}
  /-- where in its piece the block begins -/
  off : Nat := 0
  data : List Byte := []
  pz : Bool := false
deriving DecidableEq, Repr, Inhabited

/-- A run of bytes of one row that a descriptor still has to read, move or write (R258, R259). -/
structure Piece where
  src : Option Loc := none
  dst : Option Loc := none
  len : Nat := 0
  /-- D0 to D4 of its first byte -/
  cursor : List Nat := [0, 0, 0, 0, 0]
  /-- bytes to write where there is no source, and a poison flag for each -/
  data : List Byte := []
  pz : List Bool := []
  side : List Side := []
  /-- one ATOMIC: `data` is its 48-byte body, and its source the operand (R246) -/
  atomic : Bool := false
  /-- the tile on whose slice it must lie (R280) -/
  home : Option Nat := none
  /-- a progress word or a completion record: its bytes are not counted as committed -/
  uncounted : Bool := false
  /-- bytes 0 to 7 of a completion record: the write carries FENCE (R463) -/
  fence : Bool := false
deriving DecidableEq, Repr, Inhabited

/-- A part of a chunk that travels alone: one access within a 4 KiB unit, by the serial number of its answer. -/
structure Part where
  serial : Nat := 0
  off : Nat := 0
  len : Nat := 0
deriving DecidableEq, Repr, Inhabited

/-- A chunk in progress (R57): its piece, cut at the page ends. -/
structure Chunk where
  piece : Piece := {}
  serial : Nat := 0
  /-- regions of this module that it was checked against, each with the slot bound (R91, R172) -/
  grants : List (Nat × Nat) := []
  /-- pages whose translations it holds: VA and size -/
  pages : List (Nat × Nat) := []
  /-- FPA of the source and of the destination; scratch operands have none -/
  srcFpa : Nat := 0
  dstFpa : Nat := 0
  sideFpas : List Nat := []
  reads : List Part := []
  writes : List Part := []
  /-- the writes have been issued -/
  wrote : Bool := false
deriving DecidableEq, Repr, Inhabited

/-- What a fault record says besides its key (R70). -/
structure FaultInfo where
  cause : Nat := 0
  level : Nat := 0
  operand : Nat := 0
  va : Nat := 0
  access : Nat := 0
  cursor : List Nat := []
  committed : Nat := 0
deriving DecidableEq, Repr, Inhabited

/-- Bytes on their way: the pieces left of a descriptor or of a collective write, the chunk in progress, and a stall. -/
structure Run where
  pieces : List Piece := []
  chunk : Option Chunk := none
  /-- what was read for pieces without a destination, chunk by chunk, with a poison flag for each byte -/
  got : List (List Byte × List Bool) := []
  /-- pool offset of the first poisoned word read, with the cursor and the operand of its chunk (R262) -/
  poisonAt : Nat := 0
  poisonCursor : List Nat := [0, 0, 0, 0, 0]
  poisonOperand : Nat := 0
  /-- BYTES_COMMITTED (R260) -/
  committed : Nat := 0
  /-- 0 none, 1 stalled on a registered fault, 2 stalled and not registered (R67, R69) -/
  stall : Nat := 0
  /-- the fault that it waits for: tile, slot -/
  fault : Option (Nat × Nat) := none
  info : FaultInfo := {}
  /-- walk reads that had to wait for an owner: FPA, serial number -/
  walkReads : List (Nat × Nat) := []
  /-- a code that ended it, with the cursor and the operand of the chunk -/
  failed : Nat := 0
  cursor : List Nat := [0, 0, 0, 0, 0]
  operand : Nat := 0
  /-- 4 KiB page of the fault that a released waiter had: it takes no entry of the buffer there, but walks afresh (R75) -/
  anew : Option Nat := none
deriving DecidableEq, Repr, Inhabited

/-- The accumulators of a block of up to 32 elements of a reduction (R218–R222). -/
structure Accumulator where
  /-- 0 L320, 1 L80, 2 L64, 3 XA80 -/
  kind : Nat := 0
  /-- x_ref of an L64 block (R219) -/
  ref : Nat := 0
  /-- storage of each element as a number: 40, 16, 8 or 16 bytes, two's complement or XA80 (R215, R218) -/
  vals : List Nat := []
  /-- flags of each element: bit 0 NaN seen, 1 +infinity, 2 −infinity (R220), 3 the zero held is −0, 4 a finite value seen -/
  flags : List Nat := []
  /-- contributions taken -/
  n : Nat := 0
deriving DecidableEq, Repr, Inhabited

/-- A fault of the dot array in one computation of an output block: what it adds to the code-value sum of a block term, in units of
the weight of bit 0 of the DPU's window (R231). -/
structure DotFault where
  /-- row and column within the output block, K-block, and half-block where an operand is under TL16 -/
  row : Nat := 0
  col : Nat := 0
  term : Nat := 0
  half : Nat := 0
  err : Int := 0
deriving DecidableEq, Repr, Inhabited

/-- A fetched or executing descriptor. -/
structure Exec where
  /-- the 64 bytes; empty while the slot read is outstanding -/
  desc : List Byte := []
  /-- the slot read -/
  fetch : List Part := []
  started : Bool := false
  /-- 0 control data, 1 body, 2 completion -/
  phase : Nat := 0
  run : Run := {}
  /-- control data read at validation, by VA: records, lists, codebooks -/
  records : KMap (List Byte) := []
  /-- the block in progress, and how far it is: 0 about to read, 1 reading, 2 waiting for a poll -/
  block : Nat := 0
  stage : Nat := 0
  /-- operand rows held: operand, array and row, and the bytes -/
  kept : List (List Nat × List Byte) := []
  /-- running values between blocks: DGEMM 1 while its B is staged, 2 while what is staged serves only this bm (R269); DREDUCE the
  source in progress; DATTN the scores of a head -/
  regs : List Nat := []
  /-- DREDUCE: the accumulators of the row in progress (R221, R238) -/
  acc : List Accumulator := []
  /-- how it ends: code, cursor, operand -/
  ended : Bool := false
  code : Nat := 0
  cursor : List Nat := [0, 0, 0, 0, 0]
  operand : Nat := 0
  /-- counts of R225 of this run and of the first: SATURATE, FLUSH, SCOVF -/
  sat : Nat := 0
  flush : Nat := 0
  scovf : Nat := 0
  satFirst : Nat := 0
  flushFirst : Nat := 0
  scovfFirst : Nat := 0
  /-- N of R227: elements and blocks written -/
  elems : Nat := 0
  blocks : Nat := 0
  reran : Bool := false
  extended : Bool := false
  /-- old value of a DATOMIC -/
  old : Nat := 0
  /-- bytes of working area held (R238) -/
  space : Nat := 0
  /-- fabric time at which a wait began (R272, R297) -/
  since : Nat := 0
  /-- bytes 0–7 of its record are being written: 1; it has no record: 2 -/
  finish : Nat := 0
deriving DecidableEq, Repr, Inhabited

/-- A queue (R236–R248). -/
structure Queue where
  ctx : Nat := 0
  tile : Nat := 0
  ring : Nat := 0
  ringLog2 : Nat := 4
  scratch : Nat := 0
  inflight : Nat := 1
  e2e : Nat := 100
  service : Nat := 0
  halted : Bool := false
  haltIndex : Nat := 0
  /-- reason of the halt: 1 POISON, 2 HALT_ERR, 3 slot read, 4 completion area -/
  haltReason : Nat := 0
  /-- HEAD, the next descriptor to fetch, and TAIL, 32 bits -/
  head : Nat := 0
  tail : Nat := 0
  /-- the lowest index not yet started -/
  next : Nat := 0
  /-- fetched descriptors that have not completed, by index -/
  execs : KMap Exec := []
  /-- scratch allocation: bytes that are not zero, and 64-bit words that are poisoned (R366) -/
  mem : KMap Byte := []
  memPz : KMap Bool := []
  /-- counts: 0–11 completions by code, 12 fetched, 13 bad doorbells, 14 end-to-end retries -/
  counts : KMap Nat := []
  /-- QUEUE.DESTROY FORCE or CTX.UNBIND FORCE ends it -/
  ending : Bool := false
  /-- the mailbox that waits for its end -/
  waiter : Option Nat := none
deriving DecidableEq, Repr, Inhabited

/-- A request of a tile to another node, or of the module's own (R251). -/
structure Out where
  serial : Nat := 0
  packet : Packet := {}
  /-- queue that it belongs to; 4,096 and above: none -/
  queue : Nat := 4096
  /-- reissues made -/
  tries : Nat := 0
  /-- answered RETRY and not yet reissued (R120) -/
  retry : Bool := false
  /-- context of a fault notification (R72) -/
  notify : Option Nat := none
deriving DecidableEq, Repr, Inhabited

/-- The answer to a tile request: code of R263, data, a poison flag for each byte. -/
structure Answer where
  status : Nat := 0
  data : List Byte := []
  pz : List Bool := []
deriving DecidableEq, Repr, Inhabited

/-- What a Cumulus tile keeps besides its queues (R52, R55, R68). -/
structure Tile where
  /-- fault table, 64 slots -/
  faults : KMap FaultSlot := []
  /-- FAULT_TABLE_FULL has been raised in this full period (R69) -/
  full : Bool := false
  /-- pre-translation buffer, most recently used first, at most 4,096 -/
  pre : List PreEntry := []
  /-- walk cache, most recently used first, at most 64 -/
  walks : List WalkEntry := []
  /-- the queue that started a descriptor last (R246) -/
  lastQueue : Nat := 0
  /-- what faults of the dot array put into the next output blocks that it computes, one list for each computation, oldest first (R230–R233,
  log entry 26) -/
  dotFaults : List (List DotFault) := []
deriving DecidableEq, Repr, Inhabited

/-! ### Collectives (chapter 10) -/

/-- A member of a group (R306). -/
structure Member where
  node : Nat := 0
  recv : Nat := 0
  /-- JOIN_EPOCH (R308) -/
  join : Nat := 0
deriving DecidableEq, Repr, Inhabited

/-- An open or finishing segment (R316–R319): the members counted, the accumulators of its blocks, its range events, and the writes of its
result. -/
structure Segment where
  members : List Nat := []
  acc : List Accumulator := []
  sat : Nat := 0
  flush : Nat := 0
  scovf : Nat := 0
  poisoned : Bool := false
  /-- 0 open, 1 complete and its results being written -/
  stage : Nat := 0
  run : Run := {}
  /-- result payload, kept for the push -/
  payload : List Byte := []
deriving DecidableEq, Repr, Inhabited

/-- An open instance (R309–R333). -/
structure Instance where
  epoch : Nat := 0
  members : KMap Member := []
  /-- POLICY, MEMBER_TIMEOUT and SCLASS that it opened with -/
  policy : Nat := 0
  timeout : Nat := 1000
  sclass : Nat := 0
  extended : Bool := false
  /-- bit m set: member m is excluded -/
  excluded : Nat := 0
  segs : KMap Segment := []
  /-- bit s set: segment s is done, and how many are -/
  done : Nat := 0
  doneCount : Nat := 0
  partials : Nat := 0
  sat : Nat := 0
  flush : Nat := 0
  scovf : Nat := 0
  elems : Nat := 0
  dup : Nat := 0
  /-- first code of a failed write, 0 = none -/
  failed : Nat := 0
  anyPoison : Bool := false
  aborted : Bool := false
  /-- ended: its record is being written -/
  ended : Bool := false
  record : Run := {}
deriving DecidableEq, Repr, Inhabited

/-- A collective group (R300–R310). -/
structure Group where
  ctx : Nat := 0
  op : Nat := 0
  cfmt : Nat := 0
  rfmt : Nat := 0
  count : Nat := 0
  segLog2 : Nat := 8
  openSegs : Nat := 1
  push : Bool := false
  resultVa : Nat := 0
  countedVa : Nat := 0
  compVa : Nat := 0
  guard : Nat := 0
  seed : Nat := 0
  firstEpoch : Nat := 0
  /-- POLICY, MEMBER_TIMEOUT, SCLASS as last set (class L) -/
  policy : Nat := 0
  timeout : Nat := 1000
  sclass : Nat := 0
  service : Nat := 0
  /-- membership as applied, and as latched -/
  members : KMap Member := []
  latched : KMap Member := []
  /-- D (R309) -/
  last : Nat := 0
  inst : Option Instance := none
  /-- counts: 0–11 instances by code, 12 segments accepted, 13 duplicates, 14 late, 16 + n COL_NAK by reason n -/
  counts : KMap Nat := []
  /-- the mailbox of a COLL.GROUP.DESTROY FORCE 1 -/
  destroying : Option Nat := none
deriving DecidableEq, Repr, Inhabited

end Sys2Proof.Machine

namespace Sys2Proof
open Sys2Proof.Machine

/-- A module's join as its partner sees it (R511): its parameters, its regions (ID, base, granules), and, where it already serves
as the SOLO module of the pair, the services that it is active for with their pair epochs (R508). -/
structure JoinInfo where
  node : Nat := 0
  partner : Nat := 0
  symmetric : Bool := false
  service0 : Nat := 0
  service1 : Nat := 0
  standby : Bool := false
  regions : List (Nat × Nat × Nat) := []
  serving : List (Nat × Nat) := []
deriving DecidableEq, Repr, Inhabited

/-- What a mirror record carries (R493). The manual leaves the format of records to the two modules; this is the model's own
abstract form (notes/assumptions/15.md). -/
inductive MirrorItem where
  | heartbeat
  /-- a 128-byte line of a mirrored region, at a pool offset, with a poison flag for each word -/
  | line (off : Nat) (data : List Byte) (poison : List Bool)
  | region (id : Nat) (r : Region)
  | snap (id : Nat) (x : Snap)
  | agents (groups : KMap Nat) (mgmt dead : List Nat)
  | context (id : Nat) (c : Context)
  | faults (tile : Nat) (table : KMap FaultSlot)
  | queue (id : Nat) (q : Option Queue)
  | entry (tile line : Nat) (e : Option DirEntry)
  | txn (tile slot : Nat) (t : Option Txn) (generation : Nat)
  /-- a message taken for the open transaction in a slot (R137) -/
  | message (tile slot : Nat) (p : Packet)
  | executed (tile : Nat) (e : FilterEntry)
  | group (id : Nat) (g : Option Group)
  | log (index : Nat) (l : ErrorLog)
  | invalidated (i : Invalidation)
  /-- wipe of a region (R103) -/
  | wipe (id : Nat)
  /-- the partner's join (R511) -/
  | join (j : JoinInfo)
  /-- the partner has seen a service diverge (R497) -/
  | diverge (service : Nat)
  /-- result of the partner's self-check (R498): it fails -/
  | check (fails : Bool)
  /-- the returned module takes a service back (R509) -/
  | reclaim (service : Nat)
  /-- the final record of a switch (R510): the receiver is active for the service -/
  | handOver (service pepoch : Nat)
  /-- ends of the two steps of resynchronisation (R508), and a granule of progress -/
  | metadataDone
  | dataDone
  /-- PAIR.LEAVE -/
  | leave
deriving DecidableEq, Repr

/-- A mirror record: a sequence number, the service it belongs to and what it carries. -/
structure MirrorRec where
  seq : Nat
  service : Nat
  item : MirrorItem
deriving DecidableEq, Repr

end Sys2Proof
end

