-- ==== Sys2Proof/Syntax.lean ====
section
/-!
DEFINITION. The commands of the NK6400 as `spec/opcode_table.json` lists them, one constructor per row, with the operands
that the environment supplies: packets, register words, flits, sensor values, and the index of the mailbox, tile, link
or timer that a row is about.
-/
namespace Sys2Proof

/-- Who makes a control-window access: the PCI Express host, or a fabric node (R93, R94). -/
inductive Requester where
  | pcie
  | fabric (node : Nat)
deriving DecidableEq, Repr

/-- What one telemetry update measures (R611, R621): rails as (mV, mA, °C), the temperature sensors in the order of R621
(40 die, 8 stacks, 12 engines), and the two input stages as (volts in units of 10 mV, amperes in units of 50 mA). -/
structure Telemetry where
  /-- rail voltages in mV, currents in mA and temperatures in °C, rail by rail (R610) -/
  rails : List (Nat × Nat × Nat) := []
  /-- sensor temperatures in °C (R621) -/
  temps : List Nat := []
  /-- feed A: voltage in 10 mV, current in 50 mA (R624) -/
  feedA : Nat × Nat := (0, 0)
  /-- feed B, as feed A -/
  feedB : Nat × Nat := (0, 0)
  /-- input power in W (R625) -/
  watts : Nat := 0
deriving DecidableEq, Repr, Inhabited

/-- One SMBus transaction with the PMBus target (R639–R641): its direction, the data bytes that the host writes after the command
code, and whether it ends a write with a packet error code that does not match. -/
structure SmbXfer where
  /-- true = a read transaction, false = a write -/
  read : Bool := true
  /-- data bytes written -/
  data : List Byte := []
  /-- a PEC follows the data, and does not match -/
  badPec : Bool := false
deriving DecidableEq, Repr, Inhabited

/-- What this end's receiver of one lane found in training at a rate (R394): the EFM of the window at each CTLE setting, from 0,
and the EFM that the refining of the partner's taps ended at. -/
structure Trial where
  /-- rate code -/
  rate : Nat := 0
  /-- link lane -/
  lane : Nat := 0
  windows : List Nat := []
  final : Nat := 0
deriving DecidableEq, Repr, Inhabited

/-- The link that a widening trains, and what its receivers found (R394, R446). -/
structure LinkTrials where
  link : Fin 64 := 0
  trials : List Trial := []
deriving DecidableEq, Repr, Inhabited

/-- The descriptor whose chunk commits, and the faults that strike the computations of the dot array meanwhile (R230, R261). -/
structure ChunkAt where
  /-- index of the descriptor in its queue -/
  idx : Nat := 0
  /-- for each computation, the faults in it -/
  faults : List (List Machine.DotFault) := []
deriving DecidableEq, Repr, Inhabited

/-- One read or write training sweep of a byte lane (R349), a lane that is not listed having passed: for each reference voltage step, from 0, the 64 delay settings
that pass (bit d for delay d). A lane that fails is swept again after `remapped` of its data bits moved to spare lanes. -/
structure Sweep where
  /-- stack pseudo-channel 0–63 -/
  pc : Nat := 0
  /-- byte lane 0–3; a write sweep of it may stand as lane 4–7 (R349) -/
  lane : Nat := 0
  /-- passing delays by reference voltage step -/
  passes : List Word := []
  /-- data bits moved to spare lanes after the first sweep (R350) -/
  remapped : Nat := 0
  /-- the second sweep -/
  again : List Word := []
deriving DecidableEq, Repr, Inhabited

/-- Which stored bits a read finds, and for DRAM when (R363, R377). -/
inductive Storage where
  /-- a word of the pool, read for a plain access now -/
  | word (w : Nat)
  /-- a word of the pool, whose stored bits the next access to it reads: a merge, an atomic, a remap copy or a plain read -/
  | later (w : Nat)
  /-- the hot entry of a word -/
  | hot (w : Nat)
  /-- the directory or transient entry of a line -/
  | entry (line : Nat)
  /-- a slot of the fault table of a tile -/
  | fault (tile : Fin 32) (slot : Nat)
  /-- an entry of the region or map cache of a tile -/
  | regionCache (tile : Fin 32)
  /-- the entry of a VA page of a context in a tile's pre-translation cache -/
  | preTranslation (tile : Fin 32) (context page : Nat)
  /-- an entry of a tile's walk cache: a context and the address of the table entry that it holds -/
  | walkCache (tile : Fin 32) (context entry : Nat)
  /-- 4 bytes of a queue's scratch -/
  | scratch (queue addr : Nat)
  /-- a register of a tile, held for an executing descriptor of a queue -/
  | register (queue : Nat)
deriving DecidableEq, Repr, Inhabited

/-- What a self-test of one block instance finds (R565–R568). -/
structure TestOutcome where
  block : Nat := 0
  index : Nat := 0
  /-- 0 MEMORY, 1 LOGIC, 2 PATTERN -/
  mode : Nat := 0
  /-- 0 PASS, 1 REPAIRED, 2 FAIL -/
  result : Nat := 0
  fails : Nat := 0
  array : Nat := 0
  addr : Nat := 0
  bit : Nat := 0
  step : Nat := 0
  expected : Nat := 0
  read : Nat := 0
  /-- the spare used by a repair, and whether it is a column (R572) -/
  spare : Nat := 0
  column : Bool := false
deriving DecidableEq, Repr, Inhabited

/-- The commands: one constructor per row of the opcode table. -/
inductive Instr where
  /-- MBX_RING (R518). -/
  | mbxRing (who : Requester) (m : Fin 16) (value : Word)
  /-- MBX_INFO (R529). -/
  | mbxInfo (m : Fin 16)
  /-- MBX_NOP (R529). -/
  | mbxNop (m : Fin 16)
  /-- CTX_BIND (R40). -/
  | ctxBind (m : Fin 16)
  /-- CTX_MODIFY (R41). -/
  | ctxModify (m : Fin 16)
  /-- CTX_UNBIND (R42). -/
  | ctxUnbind (m : Fin 16)
  /-- CTX_QUERY (R43). -/
  | ctxQuery (m : Fin 16)
  /-- XLT_SYNC (R54). -/
  | xltSync (m : Fin 16)
  /-- XLT_INVALIDATE (R62). -/
  | xltInvalidate (m : Fin 16)
  /-- REGION_CREATE (R95). -/
  | regionCreate (m : Fin 16)
  /-- REGION_RELEASE (R102). -/
  | regionRelease (m : Fin 16)
  /-- REGION_QUERY (R85). -/
  | regionQuery (m : Fin 16)
  /-- REGION_ACL_SET (R96). -/
  | regionAclSet (m : Fin 16)
  /-- REGION_ACL_ADD (R96). -/
  | regionAclAdd (m : Fin 16)
  /-- REGION_ACL_REMOVE (R96). -/
  | regionAclRemove (m : Fin 16)
  /-- AGENT_GROUP_SET (R98). -/
  | agentGroupSet (m : Fin 16)
  /-- AGENT_MGMT_SET (R92). -/
  | agentMgmtSet (m : Fin 16)
  /-- AGENT_DEAD (R105). -/
  | agentDead (m : Fin 16)
  /-- AGENT_REVIVE (R107). -/
  | agentRevive (m : Fin 16)
  /-- COH_CONFIG (R132). -/
  | cohConfig (m : Fin 16)
  /-- COH_QUERY (R136). -/
  | cohQuery (m : Fin 16)
  /-- COH_LINE_QUERY (R114). -/
  | cohLineQuery (m : Fin 16)
  /-- COH_SUSPECT_CLEAR (R134). -/
  | cohSuspectClear (m : Fin 16)
  /-- SNAP_OPEN (R154). -/
  | snapOpen (m : Fin 16)
  /-- SNAP_PUBLISH (R155). -/
  | snapPublish (m : Fin 16)
  /-- SNAP_REBASE (R157). -/
  | snapRebase (m : Fin 16)
  /-- SNAP_CLOSE (R158). -/
  | snapClose (m : Fin 16)
  /-- SNAP_CONFIG (R160). -/
  | snapConfig (m : Fin 16)
  /-- SNAP_QUERY (R161). -/
  | snapQuery (m : Fin 16)
  /-- QUEUE_CREATE (R237). -/
  | queueCreate (m : Fin 16)
  /-- QUEUE_DESTROY (R239). -/
  | queueDestroy (m : Fin 16)
  /-- QUEUE_QUERY (R241). -/
  | queueQuery (m : Fin 16)
  /-- COLL_GROUP_CREATE (R301). -/
  | collGroupCreate (m : Fin 16)
  /-- COLL_GROUP_CONFIG (R303). -/
  | collGroupConfig (m : Fin 16)
  /-- COLL_GROUP_DESTROY (R304). -/
  | collGroupDestroy (m : Fin 16)
  /-- COLL_GROUP_QUERY (R305). -/
  | collGroupQuery (m : Fin 16)
  /-- COLL_MEMBER_ADD (R307). -/
  | collMemberAdd (m : Fin 16)
  /-- COLL_MEMBER_REMOVE (R307). -/
  | collMemberRemove (m : Fin 16)
  /-- COLL_INSTANCE_END (R329). -/
  | collInstanceEnd (m : Fin 16)
  /-- MEM_CONFIG (R358). -/
  | memConfig (m : Fin 16)
  /-- MEM_QUERY (R359). -/
  | memQuery (m : Fin 16)
  /-- MEM_RETRAIN (R352). -/
  | memRetrain (m : Fin 16)
  /-- MEM_ECC_CONFIG (R375). -/
  | memEccConfig (m : Fin 16)
  /-- MEM_ECC_QUERY (R376). -/
  | memEccQuery (m : Fin 16)
  /-- MEM_REMAP (R374). -/
  | memRemap (m : Fin 16)
  /-- MEM_PPR (R373). -/
  | memPpr (m : Fin 16)
  /-- LANE_CONFIG (R412). -/
  | laneConfig (m : Fin 16)
  /-- LANE_POWER (R413). -/
  | lanePower (m : Fin 16)
  /-- LANE_QUERY (R414). -/
  | laneQuery (m : Fin 16)
  /-- OPT_ENGINE (R415). -/
  | optEngine (m : Fin 16)
  /-- OPT_GATE (R416). -/
  | optGate (m : Fin 16)
  /-- OPT_QUERY (R417). -/
  | optQuery (m : Fin 16)
  /-- LINK_ENABLE (R450). -/
  | linkEnable (m : Fin 16)
  /-- LINK_CONFIG (R450). -/
  | linkConfig (m : Fin 16)
  /-- LINK_TUNE (R450). -/
  | linkTune (m : Fin 16)
  /-- LINK_RETRAIN (R450). -/
  | linkRetrain (m : Fin 16)
  /-- LINK_WIDTH (R450). -/
  | linkWidth (m : Fin 16)
  /-- LINK_QUERY (R451). -/
  | linkQuery (m : Fin 16)
  /-- ROUTE_CONFIG (R483). -/
  | routeConfig (m : Fin 16)
  /-- ROUTE_LOAD (R457). -/
  | routeLoad (m : Fin 16)
  /-- ROUTE_FLIP (R457). -/
  | routeFlip (m : Fin 16)
  /-- ROUTE_QUERY (R484). -/
  | routeQuery (m : Fin 16)
  /-- QOS_MODE (R468). -/
  | qosMode (m : Fin 16)
  /-- QOS_PORT (R465). -/
  | qosPort (m : Fin 16)
  /-- QOS_POLICE (R470). -/
  | qosPolice (m : Fin 16)
  /-- HORIZON_LOAD (R473). -/
  | horizonLoad (m : Fin 16)
  /-- TIME_CONFIG (R483). -/
  | timeConfig (m : Fin 16)
  /-- TIME_LINK (R477). -/
  | timeLink (m : Fin 16)
  /-- TIME_SET (R479). -/
  | timeSet (m : Fin 16)
  /-- TIME_QUERY (R484). -/
  | timeQuery (m : Fin 16)
  /-- PAIR_JOIN (R511). -/
  | pairJoin (m : Fin 16)
  /-- PAIR_LEAVE (R512). -/
  | pairLeave (m : Fin 16)
  /-- PAIR_SWITCH (R510). -/
  | pairSwitch (m : Fin 16)
  /-- PAIR_CONFIG (R512). -/
  | pairConfig (m : Fin 16)
  /-- PAIR_QUERY (R513). -/
  | pairQuery (m : Fin 16)
  /-- BIST_RUN (R566). -/
  | bistRun (m : Fin 16)
  /-- BIST_QUERY (R568). -/
  | bistQuery (m : Fin 16)
  /-- REPAIR_COMMIT (R574). -/
  | repairCommit (m : Fin 16)
  /-- REPAIR_QUERY (R575). -/
  | repairQuery (m : Fin 16)
  /-- FW_UPDATE (R562). -/
  | fwUpdate (m : Fin 16)
  /-- FW_QUERY (R564). -/
  | fwQuery (m : Fin 16)
  /-- FW_ACTIVATE (R563). -/
  | fwActivate (m : Fin 16)
  /-- CLK_GATE (R590). -/
  | clkGate (m : Fin 16)
  /-- CLK_SWITCH (R582). -/
  | clkSwitch (m : Fin 16)
  /-- CLK_QUERY (R599). -/
  | clkQuery (m : Fin 16)
  /-- PWR_STATE (R617). -/
  | pwrState (m : Fin 16)
  /-- PWR_LIMIT (R619). -/
  | pwrLimit (m : Fin 16)
  /-- PWR_QUERY (R628). -/
  | pwrQuery (m : Fin 16)
  /-- GPIO_CONFIG (R649). -/
  | gpioConfig (m : Fin 16)
  /-- GPIO_SET (R649). -/
  | gpioSet (m : Fin 16)
  /-- GPIO_QUERY (R648). -/
  | gpioQuery (m : Fin 16)
  /-- REGISTER_WRITE (R652). -/
  | registerWrite (who : Requester) (off : Nat) (size : Nat) (value : Word)
  /-- DBL_RING (R243). -/
  | dblRing (who : Requester) (ctx : Fin 65536) (value : Word)
  /-- FAULT_REPLY_RESUME (R75). -/
  | faultReplyResume (who : Requester) (ctx : Fin 65536) (value : Word)
  /-- FAULT_REPLY_ABORT (R76). -/
  | faultReplyAbort (who : Requester) (ctx : Fin 65536) (value : Word)
  /-- QUEUE_RESTART (R248). -/
  | queueRestart (who : Requester) (ctx : Fin 65536) (value : Word)
  /-- EVC_CLAIM (R535). -/
  | evcClaim (v : Fin 68)
  /-- EVC_COMPLETE (R536). -/
  | evcComplete (v : Fin 68) (value : Word)
  /-- ERR_SLOT_CLEAR (R543). -/
  | errSlotClear (log : Fin 165) (slot : Fin 3) (value : Word)
  /-- EVC_MSIX_CTL_WRITE (R538). -/
  | evcMsixCtlWrite (v : Fin 64) (value : Word)
  /-- CLK_OBS_WRITE (R592). -/
  | clkObsWrite (value : Word)
  /-- CW_RD (R429). -/
  | cwRd (p : Packet)
  /-- CW_WR (R429). -/
  | cwWr (p : Packet)
  /-- CW_RDATA (R499). -/
  | cwRdata (p : Packet)
  /-- PACKET_ROUTE (R454). -/
  | packetRoute (port : Fin 98) (p : Packet)
  /-- RD_SHARED (R121). -/
  | rdShared (p : Packet)
  /-- RD_OWN (R121). -/
  | rdOwn (p : Packet)
  /-- UPGRADE (R121). -/
  | upgrade (p : Packet)
  /-- RD_ONCE (R121). -/
  | rdOnce (p : Packet)
  /-- WR_LINE (R121). -/
  | wrLine (p : Packet)
  /-- WR_PART (R121). -/
  | wrPart (p : Packet)
  /-- ATOMIC (R131). -/
  | atomic (p : Packet)
  /-- EVICT (R121). -/
  | evict (p : Packet)
  /-- SNPRSP_I (R122). -/
  | snprspI (p : Packet)
  /-- SNPRSP_FWD (R122). -/
  | snprspFwd (p : Packet)
  /-- SNPRSP_WBIF (R125). -/
  | snprspWbif (p : Packet)
  /-- CMP_ACK (R122). -/
  | cmpAck (p : Packet)
  /-- PROBE_RSP (R140). -/
  | probeRsp (p : Packet)
  /-- WB_DATA (R123). -/
  | wbData (p : Packet)
  /-- SNP_DATA (R122). -/
  | snpData (p : Packet)
  /-- PROBE_DATA (R140). -/
  | probeData (p : Packet)
  /-- DATA_ONCE_AT_HOME (R429). -/
  | dataOnceAtHome (p : Packet)
  /-- SNOOP_AT_MODULE (R116). -/
  | snoopAtModule (p : Packet)
  /-- OVERFLOW_REQUEST_SERVED (R124). -/
  | overflowRequestServed (tile : Fin 32)
  /-- RESV_EXPIRY (R128). -/
  | resvExpiry (tile : Fin 32)
  /-- HOME_TIMEOUT (R133). -/
  | homeTimeout (tile : Fin 32) (slot : Nat)
  /-- BRD (R429). -/
  | brd (p : Packet)
  /-- BWR (R429). -/
  | bwr (p : Packet)
  /-- BULK_HELD_RELEASED (R429). -/
  | bulkHeldReleased (tile : Fin 32)
  /-- FILTER_ENTRY_RELEASE (R482). -/
  | filterEntryRelease (tile : Fin 32)
  /-- BRD_DATA (R429). -/
  | brdData (p : Packet)
  /-- BDONE (R429). -/
  | bdone (p : Packet)
  /-- ATOMIC_RET (R271). -/
  | atomicRet (p : Packet)
  /-- RETRY (R120). -/
  | retry (p : Packet)
  /-- DENY (R91). -/
  | deny (p : Packet)
  /-- TILE_RETRY_REISSUE (R120). -/
  | tileRetryReissue (tid : Nat)
  /-- XLT_INV (R61). -/
  | xltInv (p : Packet)
  /-- XLT_INV_ACK_SEND (R62). -/
  | xltInvAckSend (src : Nat) (tid : Nat)
  /-- DESC_FETCH (R244). -/
  | descFetch (qid : Fin 4096)
  /-- PRE_TRANSLATION_WALK (R56). -/
  | preTranslationWalk (qid : Fin 4096) (idx : Nat)
  /-- DESC_START (R245). -/
  | descStart (qid : Fin 4096) (idx : Nat)
  /-- CHUNK_START (R57). -/
  | chunkStart (qid : Fin 4096) (idx : Nat)
  /-- FAULT_SLOT_FREED (R69). -/
  | faultSlotFreed (tile : Fin 32)
  /-- FAULT_TIMEOUT (R77). -/
  | faultTimeout (tile : Fin 32) (slot : Fin 64)
  /-- CHUNK_COMMIT (R261). -/
  | chunkCommit (qid : Fin 4096) (idx : ChunkAt)
  /-- DESC_COMPLETE (R249). -/
  | descComplete (qid : Fin 4096) (idx : Nat)
  /-- TILE_E2E_TIMEOUT (R251). -/
  | tileE2eTimeout (tid : Nat)
  /-- DFENCE_POLL (R272). -/
  | dfencePoll (qid : Fin 4096) (idx : Nat)
  /-- DMERGE_STAMP_POLL (R297). -/
  | dmergeStampPoll (qid : Fin 4096) (idx : Nat)
  /-- RIGHTS_CHANGE_DRAIN_END (R100). -/
  | rightsChangeDrainEnd (m : Fin 16)
  /-- DIRECTORY_SCAN_END (R99). -/
  | directoryScanEnd (tile : Fin 32) (m : Fin 16)
  /-- REGION_WIPE_DONE (R103). -/
  | regionWipeDone (region : Nat)
  /-- AGENT_DEAD_DONE (R105). -/
  | agentDeadDone (node : Nat)
  /-- SNAP_SWITCH (R167). -/
  | snapSwitch (m : Fin 16)
  /-- COW_COPY_DONE (R164). -/
  | cowCopyDone (region : Nat) (shard : Nat) (slot : Nat)
  /-- SNAP_RECLAIM_DONE (R159). -/
  | snapReclaimDone (region : Nat) (slot : Nat)
  /-- COL_SEG (R315). -/
  | colSeg (p : Packet)
  /-- COL_SEGMENT_DONE (R319). -/
  | colSegmentDone (group : Fin 1024) (seg : Nat)
  /-- COL_INSTANCE_DONE (R322). -/
  | colInstanceDone (group : Fin 1024)
  /-- COL_MEMBER_TIMEOUT (R327). -/
  | colMemberTimeout (group : Fin 1024) (member : Nat)
  /-- DRAM_READ_DECODE (R363). -/
  | dramReadDecode (cell : Storage) (err : BitVec 80)
  /-- TRACK_WINDOW_EXPIRY (R369). -/
  | trackWindowExpiry (slice : Fin 32) (pc : Fin 16) (bank : Fin 64) (row : Fin 16384)
  /-- MCS_SLOT_ISSUE (R338). -/
  | mcsSlotIssue (slice : Fin 32) (pc : Fin 16)
  /-- REFRESH_DUE (R344). -/
  | refreshDue (slice : Fin 32) (pc : Fin 16) (bank : Fin 64)
  /-- RFM_REQUEST (R345). -/
  | rfmRequest (slice : Fin 32) (pc : Fin 16) (bank : Fin 64)
  /-- STACK_TEMPERATURE_CHANGE (R343). -/
  | stackTemperatureChange (stack : Fin 8) (temp : Nat)
  /-- POWER_DOWN_ENTRY (R346). -/
  | powerDownEntry (slice : Fin 32) (pc : Fin 16)
  /-- ROW_CLOSE_TIMER (R340). -/
  | rowCloseTimer (slice : Fin 32) (pc : Fin 16) (bank : Fin 64)
  /-- HOT_WORD_WRITE_BACK (R356). -/
  | hotWordWriteBack (slice : Fin 32) (word : Nat)
  /-- DAWN_LINK_RATE_REQ (R551). -/
  | dawnLinkRateReq (link : Fin 64)
  /-- DATA_FLIT (R434). -/
  | dataFlit (link : Fin 64) (flit : List Byte)
  /-- IDLE_FLIT (R434). -/
  | idleFlit (link : Fin 64) (flit : List Byte)
  /-- REPLAY_START (R434). -/
  | replayStart (link : Fin 64) (flit : List Byte)
  /-- FLIT_FAIL (R420). -/
  | flitFail (link : Fin 64) (flit : List Byte)
  /-- WIDTH_REQ (R446). -/
  | widthReq (link : Fin 64) (flit : List Byte)
  /-- WIDTH_ACK (R446). -/
  | widthAck (link : Fin 64) (flit : List Byte)
  /-- WIDTH_GO (R446). -/
  | widthGo (link : Fin 64) (flit : List Byte)
  /-- RETRAIN_REQ (R444). -/
  | retrainReq (link : Fin 64) (flit : List Byte)
  /-- RATE_REQ (R442). -/
  | rateReq (link : Fin 64) (flit : List Byte)
  /-- WIDTH_ABANDON (R446). -/
  | widthAbandon (link : Fin 64) (flit : List Byte)
  /-- CTRL_RESEND_TIMER (R446). -/
  | ctrlResendTimer (link : Fin 64)
  /-- CTRL_ANSWER_TIMEOUT (R446). -/
  | ctrlAnswerTimeout (link : Fin 64)
  /-- WIDEN_LANES_PASS (R446). -/
  | widenLanesPass (link : LinkTrials)
  /-- WIDEN_TIMEOUT (R446). -/
  | widenTimeout (link : Fin 64)
  /-- TS_CAP (R443). -/
  | tsCap (link : Fin 64) (block : List Byte)
  /-- TS_READY (R442). -/
  | tsReady (link : Fin 64) (block : List Byte)
  /-- TS_EQ (R443). -/
  | tsEq (link : Fin 64) (block : List Byte)
  /-- RATE_TRAIN_END (R442). -/
  | rateTrainEnd (link : Fin 64) (trials : List Trial)
  /-- RETRAIN_END (R442). -/
  | retrainEnd (link : Fin 64) (trials : List Trial)
  /-- CONFIG_TIMEOUT (R442). -/
  | configTimeout (link : Fin 64)
  /-- DOWN_TIMEOUT (R442). -/
  | downTimeout (link : Fin 64)
  /-- REPLAY_TIMER_EXPIRY (R438). -/
  | replayTimerExpiry (link : Fin 64)
  /-- FILLER_SEND (R396). -/
  | fillerSend (link : Fin 64)
  /-- FILLER (R396). -/
  | filler (link : Fin 64) (block : List Byte)
  /-- DROWSE_MARKER (R400). -/
  | drowseMarker (link : Fin 64) (block : List Byte)
  /-- SLUMBER_MARKER (R400). -/
  | slumberMarker (link : Fin 64) (block : List Byte)
  /-- WAKE_PATTERN (R402). -/
  | wakePattern (link : Fin 64)
  /-- DROWSE_IDLE_TIMER (R400). -/
  | drowseIdleTimer (link : Fin 64)
  /-- SLUMBER_IDLE_TIMER (R400). -/
  | slumberIdleTimer (link : Fin 64)
  /-- TRANSMIT_WAKE (R401). -/
  | transmitWake (link : Fin 64)
  /-- WAKE_LATE (R403). -/
  | wakeLate (link : Fin 64)
  /-- EFM_WINDOW_END (R395). -/
  | efmWindowEnd (lane : Fin 256) (eyes : List (Int × Int)) (swing : Nat)
  /-- LOS_TIMEOUT (R409). -/
  | losTimeout (link : Fin 64) (power : List Int)
  /-- LOS_END_IN_SHUT (R409). -/
  | losEndInShut (link : Fin 64) (power : List Int)
  /-- SHUT_PROBE_TIMER (R409). -/
  | shutProbeTimer (link : Fin 64)
  /-- PROBE_END (R409). -/
  | probeEnd (link : Fin 64) (power : List Int)
  /-- OPT_OVERTEMP (R410). -/
  | optOvertemp (engine : Fin 12) (temp : Nat)
  /-- OPT_LASER_LOW (R408). -/
  | optLaserLow (link : Fin 64) (power : Int)
  /-- EGRESS_PACKET_START (R464). -/
  | egressPacketStart (port : Fin 98)
  /-- SHAPER_REFILL (R467). -/
  | shaperRefill
  /-- HORIZON_CYCLE_START (R473). -/
  | horizonCycleStart (port : Fin 64)
  /-- HORIZON_ENTRY_BOUNDARY (R471). -/
  | horizonEntryBoundary (port : Fin 64)
  /-- FLIP_HOLD_EXPIRY (R457). -/
  | flipHoldExpiry
  /-- SALVAGE_HOLD_EXPIRY (R459). -/
  | salvageHoldExpiry
  /-- SYNC (R478). -/
  | sync (port : Fin 64) (p : Packet) (arrival : Nat)
  /-- DELAY_REQ (R477). -/
  | delayReq (port : Fin 64) (p : Packet) (arrival : Nat)
  /-- DELAY_RESP (R477). -/
  | delayResp (port : Fin 64) (p : Packet) (arrival : Nat)
  /-- ANNOUNCE (R478). -/
  | announce (port : Fin 64) (p : Packet) (arrival : Nat)
  /-- SYNC_INTERVAL_TIMER (R478). -/
  | syncIntervalTimer
  /-- DELAY_INTERVAL_TIMER (R477). -/
  | delayIntervalTimer
  /-- SYNC_LOSS (R479). -/
  | syncLoss
  /-- HOLDOVER_LIMIT_EXPIRY (R479). -/
  | holdoverLimitExpiry
  /-- VECTOR_MESSAGE_SEND (R537). -/
  | vectorMessageSend (v : Fin 68)
  /-- UNANSWERED_TIMEOUT (R537). -/
  | unansweredTimeout (v : Fin 68)
  /-- MODERATION_EXPIRY (R537). -/
  | moderationExpiry (v : Fin 68)
  /-- MIRROR_RECORD (R494). -/
  | mirrorRecord (link : Fin 16) (record : MirrorRec)
  /-- HEARTBEAT_TIMER (R497). -/
  | heartbeatTimer
  /-- MIRROR_LINK_LOST (R497). -/
  | mirrorLinkLost
  /-- SELF_CHECK_END (R499). -/
  | selfCheckEnd (fails : Bool)
  /-- PAIR_PROBE_TIMER (R499). -/
  | pairProbeTimer
  /-- TAKEOVER (R501). -/
  | takeover
  /-- TAKEOVER_FENCE_WAIT_END (R501). -/
  | takeoverFenceWaitEnd
  /-- TAKEOVER_WRITE_HOLD_END (R501). -/
  | takeoverWriteHoldEnd
  /-- PAIR_FENCE_N_LOW (R503). -/
  | pairFenceNLow
  /-- RESYNC_METADATA_DONE (R508). -/
  | resyncMetadataDone
  /-- RESYNC_DONE (R509). -/
  | resyncDone
  /-- SWITCH_DRAIN_DONE (R510). -/
  | switchDrainDone
  /-- CLK_MONITOR_WINDOW (R583). -/
  | clkMonitorWindow (edges : Nat)
  /-- PLL_LOCK_DONE (R585). -/
  | pllLockDone
  /-- PLL_LOCK_TIMEOUT (R585). -/
  | pllLockTimeout
  /-- PLL_LOSS_OF_LOCK (R586). -/
  | pllLossOfLock
  /-- RAMP_STEP (R581). -/
  | rampStep (domain : Fin 5)
  /-- GATE_QUIESCE_WINDOW_END (R588). -/
  | gateQuiesceWindowEnd (unit : Fin 3) (index : Nat)
  /-- CROSSING_OPEN (R597). -/
  | crossingOpen (crossing : Fin 5)
  /-- FEED_GOOD (R603). -/
  | feedGood (feedB : Bool)
  /-- FEED_LOST (R603). -/
  | feedLost (feedB : Bool)
  /-- BUS_UNDERVOLTAGE (R609). -/
  | busUndervoltage
  /-- ALWAYS_ON_LOSS (R609). -/
  | alwaysOnLoss
  /-- POWER_ON_RESET (R605). -/
  | powerOnReset
  /-- TELEMETRY_SAMPLE (R611). -/
  | telemetrySample (t : Telemetry)
  /-- REGULATOR_FAULT (R612). -/
  | regulatorFault (rail : Fin 12)
  /-- LIMITER_PERIOD (R618). -/
  | limiterPeriod (watts : Nat)
  /-- THERMAL_THROTTLE (R622). -/
  | thermalThrottle (sensor : Nat)
  /-- THERMAL_THROTTLE_END (R622). -/
  | thermalThrottleEnd (sensor : Nat)
  /-- THERMAL_TRIP (R623). -/
  | thermalTrip (sensor : Nat)
  /-- HOLD_WAKE (R614). -/
  | holdWake
  /-- RESET_N (R595). -/
  | resetN
  /-- RESET_N_RELEASE (R550). -/
  | resetNRelease
  /-- BOOT_IMAGE_SELECT (R558). -/
  | bootImageSelect
  /-- GOKOMOS_START (R550). -/
  | gokomosStart
  /-- BOOT_SELF_TEST_DONE (R565). -/
  | bootSelfTestDone (outcomes : List TestOutcome)
  /-- STACK_HALF_RATE_DONE (R348). -/
  | stackHalfRateDone (stack : Fin 8) (sweeps : List Sweep)
  /-- FULL_RATE_SWEEP_DONE (R348). -/
  | fullRateSweepDone (stack : Fin 8) (sweeps : List Sweep)
  /-- POOL_ZERO_DONE (R552). -/
  | poolZeroDone (bad : List Nat)
  /-- LONG_ACC_TEST_DONE (R553). -/
  | longAccTestDone (pass : Bool)
  /-- STEP_LIMIT_EXPIRY (R550). -/
  | stepLimitExpiry
  /-- ZENITH_POISON_FETCH (R377). -/
  | zenithPoisonFetch (addr : Nat)
  /-- ZENITH_RESTART (R523). -/
  | zenithRestart
  /-- PERST_N (R634). -/
  | perstN (low : Bool)
  /-- PCIE_CONFIG_REQUEST (R635). -/
  | pcieConfigRequest (write : Bool) (off : Nat) (be : Nat) (value : Nat)
  /-- PCIE_MEMORY_REQUEST (R638). -/
  | pcieMemoryRequest (write : Bool) (poisoned : Bool) (addr : Nat) (size : Nat) (value : Word)
  /-- PCIE_FLR (R638). -/
  | pcieFlr
  /-- PCIE_HOT_RESET (R594). -/
  | pcieHotReset
  /-- PCIE_D3HOT (R637). -/
  | pcieD3hot (enter : Bool)
  /-- PME_TURN_OFF (R637). -/
  | pmeTurnOff
  /-- GPIO_FILTER_EXPIRY (R648). -/
  | gpioFilterExpiry (pin : Fin 8) (high : Bool)
  /-- PMBUS_PAGE (R640). -/
  | pmbusPage (x : SmbXfer)
  /-- PMBUS_CLEAR_FAULTS (R642). -/
  | pmbusClearFaults (x : SmbXfer)
  /-- PMBUS_CAPABILITY (R640). -/
  | pmbusCapability (x : SmbXfer)
  /-- PMBUS_VOUT_MODE (R640). -/
  | pmbusVoutMode (x : SmbXfer)
  /-- PMBUS_STATUS_BYTE (R640). -/
  | pmbusStatusByte (x : SmbXfer)
  /-- PMBUS_STATUS_WORD (R640). -/
  | pmbusStatusWord (x : SmbXfer)
  /-- PMBUS_STATUS_VOUT (R640). -/
  | pmbusStatusVout (x : SmbXfer)
  /-- PMBUS_STATUS_IOUT (R640). -/
  | pmbusStatusIout (x : SmbXfer)
  /-- PMBUS_STATUS_INPUT (R640). -/
  | pmbusStatusInput (x : SmbXfer)
  /-- PMBUS_STATUS_TEMPERATURE (R640). -/
  | pmbusStatusTemperature (x : SmbXfer)
  /-- PMBUS_STATUS_CML (R640). -/
  | pmbusStatusCml (x : SmbXfer)
  /-- PMBUS_READ_VIN (R640). -/
  | pmbusReadVin (x : SmbXfer)
  /-- PMBUS_READ_IIN (R640). -/
  | pmbusReadIin (x : SmbXfer)
  /-- PMBUS_READ_PIN (R640). -/
  | pmbusReadPin (x : SmbXfer)
  /-- PMBUS_READ_VOUT (R640). -/
  | pmbusReadVout (x : SmbXfer)
  /-- PMBUS_READ_IOUT (R640). -/
  | pmbusReadIout (x : SmbXfer)
  /-- PMBUS_READ_POUT (R640). -/
  | pmbusReadPout (x : SmbXfer)
  /-- PMBUS_READ_TEMPERATURE_1 (R640). -/
  | pmbusReadTemperature1 (x : SmbXfer)
  /-- PMBUS_REVISION (R640). -/
  | pmbusRevision (x : SmbXfer)
  /-- PMBUS_MFR_ID (R640). -/
  | pmbusMfrId (x : SmbXfer)
  /-- PMBUS_MFR_MODEL (R640). -/
  | pmbusMfrModel (x : SmbXfer)
  /-- PMBUS_MFR_SERIAL (R640). -/
  | pmbusMfrSerial (x : SmbXfer)
  /-- PMBUS_MFR_SYS_STATE (R640). -/
  | pmbusMfrSysState (x : SmbXfer)
  /-- PMBUS_MFR_SYS_DIE (R640). -/
  | pmbusMfrSysDie (x : SmbXfer)
  /-- PMBUS_MFR_TEMP (R640). -/
  | pmbusMfrTemp (x : SmbXfer)
  /-- PMBUS_MFR_FEED (R640). -/
  | pmbusMfrFeed (x : SmbXfer)
  /-- PMBUS_INVALID_COMMAND (R641). -/
  | pmbusInvalidCommand (code : Nat)
  /-- SMBUS_ALERT_RESPONSE (R642). -/
  | smbusAlertResponse
  /-- SMBUS_TIMEOUT (R684). -/
  | smbusTimeout
  /-- JTAG_IDCODE (R643). -/
  | jtagIdcode (tdi : Nat)
  /-- JTAG_SAMPLE_PRELOAD (R643). -/
  | jtagSamplePreload (tdi : Nat)
  /-- JTAG_EXTEST (R643). -/
  | jtagExtest (tdi : Nat)
  /-- JTAG_EXTEST_PULSE (R644). -/
  | jtagExtestPulse (tdi : Nat)
  /-- JTAG_EXTEST_TRAIN (R644). -/
  | jtagExtestTrain (tdi : Nat)
  /-- JTAG_HIGHZ (R643). -/
  | jtagHighz (tdi : Nat)
  /-- JTAG_CLAMP (R643). -/
  | jtagClamp (tdi : Nat)
  /-- JTAG_DBG_CHALLENGE (R645). -/
  | jtagDbgChallenge (tdi : Nat)
  /-- JTAG_DBG_UNLOCK (R645). -/
  | jtagDbgUnlock (tdi : Nat)
  /-- JTAG_DBG_STATUS (R646). -/
  | jtagDbgStatus (tdi : Nat)
  /-- JTAG_BYPASS (R643). -/
  | jtagBypass (tdi : Nat)
  /-- TAP_RESET (R594). -/
  | tapReset
  /-- DEBUG_UNLOCK_DONE (R571). -/
  | debugUnlockDone
  /-- MIRROR_ACKNOWLEDGEMENT (R494). -/
  | mirrorAcknowledgement (digest : Word)
  /-- PAIR_JOIN_TIMEOUT (R511). -/
  | pairJoinTimeout
  /-- PSEUDO_CHANNEL_RETRAIN_END (R353). -/
  | pseudoChannelRetrainEnd (slice : Fin 32) (pc : Fin 16) (sweeps : List Sweep)
  /-- SELF_TEST_END (R567). -/
  | selfTestEnd (m : Fin 16) (outcome : TestOutcome)
  /-- THERMTRIP_RELEASE (R623). -/
  | thermtripRelease
  /-- MODULATORS_AT_TEMPERATURE (R415). -/
  | modulatorsAtTemperature (engine : Fin 12)
deriving DecidableEq, Repr

end Sys2Proof
end

