-- ==== Sys2Proof/Decode.lean ====
section
/-!
DEFINITION. The command that a word spells. `spec/opcode_table.json` gives no row any bits, so no word spells a command
(log entry 7): the commands reach the block through its registers, its links and its pins, not as words.
-/
namespace Sys2Proof

/-- The command that an instruction word of `nbits` bits spells: none, for no row of the table has bits. -/
def decodeTableWord (_nbits _w : Nat) : Option Instr := none

end Sys2Proof
end

