-- ==== Sys2Proof/Machine/State.lean ====
section
/-!
DEFINITION. The state of an NK6400 module as plain data: every register, table, queue, buffer, counter and mode that the
manual gives the module, and the queue of commands that wait. A structure's default field values are its reset values;
the docstring of a field names its width and its rule.
-/
namespace Sys2Proof.Machine
open Sys2Proof

/-- Why a meaning could stop. No command of the table stops in this model: what the manual refuses is answered with a
status, logged or ignored, as the manual says. -/
inductive Fault where
  /-- Raised by no meaning; kept so that the type has a name for a stop that a later rule may need. Safe: a stop proves
  nothing about the hardware. -/
  | unreachable
deriving DecidableEq, Repr

/-- Why a command could be refused. -/
inductive Refusal where
  /-- The command has no meaning in this model yet; raised by the dispatcher only. Safe: it claims nothing. -/
  | notModelled (mnemonic : String)
deriving DecidableEq, Repr

/-! ### Events, error logs, mailboxes (chapters 17, 22) -/

/-- One event source (R531–R533). -/
structure Source where
  /-- ENABLE, 1 bit -/
  enable : Bool := false
  /-- URGENT, 1 bit; reset under R532 -/
  urgent : Bool := false
  /-- TARGET in force, 6 bits -/
  target : Nat := 0
  /-- TARGET as last written (class L, R533) -/
  targetNext : Nat := 0
  /-- ACTIVE, level sources -/
  active : Bool := false
  /-- the vector that holds it IN_SERVICE (64–67 stand for Zenith core targets 0–3) -/
  inService : Option Nat := none
  /-- COUNT, 8 bits, saturating -/
  count : Nat := 0
  /-- INFO of the last occurrence, 32 bits -/
  info : Nat := 0
deriving DecidableEq, Repr, Inhabited

/-- One host vector or Zenith core target (R534–R537, R658, R659). -/
structure EvVector where
  enable : Bool := false
  /-- DELIVERY: false = MSI-X, true = fabric write -/
  delivery : Bool := false
  /-- MOD_US in force, 16 bits -/
  modUs : Nat := 0
  /-- MOD_US as last written (class L, applied at the next message) -/
  modNext : Nat := 0
  /-- OUTSTANDING, 5 bits, 0–16 -/
  outstanding : Nat := 0
  unanswered : Bool := false
  cfgIgnored : Bool := false
  /-- MSGS, 16 bits, saturating -/
  msgs : Nat := 0
  /-- BAD_COMPLETE, 16 bits, saturating -/
  badComplete : Nat := 0
  /-- the last source claimed; 1,023 until the first valid claim (R535) -/
  lastClaimed : Nat := 1023
  /-- EVC_CLAIM between claims: the result of the last one (R658) -/
  claimResult : Nat := 0
  /-- whether MOD_US has passed since the last message; true before any message -/
  modPassed : Bool := true
  /-- an attempt was made while the conditions of R537 hold and nothing new has happened (R659) -/
  attempted : Bool := false
  /-- PBA bit: a message is held (R538) -/
  held : Bool := false
  /-- MSI-X Message Address, 64 bits -/
  msixAddr : Nat := 0
  /-- MSI-X Message Data, 32 bits -/
  msixData : Nat := 0
  /-- Vector Control mask bit, reset 1 -/
  msixMask : Bool := true
deriving DecidableEq, Repr, Inhabited

/-- The event controller: 1,024 sources and 68 vectors (index 64 + k is Zenith core target k, R539). -/
structure EventController where
  sources : KMap Source := []
  vectors : KMap EvVector := []
deriving DecidableEq, Repr, Inhabited

/-- What a mailbox's accepted command is doing while it is not answered (R528): the work that a later row ends. -/
structure Work where
  /-- opcode of the command under way -/
  opcode : Nat := 0
  /-- what it still waits for: slices, lanes, pseudo-channels, sources left; its meaning is the command's own -/
  waits : List Nat := []
  /-- values the command keeps for its end -/
  args : List Nat := []
deriving DecidableEq, Repr, Inhabited

/-- One mailbox page (R515–R517). -/
structure Mailbox where
  /-- MBX_CMD, 64 bits, its reserved bits zero (R8) -/
  cmd : Nat := 0
  /-- MBX_TAG, 64 bits -/
  tag : Nat := 0
  /-- request body, 252 words of 64 bits -/
  req : KMap Word := []
  /-- STATE: 0 IDLE, 1 BUSY, 2 DONE -/
  state : Nat := 0
  /-- STATUS, 8 bits -/
  status : Nat := 0
  /-- REASON, 16 bits -/
  reason : Nat := 0
  /-- RLEN, 12 bits -/
  rlen : Nat := 0
  /-- PARTS, 8 bits -/
  parts : Nat := 0
  /-- MBX_RTAG, 64 bits -/
  rtag : Nat := 0
  /-- INDEX, 32 bits -/
  index : Nat := 0
  /-- ELAPSED_US, 32 bits -/
  elapsed : Nat := 0
  /-- RINGER, 12 bits -/
  ringer : Nat := 0
  pcie : Bool := false
  /-- IGNORED, 16 bits, saturating -/
  ignored : Nat := 0
  /-- SEQ, 32 bits -/
  seq : Nat := 0
  /-- response body, 252 words of 64 bits -/
  rsp : KMap Word := []
  /-- the long command under way, if the accepted request has begun one (R528) -/
  work : Option Work := none
deriving DecidableEq, Repr, Inhabited

/-! ### Memory stacks and stored data (chapters 11, 12) -/

/-- A request in a pseudo-channel queue (R337). -/
structure McsReq where
  write : Bool := false
  /-- a home write, which may use reserved entries (R337) -/
  home : Bool := false
  /-- service class, 0–3 -/
  sclass : Nat := 0
  bank : Nat := 0
  row : Nat := 0
  /-- 32-byte bursts still to issue -/
  bursts : Nat := 1
  /-- time waited in the queue, in ns -/
  waited : Nat := 0
  /-- step 1 of R338 has served a burst of it, and AGED counts it (R359) -/
  aged : Bool := false
  /-- the 256-byte block that it zeroes: a wipe write (R104) -/
  wipes : Option Nat := none
deriving DecidableEq, Repr, Inhabited

/-- A bank of a pseudo-channel. -/
structure Bank where
  /-- open row (R340) -/
  row : Option Nat := none
  /-- refresh debt, 0–8 (R344) -/
  debt : Nat := 0
  /-- tREFI of the interval under way, in ns (R343) -/
  trefi : Nat := 3900
  /-- REF_POSTPONE in force (class L, R358) -/
  postpone : Nat := 8
  /-- bursts issued in a row to the open row (R338) -/
  run : Nat := 0
  /-- time in ns that refreshes still hold it: it is not ready (R338, R343, R344) -/
  busy : Nat := 0
deriving DecidableEq, Repr, Inhabited

/-- A local pseudo-channel (R337–R346, R359, R376); counts are of 32 bits and saturate. -/
structure PseudoChannel where
  /-- STATE, 3 bits: 0 OFF, 1 TRAINING, 2 HALF, 3 FULL, 4 RETRAIN, 5 FAILED, 6 SELF_REFRESH -/
  state : Nat := 0
  /-- the state to return to after RETRAIN or SELF_REFRESH -/
  back : Nat := 0
  pd : Bool := false
  lastFail : Bool := false
  /-- 8 bits -/
  repaired : Nat := 0
  /-- byte lanes 0–3, 8 bits each -/
  eyeW : Nat := 0
  eyeH : Nat := 0
  /-- the centre of each swept lane: vref 0–31 and delay 0–63 (R349, R352) -/
  centres : KMap (Nat × Nat) := []
  debtHigh : Nat := 0
  queueHigh : Nat := 0
  catchups : Nat := 0
  aged : Nat := 0
  floored : Nat := 0
  pdEntries : Nat := 0
  merges : Nat := 0
  atomics : Nat := 0
  hotHits : Nat := 0
  rfms : Nat := 0
  retrains : Nat := 0
  /-- queue, oldest first, at most 64 entries -/
  queue : List McsReq := []
  /-- wipes still to be written (R103, R104): region, next 256-byte block of the pseudo-channel, and the end -/
  wipes : List (Nat × Nat × Nat) := []
  /-- write-backs of R364 that take the next write slots: bank and row -/
  due : List (Nat × Nat) := []
  banks : KMap Bank := []
  /-- serving a batch of writes (R340), and writes served in it -/
  writing : Bool := false
  batch : Nat := 0
  /-- slots since each service class was last served -/
  since : List Nat := [0, 0, 0, 0]
  /-- PD_IDLE in force (class L, R358) -/
  pdIdle : Nat := 1000
  /-- R376 counts: CORRECTED(1), CORRECTED(2), UNCORRECTABLE, POISON_READS, write-backs, merges over uncorrectable words,
  remaps, repairs -/
  ecc : KMap Nat := []
deriving DecidableEq, Repr, Inhabited

/-- A remap entry (R370). -/
structure Remap where
  pc : Nat := 0
  bank : Nat := 0
  row : Nat := 0
  spare : Nat := 0
  auto : Bool := false
  hadPoison : Bool := false
deriving DecidableEq, Repr, Inhabited

/-- A row-tracker entry (R369). -/
structure Tracked where
  pc : Nat := 0
  bank : Nat := 0
  row : Nat := 0
  count : Nat := 0
deriving DecidableEq, Repr, Inhabited

/-- A memory-controller slice (R358, R369, R370, R356). -/
structure Slice where
  enabled : Bool := false
  /-- AGE_LIMIT, 16 bits, ns -/
  ageLimit : Nat := 2000
  /-- PD_IDLE and REF_POSTPONE as last set -/
  pdIdle : Nat := 1000
  postpone : Nat := 8
  pcs : KMap PseudoChannel := []
  /-- ROW_CE_LIMIT, 8 bits -/
  rowCeLimit : Nat := 4
  /-- TRACK_WINDOW, 16 bits, ms -/
  trackWindow : Nat := 1000
  /-- remap table, 16 entries by index -/
  remaps : KMap Remap := []
  /-- row tracker, at most 64, most recently incremented first -/
  tracker : List Tracked := []
  /-- hot words (16-byte unit numbers of the pool), at most 64, most recently used first -/
  hot : List Nat := []
  /-- requests that wait upstream of a full queue, oldest first (R337), with their pseudo-channel -/
  upstream : List (Nat × McsReq) := []
deriving DecidableEq, Repr, Inhabited

/-- The eight stacks and 32 slices. -/
structure Memories where
  slices : KMap Slice := []
  /-- stack temperature in °C, 8 bits (R359), by stack -/
  temps : KMap Nat := []
deriving DecidableEq, Repr, Inhabited

/-- Pool memory (R19, R81, R360): its bytes, an unlisted one reading 0, and the poisoned 64-bit words by word number. -/
structure Pool where
  mem : List Host.Cell := []
  /-- words whose poison differs from that of their granule -/
  poison : KMap Bool := []
  /-- granules written poisoned as a whole (R495) -/
  granules : KMap Bool := []
  /-- stored bits of a word that have flipped since it was written, an 80-bit pattern by R360: the next read of the word by a
  merge, an atomic, a copy or a plain access decodes them (R362, R363, log entry 9) -/
  errs : KMap Nat := []
deriving DecidableEq, Repr, Inhabited

/-! ### Identity, bring-up, self-test, repair, firmware (chapter 18) -/

/-- A repair in the layout of R575. -/
structure RepairEntry where
  /-- 0 SRAM soft, 1 SRAM fused, 2 DRAM remap, 3 DRAM soft PPR, 4 DRAM hard PPR, 5 retired granule -/
  kind : Nat := 0
  block : Nat := 0
  index : Nat := 0
  array : Nat := 0
  addr : Nat := 0
  spare : Nat := 0
  column : Bool := false
  recorded : Bool := false
deriving DecidableEq, Repr, Inhabited

/-- What outlives every reset besides the flash (R545): die fuses and hard post-package repairs. -/
structure Fuses where
  /-- FUSE_SVN, 6 bits -/
  svn : Nat := 0
  /-- revoked key positions, bits 0–3 (R557) -/
  revoked : Nat := 0
  /-- fused SRAM repairs, at most 1,024 (R572) -/
  repairs : List RepairEntry := []
  /-- hard post-package repairs (R372) -/
  hardPpr : List RepairEntry := []
deriving DecidableEq, Repr, Inhabited

/-- A self-test result record (R568). -/
structure TestRecord where
  mode : Nat := 0
  /-- 0 PASS, 1 REPAIRED, 2 FAIL, 3 NOT_RUN -/
  result : Nat := 3
  fails : Nat := 0
  array : Nat := 0
  addr : Nat := 0
  bit : Nat := 0
  step : Nat := 0
  expected : Nat := 0
  read : Nat := 0
  time : Nat := 0
deriving DecidableEq, Repr, Inhabited

/-- Identity, SYS_STATE and the bring-up sequence (R547–R561, R656). -/
structure Sys where
  /-- RESET_N sensed low (R595); the model starts with the module held in reset (log entry 4) -/
  resetLow : Bool := true
  /-- RESET_N is high and step 1 waits for REFCLK or a feed (R595) -/
  waiting : Bool := false
  /-- held in reset after a regulator fault (R612) or thermal trip (R623), until RESET_N is cycled -/
  heldInReset : Bool := false
  /-- fuses sensed (R547) -/
  fusesSensed : Bool := false
  /-- the bring-up step last ended, 0–10 (R550) -/
  step : Nat := 0
  /-- PHASE, 4 bits; MEMORY, COMPUTE and REDUCE, 2 bits (R548) -/
  phase : Nat := 0
  memory : Nat := 0
  compute : Nat := 0
  reduce : Nat := 0
  debug : Bool := false
  /-- BIST_FAILS, 8 bits, saturating -/
  bistFails : Nat := 0
  /-- SYS_FW: PATCH 16, MINOR 8, MAJOR 8 bits, SLOT, TRIAL, SVN 6 bits (R547) -/
  patch : Nat := 0
  minor : Nat := 0
  major : Nat := 0
  slot : Nat := 0
  trial : Bool := false
  svn : Nat := 0
  /-- the image that the ROM has loaded: slot and whether it is on trial (R558) -/
  loaded : Option (Nat × Bool) := none
  /-- MODULE_ID 12 bits, CFG_SRC 2 bits (R656) -/
  moduleId : Nat := 0
  cfgSrc : Nat := 3
  /-- management agents, at most 16 (R92) -/
  mgmt : List Nat := []
  /-- boot configuration (R560) -/
  bistLevel : Bool := false
  autoConfirm : Bool := false
  linkEnable : Nat := 0
  holdDawn : Nat := 0
  /-- stacks that have passed the half-rate phase (R348) -/
  halfDone : List Nat := []
  /-- stacks whose full-rate sweep has ended -/
  fullDone : List Nat := []
  /-- the router is enabled (R550 step 5) -/
  routerOn : Bool := false
  /-- granules retired by step 8 (R552) -/
  retired : List Nat := []
deriving DecidableEq, Repr, Inhabited

/-- An update of the flash under way (R562). -/
structure FwUpdate where
  mailbox : Nat := 0
  /-- 0 the slot not running, 1 boot configuration -/
  target : Nat := 0
  /-- TARGET 1: the boot-configuration copy that BEGIN erased -/
  copy : Nat := 0
  /-- ranges written since BEGIN: offset and end -/
  written : List (Nat × Nat) := []
deriving DecidableEq, Repr, Inhabited

/-- Flash, update and key state (R555–R564, R571). -/
structure Firmware where
  /-- the QSPI flash, 32 MiB: bytes that differ from the erased value 0xFF -/
  flash : KMap Byte := []
  update : Option FwUpdate := none
  /-- the last FINISH of TARGET 0 since BEGIN returned OK -/
  finishOk : Bool := false
  /-- the device key is loaded (R550 step 4), and locked until reset (R571) -/
  keyLoaded : Bool := false
  keyLocked : Bool := false
  /-- FW.ACTIVATE RELOAD has been answered and the Zenith core restarts (R563) -/
  reload : Bool := false
  /-- the Zenith core restarts from its verified image (R377) -/
  restart : Bool := false
deriving DecidableEq, Repr, Inhabited

/-- Self-test and repair (R565–R575). A block instance is coded BLOCK × 64 + INDEX. -/
structure SelfTest where
  records : KMap TestRecord := []
  /-- block instances under BIST.RUN, each with the mailbox that asked and the MODE: 16 × MODE + mailbox -/
  running : KMap Nat := []
  /-- block instances that failed the boot self-test (R565) -/
  failed : List Nat := []
  /-- block instances that failed a BIST.RUN and stay isolated until reset (R567) -/
  stuck : List Nat := []
  /-- repairs in force: those of the die, the stacks and the retired granules -/
  repairs : List RepairEntry := []
  /-- entries not recorded for want of room (R573) -/
  lost : Nat := 0
deriving DecidableEq, Repr, Inhabited

/-! ### Clocks and resets (chapter 19) -/

/-- A clock domain (R580). -/
structure ClockDomain where
  /-- 0 PLL, 1 BYPASS, 2 RING, 3 stopped -/
  source : Nat := 3
  ramping : Bool := false
  divider : Nat := 0
  target : Nat := 0
deriving DecidableEq, Repr, Inhabited

/-- A crossing between reset domains (R597, R598). -/
structure Crossing where
  isOpen : Bool := false
  /-- one side is in reset: PEER_IN_RESET -/
  peerInReset : Bool := true
  /-- 2 bits -/
  generation : Nat := 0
deriving DecidableEq, Repr, Inhabited

/-- A request to close a gate, in its 256-cycle window (R588). -/
structure GateRequest where
  /-- 0 TILE_COMPUTE, 1 LINK, 2 SEQUENCER -/
  unit : Nat := 0
  index : Nat := 0
  mailbox : Nat := 0
deriving DecidableEq, Repr, Inhabited

/-- The clock block (R576–R599). -/
structure Clocks where
  refOk : Bool := false
  loss : Bool := false
  /-- 0 OFF, 1 LOCKING, 2 LOCKED, 3 COAST -/
  pllState : Nat := 0
  ringReady : Bool := false
  returning : Bool := false
  /-- LOSSES, SWITCH_REFUSED and GATE_REFUSED, 16 bits each, saturating -/
  losses : Nat := 0
  switchRefused : Nat := 0
  gateRefused : Nat := 0
  /-- CLK_TILE, CLK_FAB, CLK_MEM, CLK_MGT, CLK_AUX (R577) -/
  domains : KMap ClockDomain := [(3, ⟨2, false, 1, 1⟩), (4, ⟨1, false, 1, 1⟩)]
  /-- GATED bits (R591) -/
  gateTile : Nat := 0xFFFFFFFF
  gateLink : Nat := 0xFFFFFFFFFFFFFFFF
  seqGated : Bool := true
  /-- CLK_OBS (R592) -/
  obsEnable : Bool := false
  obsSel : Nat := 0
  obsDiv : Nat := 0
  obsIgnored : Bool := false
  /-- gates being closed (R588) -/
  gateRequests : List GateRequest := []
  /-- divider of CLK_TILE last set by CLK.SWITCH (R618) -/
  tileSwitched : Nat := 4
deriving DecidableEq, Repr, Inhabited

/-- What ALWAYS_ON keeps of the clock block (R596, R583, R599): CLK_RST_CAUSE, the monitor and the counts since power-on.
`por` reads 1 after the power-on reset. -/
structure AlwaysOn where
  por : Bool := true
  pin : Bool := false
  thermal : Bool := false
  feed : Bool := false
  zenith : Bool := false
  pcie : Bool := false
  /-- PIN_COUNT, 16 bits, saturating -/
  pinCount : Nat := 0
  /-- consecutive bad and good windows of the monitor -/
  badRun : Nat := 0
  goodRun : Nat := 0
  /-- the crossings of R598, in its order -/
  crossings : KMap Crossing := []
  /-- counts of R599 in its order and of R628 from 64, 32 bits, saturating -/
  counts : KMap Nat := []
deriving DecidableEq, Repr, Inhabited

/-! ### Power, pins and the host side (chapters 20, 21) -/

/-- What OFFLINE records (R615). -/
structure OfflineRecord where
  links : Nat := 0
  engines : Nat := 0
  gates : KMap Nat := []
deriving DecidableEq, Repr, Inhabited

/-- Feeds, rails, states and limiter (R603–R628). -/
structure Power where
  aGood : Bool := false
  bGood : Bool := false
  aOv : Bool := false
  bOv : Bool := false
  holdup : Bool := false
  /-- the last telemetry samples (R611) -/
  sample : Telemetry := {}
  /-- STATE: 0 RUN, 1 HOLD, 2 OFFLINE -/
  state : Nat := 0
  /-- CHANGING: a PWR.STATE change ends in the row that begins it, so this reads 0 between rows (log entry 17) -/
  changing : Bool := false
  limitMiss : Bool := false
  throttle : Bool := false
  /-- POWER_W, 12 bits -/
  powerW : Nat := 0
  /-- LIMIT_W in use and as last set (class L, R619) -/
  limitW : Nat := 1200
  limitNext : Nat := 1200
  /-- LIMIT_DIV, 8 bits -/
  limitDiv : Nat := 4
  /-- WAKES, 16 bits, saturating -/
  wakes : Nat := 0
  /-- consecutive periods above LIMIT_W with the divider at 16 (R618) -/
  overPeriods : Nat := 0
  /-- rails that are on (bit p for PAGE p) -/
  railsOn : Nat := 0
  /-- THERMTRIP_N is asserted (R623) -/
  thermTrip : Bool := false
  /-- RESET_N has been held low since the trip (R623) -/
  tripResetSeen : Bool := false
  /-- in a feed reset (R609) -/
  feedReset : Bool := false
  /-- a request that reached the module in HOLD waits for the wake (R614) -/
  wake : Bool := false
  /-- tile gates that the entry to HOLD or OFFLINE closed (R614, R615) -/
  closedGates : Nat := 0
  /-- ALWAYS_ON runs -/
  alwaysOn : Bool := true
  offline : OfflineRecord := {}
deriving DecidableEq, Repr, Inhabited

/-- The PCI Express endpoint (R634–R638). -/
structure PcieEndpoint where
  perstLow : Bool := true
  /-- 0 down, 1 L0, 2 L1, 3 L2/L3 Ready -/
  link : Nat := 0
  d3hot : Bool := false
  /-- Command register: bits 1 (memory space), 2 (bus master), 6, 8 and 10 are writable -/
  command : Nat := 0
  /-- BAR0–BAR1 -/
  bar : Nat := 0
  msixEnable : Bool := false
  msixMaskAll : Bool := false
  /-- AER uncorrectable status: a poisoned write was reported -/
  aerPoison : Bool := false
  /-- Device Control, 16 bits, and the error bits of Device Status, 4 bits (log entry 18) -/
  devCtl : Nat := 0x2810
  devSta : Nat := 0
  /-- last completion to the host: status 0 successful, 1 unsupported request; and its data -/
  completion : Nat × Nat := (0, 0)
  /-- last MSI-X memory write mastered: address, data -/
  mastered : Option (Nat × Nat) := none
deriving DecidableEq, Repr, Inhabited

/-- Status registers of one PMBus page (R640, R642). -/
structure PmbusStatus where
  vout : Nat := 0
  iout : Nat := 0
  input : Nat := 0
  temperature : Nat := 0
deriving DecidableEq, Repr, Inhabited

/-- The SMBus target (R639–R642). -/
structure Smbus where
  /-- PAGE, 8 bits -/
  page : Nat := 0
  pages : KMap PmbusStatus := []
  /-- STATUS_CML, 8 bits -/
  cml : Nat := 0
  /-- SMB_ADDR1 and SMB_ADDR0 as sampled at power-on -/
  straps : Nat := 0
  /-- bytes returned by the last transaction -/
  returned : List Byte := []
deriving DecidableEq, Repr, Inhabited

/-- The test access port (R643–R646). -/
structure Tap where
  /-- instruction in effect, 8 bits; IDCODE at Test-Logic-Reset -/
  instruction : Nat := 1
  /-- what the selected register shifts out -/
  shiftOut : Nat := 0
  /-- a challenge that stands (R645) -/
  nonce : Option Nat := none
  /-- UNLOCK: 0 LOCKED, 1 CLEARING, 2 UNLOCKED, 3 REFUSED -/
  unlock : Nat := 0
  /-- FAILS, 4 bits, saturating -/
  fails : Nat := 0
  extRefused : Bool := false
  /-- boundary register, in the land order of log entry 19 (R644) -/
  boundary : Nat := 0
deriving DecidableEq, Repr, Inhabited

/-- One GPIO pin (R648, R649). -/
structure GpioPin where
  dir : Bool := false
  od : Bool := false
  pull : Nat := 0
  /-- the level that makes the source ACTIVE; 1 at reset (log entry 6) -/
  polarity : Bool := true
  filterUs : Nat := 0
  latch : Bool := false
  level : Bool := false
deriving DecidableEq, Repr, Inhabited

/-! ### Links, lanes and optical engines (chapters 13, 14) -/

/-- A sequenced flit in the replay buffer (R435): its number, FIRST and bytes 8–179. -/
structure ReplayFlit where
  seq : Nat := 0
  first : Nat := 63
  payload : List Byte := []
  /-- the packet whose last word lies in this flit (R448) -/
  ends : Option Packet := none
deriving DecidableEq, Repr, Inhabited

/-- The coder of one direction of a lane (R390, R424): its scrambler register, 23 bits, and the precoder's last symbol P, 2
bits. -/
structure LaneCoder where
  shift : Nat := 0
  last : Nat := 0
deriving DecidableEq, Repr, Inhabited

/-- The transmit side of a link end (R431–R441). -/
structure LinkTx where
  /-- number of the next sequenced flit, 12 bits -/
  next : Nat := 0
  /-- replay buffer, oldest first; its first flit is u, its length n -/
  buffer : List ReplayFlit := []
  /-- the replay count c of flit u (R438) -/
  replays : Nat := 0
  /-- NAK_ID last acted on -/
  nakActed : Nat := 0
  /-- credits held and last CRCUM taken, per VC (R441) -/
  credits : KMap Nat := []
  crcum : KMap Nat := []
  /-- VC of the next CRVC (R440) -/
  crvc : Nat := 0
  /-- sleep state: 0 OFF, 1 ACTIVE, 2 DROWSE, 3 SLUMBER (R399) -/
  sleep : Nat := 0
  /-- flits sent since the last filler block (R396) -/
  sinceFiller : Nat := 0
  /-- NAKs still to send with the present NAK_ID (R432) -/
  naks : Nat := 0
  /-- the next sequenced flit must be a REPLAY_START (R436) -/
  mustReplay : Bool := false
  /-- the CTRL command that waits for its answer: CMD, REQID, LANES (R446) -/
  ctrl : Option (Nat × Nat × Nat) := none
  /-- the bytes last put on the lanes: a flit, a block or a pattern -/
  wire : List Byte := []
  /-- `wire` goes neither scrambled nor precoded (R425) -/
  raw : Bool := true
  /-- the lanes that carry `wire` -/
  on : Nat := 0
  /-- the coders of link lanes 0–3 before `wire` (R424) -/
  coders : KMap LaneCoder := []
  /-- the ACK of the last flit sent, and CUM of each VC as last sent: what the end owes beyond them is R400's -/
  ackSent : Nat := 4095
  cumSent : KMap Nat := []
deriving DecidableEq, Repr, Inhabited

/-- The receive side of a link end (R432–R440). -/
structure LinkRx where
  /-- e, the next flit expected, 12 bits -/
  expected : Nat := 0
  recover : Bool := false
  nakId : Nat := 0
  /-- consecutive failed flits (R434) -/
  failRun : Nat := 0
  /-- the number that the next sequenced flit gets: e, or one before e while a replay repeats accepted flits (R434) -/
  number : Nat := 0
  /-- bytes of the packet whose words are still arriving (R426) -/
  arriving : List Byte := []
  /-- CUM per VC, 12 bits (R440) -/
  cum : KMap Nat := []
  sleep : Nat := 0
  /-- flits in the elastic buffer of 16 (R397) -/
  fill : Nat := 0
  /-- the coders of link lanes 0–3 (R390, R424) -/
  coders : KMap LaneCoder := []
deriving DecidableEq, Repr, Inhabited

/-- A TS block (R443); of a received one, whether its polarity was inverted. -/
structure TsBlock where
  /-- 1 CAP, 2 READY, 3 EQ -/
  type : Nat := 1
  lane : Nat := 0
  node : Nat := 0
  rates : Nat := 0
  wmax : Nat := 0
  precode : Nat := 0
  rate : Nat := 0
  eqReq : Nat := 0
  eqAck : Nat := 0
  efm : Nat := 0
  pass : Bool := false
  inverted : Bool := false
deriving DecidableEq, Repr, Inhabited

/-- Training and width change (R442–R446). -/
structure LinkTraining where
  /-- the TS block that each training lane sends (R443) -/
  sent : KMap TsBlock := []
  /-- consecutive valid TS blocks in DETECT, and READY blocks in CONFIG -/
  tsRun : Nat := 0
  ready : Nat := 0
  /-- what the partner's TS blocks offer: RATES, WMAX, PRECODE -/
  rates : Nat := 0
  wmax : Nat := 0
  precode : Nat := 0
  /-- lanes that the partner's latest EQ blocks report as passing, PASS: bit 4 × RATE + lane (R443) -/
  passing : Nat := 0
  /-- a width change under way: lane set, REQID, own request, ACK or training passed -/
  lanes : Nat := 0
  reqId : Nat := 0
  mine : Bool := false
  /-- 0 none, 1 requested, 2 training added lanes, 3 GO sent, 4 ACK received and lanes still training -/
  phase : Nat := 0
  /-- the partner has sent WIDTH_GO for the change -/
  partnerGo : Bool := false
  /-- this end's added receivers pass (R446) -/
  passed : Bool := false
  /-- ACTIVE was entered from CONFIG and RATE_REQ has not been sent (R551) -/
  rateDue : Bool := false
  /-- fabric times of the latest entries to DOWN (R449) -/
  downTimes : List Nat := []
deriving DecidableEq, Repr, Inhabited

/-- One link port (R384, R442, R451, R412, R413, R406). -/
structure Link where
  /-- 0 DISABLED, 1 DETECT, 2 CONFIG, 3 ACTIVE, 4 RATE_TRAIN, 5 RETRAIN, 6 DOWN -/
  state : Nat := 0
  /-- DOWN and held (R449) -/
  held : Bool := false
  /-- rate code, 2 bits (R386) -/
  rate : Nat := 0
  /-- lanes in use, 4 bits -/
  lanes : Nat := 0
  widthMax : Nat := 4
  rateMax : Nat := 0
  precode : Nat := 0
  /-- DROWSE_IDLE and SLUMBER_IDLE in force and as last set (class L) -/
  drowse : Nat := 1000
  drowseNext : Nat := 1000
  slumber : Nat := 200
  slumberNext : Nat := 200
  efmLow : Nat := 0
  replayLimit : Nat := 4
  replayTimer : Nat := 2000
  replayTimerNext : Nat := 2000
  widthAuto : Bool := true
  /-- partner's node ID, 12 bits -/
  partner : Nat := 0
  /-- the round trip measured since the last entry to ACTIVE, 0 until then, and the flits that it was measured on, to 1,024
  (R437) -/
  rttNs : Nat := 0
  rttFlits : Nat := 0
  tx : LinkTx := {}
  rx : LinkRx := {}
  tr : LinkTraining := {}
  /-- counts of R451 in its order (0 FAILED … 10 CREDIT_STALLS), and 16 the elastic overflows of R414 -/
  counts : KMap Nat := []
  /-- DOWNS since the last MODULE reset (R665), 16 bits, saturating -/
  downs16 : Nat := 0
  /-- gate of an optical link: 0 CLOSED, 1 OPEN, 2 SHUT, 3 PROBE, 4 HOT (R406) -/
  gate : Nat := 0
  autoShut : Bool := false
  /-- the laser input is low and has not yet risen to +17 dBm (R408) -/
  laserLow : Bool := false
deriving DecidableEq, Repr, Inhabited

/-- One lane (R392, R414). -/
structure Lane where
  txPrecode : Bool := false
  rxPrecode : Bool := false
  rxInvert : Bool := false
  degraded : Bool := false
  /-- EFM of the last window and the lowest since the last clear, 8 bits -/
  efm : Nat := 0
  efmMin : Nat := 255
  /-- consecutive windows below EFM_LOW, and at or above EFM_LOW + 4 (R395) -/
  low : Nat := 0
  high : Nat := 0
  ctle : Nat := 0
  /-- the DFE tap and the 24 taps of the receiver's FFE (R392) -/
  dfe : Nat := 0
  ffe : List Nat := List.replicate 24 0
  /-- transmit taps c−2, c−1, c+1 (R392) -/
  cm2 : Int := 0
  cm1 : Int := -6
  cp1 : Int := 0
  wakes : Nat := 0
  wakeLate : Nat := 0
  degrades : Nat := 0
  /-- loss of signal (R409) -/
  los : Bool := false
deriving DecidableEq, Repr, Inhabited

/-- One optical engine (R407, R415, R417). -/
structure Engine where
  on : Bool := false
  /-- powered and not yet at temperature; the mailbox that waits -/
  heating : Option Nat := none
  temp : Nat := 0
  shuts : Nat := 0
  probes : Nat := 0
deriving DecidableEq, Repr, Inhabited

/-! ### Router and fabric time (chapter 15) -/

/-- A packet in an egress queue (R464). -/
structure Queued where
  port : Nat := 0
  packet : Packet := {}
  /-- it came through salvage (R458) -/
  salvaged : Bool := false
  /-- the WFQ tag that it received as head of its VC, if it is head (R465) -/
  tag : Option Nat := none
deriving DecidableEq, Repr, Inhabited

/-- RATE, BURST and tokens of a token bucket, and the values last set (R467, R470). -/
structure Bucket where
  rate : Nat := 0
  burst : Nat := 0
  tokens : Nat := 0
  rateNext : Nat := 0
  burstNext : Nat := 0
deriving DecidableEq, Repr, Inhabited

/-- Scheduling state of an egress port (R464–R470). -/
structure PortQos where
  /-- weights in force and as last set (class L) -/
  weights : List Nat := [32, 32, 64, 64, 32, 32, 16]
  weightsNext : List Nat := [32, 32, 64, 64, 32, 32, 16]
  /-- V and F_v of R465 -/
  v : Nat := 0
  f : KMap Nat := []
  /-- starts of VC v since class c was chosen, at index 4 v + c (R466) -/
  since : KMap Nat := []
  shapers : KMap Bucket := []
  policer : Bucket := {}
deriving DecidableEq, Repr, Inhabited

/-- The Horizon list of a link egress port (R471–R474). -/
structure Horizon where
  base : Nat := 0
  /-- entries of the list in force: DURATION and GATES -/
  entries : List (Nat × Nat) := []
  /-- a loaded list that waits for its cycle start; none = nothing waits -/
  next : Option (Nat × List (Nat × Nat)) := none
  /-- the fabric time from which it is in force (R473) -/
  due : Nat := 0
  /-- entry in force, while the list runs -/
  entry : Nat := 0
  running : Bool := false
deriving DecidableEq, Repr, Inhabited

/-- A packet that stands ready to be routed or to be served by the block that its row names. -/
structure Arrived where
  port : Nat := 0
  packet : Packet := {}
deriving DecidableEq, Repr, Inhabited

/-- The router (R452–R484). -/
structure Router where
  /-- routing tables A and B: 64-bit entries by node ID (R453) -/
  tableA : KMap Nat := []
  tableB : KMap Nat := []
  /-- active epoch E -/
  epoch : Nat := 0
  /-- FLIP_HOLD runs -/
  holding : Bool := false
  ttlInit : Nat := 32
  flipHold : Nat := 1000
  salvageHold : Nat := 10000
  /-- ROLES: bit n set, link port n is EDGE -/
  roles : Nat := 0
  /-- packets in egress queues, in order of entry -/
  egress : List Queued := []
  /-- the salvage store, oldest first (R459) -/
  salvage : List Packet := []
  /-- packets received on link ports and not yet routed -/
  arrived : List Arrived := []
  /-- packets for this module handed to a block and not yet served -/
  inbox : List Arrived := []
  /-- packets of this module that a throttle holds back, oldest first, with their egress port (R469) -/
  throttled : List Queued := []
  /-- egress queues whose injection is stopped: (port × 8 + vc) × 4 + class -/
  stopped : List Nat := []
  qos : KMap PortQos := []
  /-- MODES 4 bits, THR_HIGH and THR_LOW (R468, R469) -/
  modes : Nat := 0
  thrHigh : Nat := 12288
  thrLow : Nat := 4096
  horizons : KMap Horizon := []
  /-- gates are open because fabric time is unlocked (R474) -/
  unlocked : Bool := false
  /-- counts of R484: 0 NOROUTE, 1 TTL_DROP, 2 SALVAGE_DROP, 3 salvaged, 4 throttle stops, 16 + n policer drops of port n,
  96 + t filter displacements of tile t -/
  counts : KMap Nat := []
  /-- transaction IDs that the module gives to its own requests -/
  nextTid : Nat := 0
deriving DecidableEq, Repr, Inhabited

/-- Fabric time (R475–R480, R484). -/
structure FabricTime where
  /-- ps, 64 bits -/
  now : Nat := 0
  /-- cycles slewed toward the next whole ps, below 20: each changes the time by a twentieth of a ps (R478) -/
  frac : Nat := 0
  /-- ps still to remove by slewing (θ) -/
  slew : Int := 0
  /-- 0 FREE, 1 ACQUIRE, 2 LOCKED, 3 HOLDOVER, 4 ROOT -/
  state : Nat := 0
  /-- 0 OFF, 1 ROOT, 2 CHILD -/
  role : Nat := 0
  parent : Nat := 0
  syncInterval : Nat := 10
  syncNext : Nat := 10
  delayInterval : Nat := 1000
  delayNext : Nat := 1000
  holdoverLimit : Nat := 10000
  /-- ASYM in ps by link -/
  asym : KMap Int := []
  /-- SYNC_OUT by link -/
  syncOut : Nat := 0
  /-- the root's node ID and the hops to it -/
  root : Nat := 0
  steps : Nat := 0
  /-- mean delay D and last offset θ, in ps; rate adjustment in parts per billion -/
  delay : Int := 0
  theta : Int := 0
  ratePpb : Int := 0
  /-- consecutive SYNCs within 1 ns, and beyond 100 ns (R478) -/
  good : Nat := 0
  bad : Nat := 0
  /-- sequence number of the next message -/
  seq : Nat := 0
  /-- the DELAY_REQ outstanding: SEQ and t1 -/
  request : Option (Nat × Nat) := none
deriving DecidableEq, Repr, Inhabited

/-! ### Mirror pair (chapter 16) -/

/-- The pair state of a module (R485–R514). -/
structure Pair where
  /-- STATE: 0 UNPAIRED, 1 SYNCING, 2 PAIRED, 3 SOLO, 4 FENCED -/
  state : Nat := 0
  symmetric : Bool := false
  /-- ROLE0, ROLE1: 0 none, 1 ACTIVE, 2 STANDBY, 3 YIELDED -/
  role0 : Nat := 0
  role1 : Nat := 0
  /-- CHECK: 0 none, 1 RUNNING, 2 PASS, 3 FAIL -/
  check : Nat := 0
  fenceIn : Bool := false
  fenceOut : Bool := false
  partner : Nat := 0
  service0 : Nat := 0
  service1 : Nat := 0
  pepoch0 : Nat := 0
  pepoch1 : Nat := 0
  /-- mirror links, bit n for BLn (R492) -/
  links : Nat := 0
  /-- packets for a standby service, held with the port that they came to; one of a link port keeps its credits (R504) -/
  heldPackets : List Arrived := []
  /-- number of the next record sent -/
  seq : Nat := 0
  /-- records sent on the mirror links and not acknowledged, oldest first (R494), each with the digest that this module computed -/
  outgoing : List (MirrorRec × Word) := []
  /-- answers that leave once the record of this number is acknowledged (R494): packets, and answers to tile requests -/
  heldAnswers : List (Nat × Packet) := []
  heldTiles : List (Nat × Nat × Answer) := []
  /-- mailbox answers that leave once the record of this number is acknowledged (R173): mailbox, status, body -/
  heldReplies : List (Nat × Nat × Nat × List Byte) := []
  /-- regions that become FREE once the wipe's record of this number is acknowledged (R103) -/
  heldWipes : List (Nat × Nat) := []
  /-- digests returned with acknowledgements, newest first, at most 16 -/
  acks : List Word := []
  /-- the 2 µs of R501 step 4 run: no write, atomic, grant or chunk commit -/
  writeHold : Bool := false
  /-- ROLE of the join; PAIR_RETURN as last set (class L); both 0 before a join -/
  standby : Bool := false
  ret : Nat := 0
  /-- a PAIR.JOIN that waits: mailbox, MLINKS, PAIR_RETURN, and the join itself -/
  asked : Option (Nat × Nat × Nat × JoinInfo) := none
  /-- the partner's join that stands -/
  offered : Option JoinInfo := none
  /-- this module returned to a pair in service (R508) -/
  returned : Bool := false
  /-- SYNC_PHASE, 2 bits (R663) -/
  syncPhase : Nat := 0
  /-- services kept after PAIR.LEAVE (R512) -/
  kept : List Nat := []
  /-- services that are no longer mirrored (R500) -/
  alone : List Nat := []
  /-- services that diverge and are not decided, and whether by LINK_LOST (R497) -/
  diverged : List Nat := []
  linkLost : Bool := false
  /-- results of this module's self-check and of the partner's, as far as known: it fails (R498, R499) -/
  own : Option Bool := none
  other : Option Bool := none
  /-- probes sent since the divergence (R499), and the TID of the last -/
  probes : Nat := 0
  probeTid : Nat := 0
  /-- services that it has decided to take over, and the 10 µs of R501 run -/
  taking : List Nat := []
  fenceWait : Bool := false
  /-- a switch under way: the service, and the mailbox that waits (R510) -/
  moving : Option (Nat × Option Nat) := none
  /-- counts of R513, 32 bits, saturating: 0 digests compared, 1 divergences by digest, 2 by LINK_LOST, 3 self-checks failed,
  4 probes, 5 takeovers, 6 switches, 7 yields -/
  counts : KMap Nat := []
  /-- the partner's error logs (R493) -/
  partnerLogs : KMap ErrorLog := []
  /-- records sent that ask for no acknowledgement, newest first, at most 16 -/
  control : List MirrorItem := []
deriving DecidableEq, Repr, Inhabited

/-! ### The module -/

/-- Everything of the module but its pool memory and the waiting commands. -/
structure Hw where
  /-- the model's own: how many free values have been taken (log entry 3) -/
  freeCount : Nat := 0
  sys : Sys := {}
  fuses : Fuses := {}
  fw : Firmware := {}
  bist : SelfTest := {}
  clk : Clocks := {}
  always : AlwaysOn := {}
  pwr : Power := {}
  pcie : PcieEndpoint := {}
  smb : Smbus := {}
  tap : Tap := {}
  gpio : KMap GpioPin := []
  evc : EventController := {}
  /-- the 165 error logs (R541) -/
  logs : KMap ErrorLog := []
  /-- the 16 mailboxes -/
  mbx : KMap Mailbox := []
  /-- accepted requests not yet answered, in ring order (R14) -/
  mbxOrder : List Nat := []
  mems : Memories := {}
  links : KMap Link := []
  lanes : KMap Lane := []
  engines : KMap Engine := []
  router : Router := {}
  time : FabricTime := {}
  pair : Pair := {}
  /-- the model's own: orders uses and serial numbers (log entry 11) -/
  stamp : Nat := 0
  regions : KMap Region := []
  /-- agent groups: bit n set for node n (R88) -/
  groups : KMap Nat := []
  /-- agents declared dead (R105) -/
  dead : List Nat := []
  /-- rights changes under way (R99) -/
  changes : List Change := []
  snaps : KMap Snap := []
  /-- snapshot commands between acceptance and switch (R167) -/
  switching : List Switching := []
  dirs : KMap DirSlice := []
  /-- HOME_TIMEOUT in µs (R132) -/
  homeTimeout : Nat := 2000
  /-- suspect nodes, oldest first (R133, R136) -/
  suspects : List Nat := []
  /-- BULK and tile accesses in progress at home, by serial number (R429) -/
  bulk : KMap BulkOp := []
  /-- what the homes have checked and still do once their MCS serves or their shard is copied, oldest first (R164, R353, R584) -/
  parked : List Parked := []
  contexts : KMap Context := []
  tiles : KMap Tile := []
  queues : KMap Queue := []
  /-- requests of the tiles to other nodes, by TID (R251) -/
  outs : KMap Out := []
  /-- answers to tile requests that their users have not taken, by serial number -/
  answers : KMap Answer := []
  /-- accepted invalidations that wait for R62 -/
  invalidations : List Invalidation := []
  /-- collective groups -/
  colls : KMap Group := []
deriving DecidableEq, Repr, Inhabited

/-- A module and the commands that wait for it, oldest first. -/
structure State where
  pending : List Instr := []
  pool : Pool := {}
  hw : Hw := {}
deriving DecidableEq, Repr

/-- The module at reset: every field at its reset value, RESET_N low, the flash erased, no command waiting (log entries 4
and 6 name the values that the manual does not give). -/
def State.reset : State := { pending := [], pool := {}, hw := {} }

/-- Change the module and leave pool memory and the queue as they are. -/
def State.onHw (s : State) (f : Hw → Hw) : State := { s with hw := f s.hw }

/-- What a step or a command's meaning answers. -/
abbrev Result := Host.Outcome State Fault Refusal

end Sys2Proof.Machine
end

