-- ==== Sys2Proof/Machine/Flit.lean ====
section
/-!
DEFINITION. Flit coding: the two interleaved RS(96,92) codewords (R419), CRC-32C (R421), the link control word (R422), the
packet stream (R426), TS blocks (R443) and the fixed blocks (R425).
-/
namespace Sys2Proof.Machine
open Sys2Proof

/-! ### GF(2^8) and Reed-Solomon (R419) -/

/-- Multiply by x in GF(2^8) with polynomial 0x11D. -/
def gfTimesX (a : Nat) : Nat := if a < 128 then 2 * a else nxor (2 * a) 0x11D

/-- Product in GF(2^8), over the low `n` bits of the second factor. -/
def gfMulBits : Nat → Nat → Nat → Nat
  | 0, _, _ => 0
  | n + 1, a, b => nxor (if b % 2 == 1 then a else 0) (gfMulBits n (gfTimesX a) (b / 2))

def gfMul (a b : Nat) : Nat := gfMulBits 8 a b

/-- α^n. -/
def gfPow : Nat → Nat
  | 0 => 1
  | n + 1 => gfTimesX (gfPow n)

/-- The n below 255 with α^n = a. -/
def gfLog (a : Nat) : Option Nat := (List.range 255).find? (fun n => gfPow n == a)

/-- Inverse of a non-zero element. -/
def gfInv (a : Nat) : Nat := match gfLog a with | some n => gfPow ((255 - n) % 255) | none => 0

/-- Value of a polynomial, highest coefficient first, at `x` (Horner). -/
def gfEval (coeffs : List Nat) (x : Nat) : Nat := coeffs.foldl (fun acc c => nxor (gfMul acc x) c) 0

/-- g(x) = (x − 1)(x − α)(x − α²)(x − α³) below its leading coefficient, from x³ down (R419). -/
def rsGenerator : List Nat := [15, 54, 120, 64]

/-- One step of the division by g(x): the four-symbol remainder after another data symbol. -/
def rsStep (r : List Nat) (d : Nat) : List Nat :=
  let q := nxor (r.getD 0 0) d
  (List.range 4).map fun i => nxor (r.getD (i + 1) 0) (gfMul q (rsGenerator.getD i 0))

/-- The four parity symbols of 92 data symbols: the remainder of d(x) x⁴ mod g(x). -/
def rsParity (d : List Nat) : List Nat := d.foldl rsStep [0, 0, 0, 0]

/-- Change symbol of x^p by `e` in a codeword of 96 symbols, highest power first. -/
def rsFix (c : List Nat) (p e : Nat) : List Nat := c.modify (95 - p) (fun v => nxor v e)

/-- Decode one codeword: at most two wrong symbols are corrected (R419). -/
def rsDecode (c : List Nat) : Option (List Nat) :=
  let s0 := gfEval c 1
  let s1 := gfEval c (gfPow 1)
  let s2 := gfEval c (gfPow 2)
  let s3 := gfEval c (gfPow 3)
  if s0 == 0 && s1 == 0 && s2 == 0 && s3 == 0 then some c
  else
    let det := nxor (gfMul s0 s2) (gfMul s1 s1)
    if det == 0 then
      if s0 == 0 || s1 == 0 || nxor (gfMul s1 s3) (gfMul s2 s2) != 0 then none
      else
        match gfLog (gfMul s1 (gfInv s0)) with
        | some p => if p < 96 then some (rsFix c p s0) else none
        | none => none
    else
      let k := gfInv det
      let a := gfMul (nxor (gfMul s0 s3) (gfMul s1 s2)) k
      let b := gfMul (nxor (gfMul s1 s3) (gfMul s2 s2)) k
      match (List.range 96).filter (fun p => nxor (nxor (gfMul (gfPow p) (gfPow p)) (gfMul a (gfPow p))) b == 0) with
      | [p, q] =>
        let e := gfMul (nxor (gfMul s0 (gfPow p)) s1) (gfInv (nxor (gfPow p) (gfPow q)))
        some (rsFix (rsFix c p (nxor s0 e)) q e)
      | _ => none

/-! ### CRC-32C (R421) -/

/-- Eight steps of the reflected CRC register. -/
def crcBits : Nat → Nat → Nat
  | 0, c => c
  | n + 1, c => crcBits n (if c % 2 == 1 then nxor (c / 2) 0x82F63B78 else c / 2)

/-- The CRC register after bytes; the match has the register evaluated at each byte. -/
def crcBytes : List Byte → Nat → Nat
  | [], c => c
  | x :: r, c =>
    match crcBits 8 (nxor c x.toNat) with
    | 0 => crcBytes r 0
    | k + 1 => crcBytes r (k + 1)

/-- CRC-32C of bytes. -/
def crc32c (b : List Byte) : Nat := nxor (crcBytes b 0xFFFFFFFF) 0xFFFFFFFF

/-! ### Flits (R418, R422) -/

/-- The link control word (R422). -/
structure LinkControl where
  ftype : Nat := 0
  nak : Bool := false
  nakId : Nat := 0
  ack : Nat := 4095
  crvc : Nat := 0
  crcum : Nat := 0
  first : Nat := 63
  rseq : Nat := 0
  rsv : Nat := 0
deriving DecidableEq, Repr

def LinkControl.toNat (c : LinkControl) : Nat :=
  pack [(3, c.ftype), (1, b2n c.nak), (2, c.nakId), (12, c.ack), (3, c.crvc), (12, c.crcum), (6, c.first), (12, c.rseq), (13, c.rsv)]

def LinkControl.ofNat (x : Nat) : LinkControl :=
  { ftype := fld x 0 3, nak := tbit x 3, nakId := fld x 4 2, ack := fld x 6 12, crvc := fld x 18 3, crcum := fld x 21 12,
    first := fld x 33 6, rseq := fld x 39 12, rsv := fld x 51 13 }

/-- Every second byte from the j-th on. -/
def everyOther (j : Nat) (b : List Byte) : List Nat :=
  (List.range (b.length / 2)).map fun i => (b.getD (2 * i + j) 0).toNat

/-- The CRC of bytes 0–179 with sequence number Z before them (R421). -/
def flitCrc (z : Nat) (b : List Byte) : Nat := crc32c (leBytes 2 (z % 4096) ++ b)

/-- A flit from its link control word, its payload area and Z (R418–R421). -/
def formFlit (c : LinkControl) (payload : List Byte) (z : Nat) : List Byte :=
  let b := leBytes 8 c.toNat ++ payload
  let d := b ++ leBytes 4 (flitCrc z b)
  let p0 := rsParity (everyOther 0 d)
  let p1 := rsParity (everyOther 1 d)
  d ++ ((List.range 4).map (fun i => [BitVec.ofNat 8 (p0.getD i 0), BitVec.ofNat 8 (p1.getD i 0)])).flatten

/-- What forward error correction gives of a flit: its 192 bytes, and how many codewords it corrected. -/
def flitFec (f : List Byte) : Option (List Byte × Nat) :=
  let c0 := everyOther 0 f
  let c1 := everyOther 1 f
  match rsDecode c0, rsDecode c1 with
  | some d0, some d1 =>
    let b := ((List.range 96).map (fun i => [BitVec.ofNat 8 (d0.getD i 0), BitVec.ofNat 8 (d1.getD i 0)])).flatten
    some (b, b2n (c0 != d0) + b2n (c1 != d1))
  | _, _ => none

/-- Whether the CRC of a corrected flit matches with sequence number Z. -/
def crcMatches (b : List Byte) (z : Nat) : Bool := leNat ((b.drop 180).take 4) == flitCrc z (b.take 180)

/-- A CTRL flit's command bytes 8–15 (R446): CMD, REQID, LANES, the sender's node ID. -/
def ctrlBytes (cmd reqId lanes node : Nat) : List Byte :=
  leBytes 8 (pack [(8, cmd), (8, reqId), (8, lanes), (8, 0), (16, node % 4096), (16, 0)]) ++ leBytes 164 0

/-! ### The packet stream (R426) -/

/-- Cut the packets out of the stream: the bytes not yet consumed (a packet whose words are still arriving) and the packets
that are whole, in order. A zero word where a packet may begin is a pad word. -/
def cutStream : Nat → List Byte → List (List Byte) × List Byte
  | 0, b => ([], b)
  | fuel + 1, b =>
    if b.length < 4 then ([], b)
    else if leNat (b.take 4) == 0 then cutStream fuel (b.drop 4)
    else
      let n := 4 * Nat.max 1 (fld (leNat (b.take 4)) 8 11)
      if b.length < n then ([], b)
      else
        let (r, rest) := cutStream fuel (b.drop n)
        (b.take n :: r, rest)

/-- The payload areas of a packet that begins at word 0 of a flit; the unused end holds pad words. -/
def payloads : Nat → List Byte → List (List Byte)
  | 0, _ => []
  | n + 1, b => (b.take 172 ++ leBytes (172 - (b.take 172).length) 0) :: (if b.length ≤ 172 then [] else payloads n (b.drop 172))

/-! ### Blocks (R425, R443) -/

/-- A fixed block is recognised when at least 184 of its 192 bytes match (R425). -/
def blockIs (v : Nat) (b : List Byte) : Bool := b.length == 192 && 184 ≤ (b.filter (fun x => x.toNat == v)).length

/-- 192 bytes of one value. -/
def block (v : Nat) : List Byte := List.replicate 192 (BitVec.ofNat 8 v)

/-- The bytes of a TS block (R443). -/
def TsBlock.bytes (t : TsBlock) : List Byte :=
  let b := leBytes 4 0x544C5A49 ++ leBytes 2 (pack [(8, t.type), (8, t.lane)]) ++ leBytes 2 (t.node % 4096)
    ++ [t.rates, t.wmax, t.precode, t.rate, t.eqReq, t.eqAck, t.efm, b2n t.pass].map (BitVec.ofNat 8)
    ++ (List.replicate 86 [0x5A#8, 0xA5#8]).flatten
  b ++ leBytes 4 (crc32c b)

/-- Read a TS block whose MAGIC and CRC are right. -/
def tsRead (b : List Byte) (inverted : Bool) : Option TsBlock :=
  if b.length == 192 && leNat (b.take 4) == 0x544C5A49 && leNat ((b.drop 188).take 4) == crc32c (b.take 188) then
    let g := fun i => (b.getD i 0).toNat
    some { type := g 4, lane := g 5 % 4, node := (g 6 + 256 * g 7) % 4096, rates := g 8, wmax := g 9, precode := g 10,
           rate := g 11, eqReq := g 12, eqAck := g 13, efm := g 14, pass := g 15 % 2 == 1, inverted := inverted }
  else none

/-- Take a TS block in either polarity: MAGIC may be found with the first bit of every symbol pair inverted (R443). -/
def tsTake (b : List Byte) : Option TsBlock :=
  match tsRead b false with
  | some t => some t
  | none => tsRead (b.map (fun x => x ^^^ 0xAA#8)) true

end Sys2Proof.Machine
end

