-- ==== Sys2Proof/Machine/LaneCode.lean ====
section
/-!
DEFINITION. Lane coding: how the bytes of a flit or block become symbols on the lanes and back: striping (R423), the PRBS23
scrambler (R424), Gray mapping (R389), precoding (R390) and the blocks that go uncoded (R425).
-/
namespace Sys2Proof.Machine
open Sys2Proof

/-! ### Scrambler and symbols -/

/-- The scrambler register of link lane i at entry to ACTIVE (R424). -/
def scrambleSeed (i : Nat) : Nat := 0x7FFFF0 + i

/-- The register of x^23 + x^18 + 1 one bit on; the bit that leaves it is the bit of the sequence (R424; PRESUMED, log
entry 33, that the seed's most significant bit comes first). -/
def scrambleStep (x : Nat) : Nat := 2 * x % 2 ^ 23 + (x / 2 ^ 22 + x / 2 ^ 17) % 2

/-- The next n bits of the sequence as a number, first bit most significant, and the register after them. -/
def scrambleBits : Nat → Nat → Nat → Nat × Nat
  | 0, v, x => (v, x)
  | n + 1, v, x => scrambleBits n (2 * v + x / 2 ^ 22 % 2) (scrambleStep x)

/-- Gray mapping of two bits, the first one the more significant: 00, 01, 11, 10 are 0, 1, 2, 3 (R389). -/
def grayOf (pair : Nat) : Nat := if pair == 2 then 3 else if pair == 3 then 2 else pair
/-- The bit pair of a symbol value: the mapping is its own inverse (R389). -/
def grayBits (g : Nat) : Nat := grayOf g
/-- The level of a symbol value (R389). -/
def level (g : Nat) : Int := 2 * g - 3

/-- The bit pairs of a byte, bits (7,6) first (R423). -/
def bytePairs (b : Nat) : List Nat := [b / 64 % 4, b / 16 % 4, b / 4 % 4, b % 4]
/-- The byte of four bit pairs. -/
def pairsByte (p : List Nat) : Nat := p.foldl (fun v x => 4 * v + x) 0
/-- The symbol values of bytes on one lane (R389, R423). -/
def laneGray (b : List Nat) : List Nat := b.flatMap fun x => (bytePairs x).map grayOf

/-- Precoding: P(n) = (G(n) − P(n − 1)) mod 4 (R390). -/
def precodeSymbols : List Nat → Nat → List Nat
  | [], _ => []
  | g :: r, last => (g + 4 - last) % 4 :: precodeSymbols r ((g + 4 - last) % 4)
/-- The receiver's inverse: G(n) = (P(n) + P(n − 1)) mod 4 (R390). -/
def unprecode : List Nat → Nat → List Nat
  | [], _ => []
  | p :: r, last => (p + last) % 4 :: unprecode r p

/-! ### A lane's coder -/

/-- The bytes after scrambling (or, the same way, after descrambling), and the register after them (R424). -/
def scrambleBytes : List Nat → Nat → List Nat × Nat
  | [], x => ([], x)
  | b :: r, x =>
    let k := scrambleBits 8 0 x
    let t := scrambleBytes r k.2
    (nxor b k.1 :: t.1, t.2)

/-- The symbol values G that a lane carries for the bytes of a flit. -/
def LaneCoder.symbols (c : LaneCoder) (b : List Nat) : List Nat := laneGray (scrambleBytes b c.shift).1
/-- The coder after the bytes of a flit: the precoder's last symbol is kept whether or not precoding is on. -/
def LaneCoder.after (c : LaneCoder) (b : List Nat) : LaneCoder :=
  { shift := (scrambleBytes b c.shift).2, last := (precodeSymbols (c.symbols b) c.last).getLastD c.last }

/-! ### Striping (R423) -/

/-- Every w-th byte, beginning with the k-th. -/
def everyNth : Nat → Nat → List Byte → List Nat
  | _, _, [] => []
  | w, k, b :: r => if k == 0 then b.toNat :: everyNth w (w - 1) r else everyNth w (k - 1) r

/-- The bytes that go to link lane i when the lanes of the set `lanes` are in use: byte k goes to a_(k mod W) (R423). -/
def laneBytes (lanes i : Nat) (b : List Byte) : List Nat :=
  everyNth (popcount 4 lanes) ((bitsOf 4 lanes).idxOf i) b

/-- The bytes of a flit from the bytes of its lanes in ascending order (R423). -/
def unstripe : Nat → List (List Nat) → List Byte
  | 0, _ => []
  | n + 1, ls => ls.map (fun l => BitVec.ofNat 8 (l.headD 0)) ++ unstripe n (ls.map List.tail)

/-! ### The coders of a direction of a link -/

/-- The coders after the bytes of a flit on the lanes in use. -/
def codersAfter (lanes : Nat) (cs : KMap LaneCoder) (b : List Byte) : KMap LaneCoder :=
  (bitsOf 4 lanes).foldl (fun m i => KMap.mod m i fun c => c.after (laneBytes lanes i b)) cs

/-- The coders at an entry to ACTIVE (R390, R424). -/
def freshCoders : KMap LaneCoder := (List.range 4).map fun i => (i, { shift := scrambleSeed i })

/-- The coders when a link becomes or stays ACTIVE on a set of lanes: lanes that an ACTIVE link already used run on, the
others begin (DEDUCED, log entry 33: a lane that joins the set enters ACTIVE then). -/
def codersEnter (active : Bool) (old : Nat) (cs : KMap LaneCoder) : KMap LaneCoder :=
  (List.range 4).map fun i => (i, if active && tbit old i then KMap.get cs i else { shift := scrambleSeed i })

/-- The coders of a transmit direction after what it last put on its lanes. -/
def txCoders (t : LinkTx) : KMap LaneCoder := if t.raw then t.coders else codersAfter t.on t.coders t.wire

/-- The lanes that a link end transmits on: the new set from the slot after its own WIDTH_GO (R446). -/
def Link.txLanes (l : Link) : Nat := if l.tr.phase == 3 then l.tr.lanes else l.lanes
/-- The lanes that it receives on: the new set after the partner's WIDTH_GO (R446). -/
def Link.rxLanes (l : Link) : Nat := if l.tr.phase != 0 && l.tr.partnerGo then l.tr.lanes else l.lanes

/-- Put bytes on the lanes: the coders move past what went before; a block goes raw (R424, R425). -/
def putWire (lanes : Nat) (t : LinkTx) (raw : Bool) (b : List Byte) : LinkTx :=
  { t with coders := txCoders t, raw := raw, wire := b, on := lanes }

/-- The symbols that link lane i carries for what was last put on the lanes, with the precoding of its lane (R389, R390). -/
def wireSymbols (l : Link) (precode : Bool) (i : Nat) : List Nat :=
  let b := laneBytes l.tx.on i l.tx.wire
  let c := KMap.get l.tx.coders i
  if l.tx.raw then laneGray b
  else if precode then precodeSymbols (c.symbols b) c.last else c.symbols b

/-- The receive coders move past a flit (R424). -/
def heard (l : Link) (f : List Byte) : LinkRx := { l.rx with coders := codersAfter l.rxLanes l.rx.coders f }

/-- A block's bytes taken as a flit: what the receiver's precoding and descrambler make of them (R425). -/
def blockAsFlit (l : Link) (precode : Bool) (b : List Byte) : List Byte :=
  let lane := fun i =>
    let c := KMap.get l.rx.coders i
    let p := laneGray (laneBytes l.rxLanes i b)
    let g := if precode then unprecode p c.last else p
    let bytes := (List.range (g.length / 4)).map fun k => pairsByte (((g.drop (4 * k)).take 4).map grayBits)
    (scrambleBytes bytes c.shift).1
  unstripe (192 / popcount 4 l.rxLanes) ((bitsOf 4 l.rxLanes).map lane)

end Sys2Proof.Machine
end

