-- ==== Sys2Proof/Config.lean ====
section
/-!
DEFINITION. What one NK6400 fixes and this manual leaves open: free values, and the named standards (SHA-384, ECDSA)
whose results the manual uses without restating them. Each is an opaque constant, so no proof can see its value.
-/
namespace Sys2Proof.Config

/-- The n-th free value: what the manual leaves undefined or only says is measured (log entry 3). -/
opaque freeValue : Nat → Word

/-- SHA-384 of a byte string, as a number (log entry 12). -/
opaque sha384 : List Byte → Nat

/-- ECDSA P-384 verification: key hash, message digest, signature (log entry 12). -/
opaque ecdsaVerify : Nat → Nat → List Byte → Bool

/-- ECDSA P-384 signature by the device key over a byte string (log entry 12). -/
opaque ecdsaSign : List Byte → List Byte

/-- Of the two FP32 values that bracket an exact exponential, whether the unit answers the upper one (log entry 13). -/
opaque exp2RoundsUp : Nat → Bool

/-- Of two adjacent codebook entries of opposite values, given by their indices, whether RTZ writes the upper one; R194 names
whichever is nearer zero, and neither is (log entry 13). -/
opaque lutTie : Nat → Nat → Bool

/-- The directory set in which a slice holds a line; R126 gives the number of sets and no function (log entry 11). -/
opaque directorySet : Nat → Nat

/-- The lot, wafer, die and serial fuses (log entry 14). -/
opaque fuseLot : BitVec 32
opaque fuseWafer : BitVec 5
opaque fuseDieX : BitVec 8
opaque fuseDieY : BitVec 8
opaque fuseSerial : Word

/-- Digest of the public key in slot k of the key fuses (log entry 14). -/
opaque keyHash : Nat → Nat

/-- The 64-bit digest of a metadata update, whose function the manual does not give (log entry 15). -/
opaque mirrorDigest : MirrorItem → Word

/-- The board carries eight modules, so that PAIR_RETURN DEFAULT acts as RECLAIM (R492, R509). -/
opaque fullBoard : Bool

end Sys2Proof.Config
end

