-- ==== Sys2Proof/Machine/Ops.lean ====
section
/-!
DEFINITION. The operations that every block shares: free values, event sources (R531–R539), error logs (R380–R382),
where a pool byte lives (R21, R336) and reading and writing pool memory with its poison (R354, R355, R365–R367).
-/
namespace Sys2Proof.Machine
open Sys2Proof

/-! ### Access to the tables -/

/-- Event source `n` (R531); an untouched source holds its reset value, URGENT under R532. -/
def urgentAtReset (n : Nat) : Bool :=
  (n < 512 && (n % 16 == 13 || n % 16 == 14)) || (0x200 ≤ n && n < 0x300 && n % 4 == 3)
    || n == 0x317 || n == 0x31F || n == 0x323 || n == 0x324 || n == 0x326 || n == 0x328 || n == 0x329 || n == 0x32A
    || (0x340 ≤ n && n < 0x354 && (n % 4 == 2 || n % 4 == 3))

/-- Whether R532 names source `n`. -/
def sourceNamed (n : Nat) : Bool :=
  (n < 512 && n % 16 != 15) || (0x200 ≤ n && n < 0x326 && n != 0x326) || (0x326 ≤ n && n ≤ 0x32B)
    || (0x330 ≤ n && n < 0x338) || (0x340 ≤ n && n < 0x354) || (0x380 ≤ n && n < 0x400)

/-- Whether source `n` is owned by the Zenith core (R532, R533). -/
def ownedByCore (n : Nat) : Bool := 0x380 ≤ n && n < 0x400

/-- The reset value of source `n`. -/
def sourceAtReset (n : Nat) : Source := { urgent := urgentAtReset n }

def Hw.source (h : Hw) (n : Nat) : Source := KMap.getD h.evc.sources n (sourceAtReset n)
def Hw.setSource (h : Hw) (n : Nat) (x : Source) : Hw :=
  { h with evc := { h.evc with sources := KMap.setD h.evc.sources n x (sourceAtReset n) } }
def Hw.vector (h : Hw) (v : Nat) : EvVector := KMap.get h.evc.vectors v
def Hw.setVector (h : Hw) (v : Nat) (x : EvVector) : Hw := { h with evc := { h.evc with vectors := KMap.set h.evc.vectors v x } }
def Hw.log (h : Hw) (l : Nat) : ErrorLog := KMap.get h.logs l

/-- Service IDs for which this module is active (R485, R486); out of a pair, those that it kept when it left (R512). -/
def activeServices (h : Hw) : List Nat :=
  if h.pair.state == 0 then h.pair.kept
  else if h.pair.state == 4 then []
  else (if h.pair.role0 == 1 then [h.pair.service0] else []) ++ (if h.pair.role1 == 1 then [h.pair.service1] else [])

/-- Change the pair state. -/
def Hw.onPair (h : Hw) (f : Pair → Pair) : Hw := { h with pair := f h.pair }

/-- The module mirrors a service: it is in a pair and active for it, and the service has not gone SOLO (R493, R500, R508). -/
def mirrorsService (h : Hw) (service : Nat) : Bool :=
  h.pair.state != 0 && (activeServices h).contains service && !h.pair.alone.contains service
/-- It mirrors some service. -/
def mirrors (h : Hw) : Bool := (activeServices h).any (mirrorsService h)

/-- The service whose records carry what belongs to no one service. -/
def mirrorHead (h : Hw) : Nat := ((activeServices h).find? (mirrorsService h)).getD h.pair.service0

/-- Send a mirror record, with the digest of the item as this module holds it. -/
def emit (h : Hw) (service : Nat) (item : MirrorItem) : Hw :=
  if mirrorsService h service then
    h.onPair fun p => { p with
      seq := p.seq + 1
      outgoing := p.outgoing ++ [({ seq := p.seq, service := service, item := item }, Config.mirrorDigest item)] }
  else h

/-- Change an error log; its slots are mirrored (R493). -/
def Hw.setLog (h : Hw) (l : Nat) (x : ErrorLog) : Hw :=
  let h := { h with logs := KMap.set h.logs l x }
  if mirrors h then emit h (mirrorHead h) (.log l x) else h

def Hw.mailbox (h : Hw) (m : Nat) : Mailbox := KMap.get h.mbx m
def Hw.setMailbox (h : Hw) (m : Nat) (x : Mailbox) : Hw := { h with mbx := KMap.set h.mbx m x }
def Hw.link (h : Hw) (n : Nat) : Link := KMap.get h.links n
def Hw.setLink (h : Hw) (n : Nat) (x : Link) : Hw := { h with links := KMap.set h.links n x }
def Hw.lane (h : Hw) (n : Nat) : Lane := KMap.get h.lanes n
def Hw.setLane (h : Hw) (n : Nat) (x : Lane) : Hw := { h with lanes := KMap.set h.lanes n x }
def Hw.engine (h : Hw) (n : Nat) : Engine := KMap.get h.engines n
def Hw.setEngine (h : Hw) (n : Nat) (x : Engine) : Hw := { h with engines := KMap.set h.engines n x }
def Hw.slice (h : Hw) (n : Nat) : Slice := KMap.get h.mems.slices n
def Hw.setSlice (h : Hw) (n : Nat) (x : Slice) : Hw := { h with mems := { h.mems with slices := KMap.set h.mems.slices n x } }
def Hw.domain (h : Hw) (d : Nat) : ClockDomain := KMap.get h.clk.domains d
def Hw.setDomain (h : Hw) (d : Nat) (x : ClockDomain) : Hw := { h with clk := { h.clk with domains := KMap.set h.clk.domains d x } }
def Hw.pin (h : Hw) (p : Nat) : GpioPin := KMap.get h.gpio p
def Hw.setPin (h : Hw) (p : Nat) (x : GpioPin) : Hw := { h with gpio := KMap.set h.gpio p x }
def Slice.pc (x : Slice) (k : Nat) : PseudoChannel := KMap.get x.pcs k
def Slice.setPc (x : Slice) (k : Nat) (p : PseudoChannel) : Slice := { x with pcs := KMap.set x.pcs k p }

/-- Fold a change over the numbers below `n`, lowest first. -/
def forBelow (n : Nat) (f : Nat → Hw → Hw) (h : Hw) : Hw := (List.range n).foldl (fun acc k => f k acc) h

/-- Fold a change over a list of numbers. -/
def forAll (l : List Nat) (f : Nat → Hw → Hw) (h : Hw) : Hw := l.foldl (fun acc k => f k acc) h

/-! ### Free values -/

/-- The next free value, and the module with it taken (log entry 3). -/
def fresh (h : Hw) : Nat × Hw := ((Config.freeValue h.freeCount).toNat, { h with freeCount := h.freeCount + 1 })

/-- A free value of at most `w` bits. -/
def freshBits (w : Nat) (h : Hw) : Nat × Hw := let (v, h) := fresh h; (v % 2 ^ w, h)

/-! ### Event sources -/

/-- A source is pending while ENABLE is 1, COUNT is non-zero and it is not in service (R531); an unnamed one never. -/
def pendingSource (h : Hw) (n : Nat) : Bool :=
  let x := h.source n
  sourceNamed n && x.enable && x.count != 0 && x.inService.isNone

/-- The vector that serves source `n`: TARGET for a host source, 64 + TARGET[3:2] for one of the Zenith core (R533). -/
def vectorOf (n : Nat) (target : Nat) : Nat := if ownedByCore n then 64 + target / 4 % 4 else target

/-- TARGET is applied when the source is neither pending nor in service (R533). -/
def settleTarget (h : Hw) (n : Nat) : Hw :=
  let x := h.source n
  if pendingSource h n || x.inService.isSome then h else h.setSource n { x with target := x.targetNext }

/-- A new occurrence on source `n`: COUNT saturates at 255 and INFO is taken (R531); its vector may try again (R659). -/
def raise (h : Hw) (n info : Nat) : Hw :=
  let h := settleTarget h n
  let x := h.source n
  let h := h.setSource n { x with count := satInc 8 x.count, info := info % 2 ^ 32 }
  let v := vectorOf n x.target
  h.setVector v { h.vector v with attempted := false }

/-- The level of a level source: a change of ACTIVE from 0 to 1 is one occurrence (R531). -/
def setLevel (h : Hw) (n : Nat) (b : Bool) (info : Nat) : Hw :=
  let x := h.source n
  if x.active == b then h
  else
    let h := h.setSource n { x with active := b }
    if b then raise h n info else h

/-- Pending sources that target vector `v` (PENDING_SRC of R534), in ascending order. -/
def pendingOf (h : Hw) (v : Nat) : List Nat :=
  (h.evc.sources.map Prod.fst).filter (fun n => pendingSource h n && vectorOf n (h.source n).target == v)

/-! ### Error logs -/

/-- The event source of log `l` at severity `sev` (R541). -/
def logSource (l sev : Nat) : Nat :=
  if l < 96 then 16 * (l % 32) + 11 + sev
  else if l < 160 then 0x200 + 4 * (l - 96) + (if sev = 0 then 2 else 3)
  else 0x340 + 4 * (l - 160) + sev

/-- The logs whose FATAL slots hold source `logSource l 3` ACTIVE (R532, R541). -/
def logGroup (l : Nat) : List Nat := if l < 96 then [l % 32, 32 + l % 32, 64 + l % 32] else [l]

/-- SOURCE of an entry: the block instance (R382). -/
def logInstance (l : Nat) : Nat := if l < 96 then l % 32 else if l < 160 then l - 96 else 0

/-- ERR_FE of log `l`'s group is ACTIVE while any of its FATAL slots is VALID (R532). -/
def settleFatal (h : Hw) (l : Nat) : Hw :=
  if 96 ≤ l && l < 160 then h
  else setLevel h (logSource l 3) ((logGroup l).any (fun k => (h.log k).fatal.valid)) l

/-- Record an error in log `l` (R380, R382): severity, code, INFO, ADDR and DETAIL. -/
def logError (h : Hw) (l sev code info addr detail : Nat) : Hw :=
  let g := h.log l
  let e : LogSlot := { valid := true, sev := sev, code := code, source := logInstance l, info := info % 2 ^ 32,
                       addr := addr % 2 ^ 64, detail := detail % 2 ^ 64, time := h.time.now }
  let toFatal := sev == 3 && !g.fatal.valid
  let g' : ErrorLog :=
    { count := satInc 32 g.count
      overflow := g.overflow || g.latest.valid || (sev == 3 && g.fatal.valid)
      first := if g.first.valid then g.first else e
      latest := e
      fatal := if toFatal then e else g.fatal }
  let h := h.setLog l g'
  if sev == 3 then settleFatal h l else raise h (logSource l sev) l

/-- Record an error whose DETAIL the spec does not give, nor, where `none` stands, its INFO or its ADDR: they are free values
(R382, log entry 3). An entry without an address has ADDR 0. -/
def logOpen (h : Hw) (l sev code : Nat) (info addr : Option Nat) : Hw :=
  let (i, h) := match info with | some i => (i, h) | none => freshBits 32 h
  let (a, h) := match addr with | some a => (a, h) | none => freshBits 64 h
  let (d, h) := freshBits 64 h
  logError h l sev code i a d

/-- FAULT_N is asserted while any FATAL slot is VALID (R380, R662). -/
def faultN (h : Hw) : Bool := h.logs.any (fun p => p.2.fatal.valid)

/-! ### Where a pool byte lives -/

/-- The tile that owns pool offset `a` (R21). -/
def tileOf (a : Nat) : Nat := a / 4096 % 32
/-- Tile-local offset of pool offset `a` (R21). -/
def tileLocal (a : Nat) : Nat := a / 131072 * 4096 + a % 4096
/-- Local pseudo-channel of pool offset `a` (R336). -/
def pcOf (a : Nat) : Nat := tileLocal a / 256 % 16
/-- Offset within the pseudo-channel (R336). -/
def pcOffset (a : Nat) : Nat := tileLocal a / 4096 * 256 + tileLocal a % 256
/-- Row of pool offset `a` (R336). -/
def rowOf (a : Nat) : Nat := pcOffset a / 65536
/-- Bank of pool offset `a` (R336). -/
def bankOf (a : Nat) : Nat := nxor (pcOffset a / 1024 % 64) (pcOffset a / 65536 % 64)

/-- The words of one row of a bank of slice `t`, as pool word numbers, in column order (R21, R336). -/
def rowWords (t k bank row : Nat) : List Nat :=
  (List.range 128).map fun i =>
    let q := row * 65536 + nxor bank (row % 64) * 1024 + 8 * i
    let l := q / 256 * 4096 + k * 256 + q % 256
    (l / 4096 * 131072 + t * 4096 + l % 4096) / 8

/-- Size of the pool in bytes (R19). -/
def poolSize : Nat := 2 ^ 39

/-- Change a pseudo-channel. -/
def modPc (h : Hw) (t k : Nat) (f : PseudoChannel → PseudoChannel) : Hw :=
  let x := h.slice t
  h.setSlice t (x.setPc k (f (x.pc k)))

/-- Count one in an ECC count of R376. -/
def eccCount (p : PseudoChannel) (i : Nat) : PseudoChannel := { p with ecc := KMap.mod p.ecc i (satInc 32) }

/-! ### Queues of the pseudo-channels (R337) -/

/-- Put a request into the queue of its pseudo-channel; power-down ends (R346). A home write may use any of the 64 entries,
another request only the 48 that are not reserved; when it finds none it waits upstream. -/
def enqueue (h : Hw) (a : Nat) (r : McsReq) : Hw :=
  let t := tileOf a
  let k := pcOf a
  let x := h.slice t
  let p := x.pc k
  let free := if r.home then p.queue.length < 64 else (p.queue.filter (fun q => !q.home)).length < 48 && p.queue.length < 64
  if free then
    h.setSlice t (x.setPc k { p with queue := p.queue ++ [r], pd := false, queueHigh := Nat.max p.queueHigh (p.queue.length + 1) })
  else h.setSlice t { x with upstream := x.upstream ++ [(k, r)] }

/-- Whether word `w` is served from the hot entry of its pair (R356). -/
def isHot (h : Hw) (w : Nat) : Bool := (h.slice (tileOf (8 * w))).hot.contains (w / 2)

/-- The requests that an access to the words `ws` makes: one for each 256 bytes of a pseudo-channel, with a burst for each 32 bytes
that it touches (R336, R337); hot words need none (R356). -/
def enqueueWords (h : Hw) (write home : Bool) (sclass : Nat) (ws : List Nat) : Hw :=
  let cold := ws.filter (fun w => !isHot h w)
  ((cold.map (· / 32)).eraseDups).foldl (fun h b =>
    let mine := cold.filter (fun w => w / 32 == b)
    let a := 8 * mine.headD 0
    enqueue h a { write := write, home := home, sclass := sclass, bank := bankOf a, row := rowOf a,
                  bursts := ((mine.map (· / 4)).eraseDups).length }) h

/-- The words that `n` bytes at `a` touch. -/
def wordsOf (a n : Nat) : List Nat := (List.range ((a + n + 7) / 8 - a / 8)).map (a / 8 + ·)

/-! ### Pool memory -/

/-- One byte of pool memory; an unlisted byte reads 0 (R81, log entry 5). -/
def Memory.read (m : List Host.Cell) (a : Nat) : Byte := KMap.getD m a 0#8

/-- Write one byte; a byte of 0 is not listed, so equal memories are equal lists. -/
def Memory.write (m : List Host.Cell) (a : Nat) (b : Byte) : List Host.Cell := KMap.setD m a b 0#8

/-- Write consecutive bytes. -/
def Memory.writeBytes : List Host.Cell → Nat → List Byte → List Host.Cell
  | m, _, [] => m
  | m, a, b :: r => Memory.writeBytes (Memory.write m a b) (a + 1) r

/-- The canonical form of memory: rising addresses and no listed zero byte. -/
def Memory.wf (m : List Host.Cell) : Bool := KMap.wf m 0#8

/-- The pool as the last writes left it. -/
def Pool.granulePoisoned (p : Pool) (g : Nat) : Bool := KMap.getD p.granules g false
/-- Whether word `w` is poisoned. -/
def Pool.poisoned (p : Pool) (w : Nat) : Bool := KMap.getD p.poison w (p.granulePoisoned (w / 262144))
def Pool.setPoison (p : Pool) (w : Nat) (b : Bool) : Pool :=
  { p with poison := KMap.setD p.poison w b (p.granulePoisoned (w / 262144)) }
/-- Every byte from `a` to before `b` is zero and clean; `a` and `b` are granule boundaries (R81, R103). -/
def Pool.wipe (p : Pool) (a b : Nat) : Pool :=
  { mem := p.mem.filter (fun c => !(a ≤ c.1 && c.1 < b))
    poison := p.poison.filter (fun c => !(a ≤ 8 * c.1 && 8 * c.1 < b))
    granules := p.granules.filter (fun c => !(a ≤ c.1 * 2097152 && c.1 * 2097152 < b))
    errs := p.errs.filter (fun c => !(a ≤ 8 * c.1 && 8 * c.1 < b)) }
/-- Every word from granule `g`, for `n` granules, is poisoned (R495). -/
def Pool.poisonGranules (p : Pool) (g n : Nat) : Pool :=
  let p := p.wipe (g * 2097152) ((g + n) * 2097152)
  { p with granules := (List.range n).foldl (fun m i => KMap.ins m (g + i) true) p.granules }
/-- Copy `n` bytes, a multiple of 8, from `a` to `b`, poison included (R164); what is written has no stored-bit error. -/
def Pool.copy (p : Pool) (a b n : Nat) : Pool :=
  let cells := p.mem.filter (fun c => a ≤ c.1 && c.1 < a + n)
  let kept := p.mem.filter (fun c => !(b ≤ c.1 && c.1 < b + n))
  let p' := { p with mem := cells.foldl (fun m c => KMap.ins m (c.1 - a + b) c.2) kept
                     errs := p.errs.filter fun c => !(b ≤ 8 * c.1 && 8 * c.1 < b + n) }
  (List.range (n / 8)).foldl (fun q i => q.setPoison (b / 8 + i) (p.poisoned (a / 8 + i))) p'
/-- The stored bits of a word are as they were written. -/
def Pool.clearErr (p : Pool) (w : Nat) : Pool := { p with errs := KMap.erase p.errs w }
def Pool.writeBytes (p : Pool) (a : Nat) (bs : List Byte) : Pool := { p with mem := Memory.writeBytes p.mem a bs }
/-- Stored bytes, poison apart. -/
def Pool.bytes (p : Pool) (a n : Nat) : List Byte := (List.range n).map (fun i => Memory.read p.mem (a + i))

/-- Change the pool and leave the rest. -/
def State.onPool (s : State) (f : Pool → Pool) : State := { s with pool := f s.pool }

/-- The pieces of `bs` at `a`, one for each 64-bit word that they touch: word number, first byte in the word, bytes. -/
def wordPieces (a : Nat) (bs : List Byte) : List (Nat × Nat × List Byte) :=
  (List.range ((a + bs.length + 7) / 8 - a / 8)).map fun i =>
    let w := a / 8 + i
    let lo := Nat.max a (w * 8)
    let hi := Nat.min (a + bs.length) (w * 8 + 8)
    (w, lo - w * 8, (bs.drop (lo - a)).take (hi - lo))

/-! ### Regions (R79, R80) -/

def Hw.region (h : Hw) (id : Nat) : Region := KMap.get h.regions id
def Hw.setRegion (h : Hw) (id : Nat) (r : Region) : Hw := { h with regions := KMap.set h.regions id r }
/-- Granule of pool offset `a` (R79). -/
def granuleOf (a : Nat) : Nat := a / 2097152
/-- Granules that a region owns, copy-on-write reserve included (R150). -/
def Region.extent (r : Region) : Nat := r.granules + r.reserve
/-- Whether a region owns granule `g`. -/
def Region.owns (r : Region) (g : Nat) : Bool := r.state != 0 && r.base ≤ g && g < r.base + r.extent
/-- The region that holds granule `g`. -/
def regionAt (h : Hw) (g : Nat) : Option Nat := (List.find? (fun p : Nat × Region => p.2.owns g) h.regions).map Prod.fst

/-! ### Directory slices -/

def Hw.dir (h : Hw) (t : Nat) : DirSlice := KMap.get h.dirs t
def Hw.setDir (h : Hw) (t : Nat) (d : DirSlice) : Hw := { h with dirs := KMap.set h.dirs t d }
/-- Change a directory slice. -/
def Hw.modDir (h : Hw) (t : Nat) (f : DirSlice → DirSlice) : Hw := h.setDir t (f (h.dir t))
/-- Count one in a slice's counts (R136). -/
def dirCount (h : Hw) (t i : Nat) : Hw := h.modDir t fun d => { d with counts := KMap.mod d.counts i (satInc 32) }

/-! ### Contexts -/

def Hw.ctx (h : Hw) (c : Nat) : Context := KMap.get h.contexts c
def Hw.setCtx (h : Hw) (c : Nat) (x : Context) : Hw := { h with contexts := KMap.set h.contexts c x }
/-- Count one in a context's counts (R43). -/
def ctxCount (h : Hw) (c i : Nat) : Hw := h.setCtx c { h.ctx c with counts := KMap.mod (h.ctx c).counts i (satInc 32) }

/-! ### Whether the pool can be served -/

/-- Pool memory is open (R549, R351). -/
def poolOpen (h : Hw) : Bool := h.sys.memory == 1 || h.sys.memory == 2

/-- Pool offset `a` can be accessed now: the reference is present, the stacks are out of self-refresh, and its pseudo-channel does
not retrain (R347, R353, R584, R614). -/
def mcsServes (h : Hw) (a : Nat) : Bool :=
  !h.clk.loss && h.pwr.state == 0 && ((h.slice (tileOf a)).pc (pcOf a)).state != 4
/-- A write there can go now: no takeover holds writes back (R501 step 4). -/
def mcsStores (h : Hw) (a : Nat) : Bool := mcsServes h a && !h.pair.writeHold
/-- Whether each of the 256-byte blocks that `n` bytes at `a` touch can be accessed now. -/
def mcsServesAll (h : Hw) (a n : Nat) : Bool :=
  (List.range ((a + n + 255) / 256 - a / 256)).all fun i => mcsServes h ((a / 256 + i) * 256)

end Sys2Proof.Machine
end

