-- ==== Sys2Proof/Machine/MailboxOps.lean ====
section
/-!
DEFINITION. The mailbox service that every mailbox command shares: ringing (R518, R519), the order of commands of one
block (R14, R689), the layout of request and response bodies (R524), parts (R525) and the answer (R520, R526).
-/
namespace Sys2Proof.Machine
open Sys2Proof

/-! ### Statuses and reasons -/

/-- Code values of R263, which STATUS and completion records share. -/
def stOK : Nat := 0
def stFault : Nat := 1
def stPoison : Nat := 2
def stPoliced : Nat := 3
def stTimeout : Nat := 4
def stPartial : Nat := 5
def stPrecision : Nat := 6
def stAborted : Nat := 7
def stRetry : Nat := 8
def stConflict : Nat := 9
def stBusy : Nat := 10
def stDenied : Nat := 11

/-- REASON values of R526. -/
def rNone : Nat := 0
def rUnknown : Nat := 1
def rLength : Nat := 2
def rReserved : Nat := 3
def rRange : Nat := 4
def rState : Nat := 5
def rClassI : Nat := 6
def rNotReady : Nat := 7
def rResource : Nat := 8
def rRights : Nat := 9
def rPair : Nat := 10
def rRestart : Nat := 11

/-- An answer: STATUS, REASON, INDEX and the response body. -/
structure Reply where
  status : Nat := 0
  reason : Nat := 0
  index : Nat := 0xFFFFFFFF
  body : List Byte := []
deriving DecidableEq, Repr

def Reply.ok (body : List Byte := []) : Reply := { body := body }
def Reply.denied (reason : Nat) : Reply := { status := stDenied, reason := reason }
def Reply.busy (reason : Nat) : Reply := { status := stBusy, reason := reason }

/-! ### Bodies (R524) -/

/-- A parameter of a command: a field of `w` bits, a record of `n` bytes, or an array whose length an earlier parameter
counts (its position and the bytes of one entry). -/
inductive Param where
  | f (w : Nat)
  | blk (bytes : Nat)
  | arr (count entry : Nat)
deriving DecidableEq, Repr

/-- Bytes that a field of `w` bits takes: the smallest of 1, 2, 4 and 8 that holds it. -/
def fieldBytes (w : Nat) : Nat := if w ≤ 8 then 1 else if w ≤ 16 then 2 else if w ≤ 32 then 4 else 8

/-- Read the parameters of a body one after another: their values, the mask of the bits they take, and the end. -/
def readParams (body : Nat) : List Param → List Nat → Nat → Nat → List Nat × Nat × Nat
  | [], vals, mask, off => (vals, mask, off)
  | .f w :: r, vals, mask, off =>
    let o := alignUp (fieldBytes w) off
    readParams body r (vals ++ [fld body (8 * o) w]) (mask + (2 ^ w - 1) * 2 ^ (8 * o)) (o + fieldBytes w)
  | .blk n :: r, vals, mask, off =>
    let o := alignUp 8 off
    readParams body r (vals ++ [fld body (8 * o) (8 * n)]) (mask + (2 ^ (8 * n) - 1) * 2 ^ (8 * o)) (o + n)
  | .arr c e :: r, vals, mask, off =>
    let n := vals.getD c 0 * e
    let o := alignUp 8 off
    readParams body r (vals ++ [fld body (8 * o) (8 * n)]) (mask + (2 ^ (8 * n) - 1) * 2 ^ (8 * o)) (o + n)

/-- An item of a response: a field of a width, or bytes that start at the next 8-byte boundary. -/
inductive Item where
  | f (w v : Nat)
  | bytes (b : List Byte)
deriving DecidableEq, Repr

/-- Lay out the items of a response by the rule for parameters; the end is rounded up to 8 bytes. -/
def layItems : List Item → List Byte → List Byte
  | [], acc => acc ++ leBytes (alignUp 8 acc.length - acc.length) 0
  | .f w v :: r, acc =>
    let o := alignUp (fieldBytes w) acc.length
    layItems r (acc ++ leBytes (o - acc.length) 0 ++ leBytes (fieldBytes w) (v % 2 ^ w))
  | .bytes b :: r, acc =>
    let o := alignUp 8 acc.length
    layItems r (acc ++ leBytes (o - acc.length) 0 ++ b)

/-- The response body that a list of items gives. -/
def items (l : List Item) : List Byte := layItems l []

/-- A record of `n` bytes from its fields. -/
def recordBytes (n : Nat) (fields : List (Nat × Nat)) : List Byte := leBytes n (pack fields)

/-! ### Ringing (R518) -/

/-- What a command sees of its request. -/
structure Req where
  /-- the mailbox -/
  m : Nat
  /-- node ID that rang; none = PCI Express -/
  ringer : Option Nat
  /-- PART -/
  part : Nat
  /-- parameter values in the order of the command's table -/
  vals : List Nat
deriving DecidableEq, Repr

/-- Parameter `i`. -/
def Req.p (q : Req) (i : Nat) : Nat := q.vals.getD i 0

def Mailbox.opcode (x : Mailbox) : Nat := fld x.cmd 0 16
def Mailbox.len (x : Mailbox) : Nat := fld x.cmd 16 12
def Mailbox.ev (x : Mailbox) : Bool := tbit x.cmd 28
def Mailbox.part (x : Mailbox) : Nat := fld x.cmd 32 8
/-- Reserved bits of MBX_CMD (R516). -/
def Mailbox.reserved (x : Mailbox) : Nat := fld x.cmd 29 3 + fld x.cmd 40 24
/-- The first LEN bytes of the request body as one little-endian number. -/
def Mailbox.body (x : Mailbox) : Nat :=
  (List.range (x.len / 8)).foldr (fun i acc => (KMap.get x.req i).toNat + 2 ^ 64 * acc) 0

/-- Response words from bytes. -/
def bodyWords (b : List Byte) : List (Nat × Word) :=
  (List.range ((b.length + 7) / 8)).map fun i => (i, BitVec.ofNat 64 (leNat ((b.drop (8 * i)).take 8)))

/-- Write words over a response body. -/
def putWords (m : KMap Word) (ws : List (Nat × Word)) : KMap Word := ws.foldl (fun m p => KMap.set m p.1 p.2) m

/-- Gokomos answers mailbox `m` (R520): body and MBX_DETAIL, then MBX_STAT, then SEQ, then MBX_DONE if EV is set. The part
asked for is the one returned (R525); ELAPSED_US is a measured time, so it is free (log entry 16). -/
def answer (h : Hw) (m : Nat) (r : Reply) : Hw :=
  let x := h.mailbox m
  let (us, h) := freshBits 32 h
  let parts := Nat.max 1 ((r.body.length + 2015) / 2016)
  let body := (r.body.drop (2016 * x.part)).take 2016
  let seq := (x.seq + 1) % 2 ^ 32
  let h := h.setMailbox m { x with
    rsp := putWords x.rsp (bodyWords body), index := r.index % 2 ^ 32, elapsed := us,
    state := 2, status := r.status, reason := r.reason, rlen := body.length, parts := parts, seq := seq, work := none }
  let h := { h with mbxOrder := h.mbxOrder.filter (fun k => k != m) }
  if x.ev then raise h (0x300 + m) seq else h

/-- The opcodes of R530: group and number of commands in the group. -/
def opcodeKnown (op : Nat) : Bool :=
  let n := [0, 2, 6, 10, 4, 6, 3, 7, 7, 6, 6, 12, 5, 7, 3, 3, 3].getD (op / 256) 0
  1 ≤ op % 256 && op % 256 ≤ n

/-- A write of MBX_RING with RING 1 (R518, R519): accepted while IDLE or DONE, else ignored and counted. In BOOT_FAILED rings
are ignored (R559). An OPCODE that is not in R530 is answered at once, for no command row serves it (log entry 7). -/
def ring (h : Hw) (who : Requester) (m : Nat) : Hw :=
  let x := h.mailbox m
  if h.sys.phase != 1 then h
  else if x.state == 1 then h.setMailbox m { x with ignored := satInc 16 x.ignored }
  else
    let h := h.setMailbox m { x with
      state := 1, rtag := x.tag, work := none
      ringer := match who with | .pcie => 0 | .fabric n => n
      pcie := match who with | .pcie => true | .fabric _ => false }
    let h := { h with mbxOrder := h.mbxOrder ++ [m] }
    let h := raise h (0x380 + m) 0
    if opcodeKnown x.opcode then h else answer h m (Reply.denied rUnknown)

/-! ### Order of commands (R14, R689) -/

/-- The blocks that a command touches, as bits: 0 regions and agents, 1 snapshots, 2 directory, 3 contexts, 4 queues,
5 collective sequencer, 6 memory, 7 lanes and optics, 8 links, 9 router and time, 10 pair, 11 self-test, repair and
firmware, 12 clocks, 13 power, 14 GPIO. MBX.* and XLT.INVALIDATE touch none. -/
def blocksOf (op : Nat) : List Nat :=
  match op / 256 with
  | 2 => if op == 0x206 then [] else if op == 0x203 then [3, 4, 5] else [3]
  | 3 =>
    if op == 0x301 || op == 0x303 then [0, 1]
    else if op == 0x302 || op == 0x304 || op == 0x305 || op == 0x306 || op == 0x309 then [0, 1, 2]
    else if op == 0x307 || op == 0x30A then [0, 2]
    else [0]
  | 4 => [2]
  | 5 => [1]
  | 6 => [4]
  | 7 => [5]
  | 8 => [6]
  | 9 => [7]
  | 10 => [8]
  | 11 => [9]
  | 12 => [10]
  | 13 => [11]
  | 14 => [12]
  | 15 => if op == 0xF01 then [12, 13] else [13]
  | 16 => [14]
  | _ => []

/-- Whether an earlier accepted request that is not answered shares a block with mailbox `m`'s (R14, R689). -/
def heldByOrder (h : Hw) (m : Nat) : Bool :=
  let mine := blocksOf (h.mailbox m).opcode
  (h.mbxOrder.takeWhile (fun k => k != m)).any fun k => (blocksOf (h.mailbox k).opcode).any (fun b => mine.contains b)

/-- Whether the row of opcode `op` can run for mailbox `m` now: the request stands, is not begun, and nothing of R14 holds it
(log entry 1 says what happens otherwise). -/
def mayRun (h : Hw) (m op : Nat) : Bool :=
  let x := h.mailbox m
  h.sys.phase == 1 && x.state == 1 && x.opcode == op && x.work.isNone && h.mbxOrder.contains m && !heldByOrder h m

/-- The checks that Gokomos makes of every request before the command's own: LENGTH, PART, RESERVED (R524, R525, R8) and the
debug unlock that is clearing (R645). `query` marks a command whose response may have several parts, which are checked afterwards. -/
def checkRequest (h : Hw) (m : Nat) (params : List Param) (query : Bool) : Option Reply × List Nat :=
  let x := h.mailbox m
  let body := x.body
  let (vals, mask, stop) := readParams body params [] 0 0
  if h.tap.unlock == 1 && x.opcode != 0x101 then (some (Reply.busy rState), vals)
  else if x.len != alignUp 8 stop || 2016 < x.len then (some (Reply.denied rLength), vals)
  else if !query && x.part != 0 then (some (Reply.denied rRange), vals)
  else if Nat.land body mask != body || x.reserved != 0 then (some (Reply.denied rReserved), vals)
  else (none, vals)

/-- Run the command of opcode `op` for mailbox `m`: the shared checks, then the command's own meaning, which answers now
(`some`) or leaves its work to a later row (`none`). A query's PART beyond its last part is refused (R525). -/
def runCommand (s : State) (m op : Nat) (params : List Param) (query : Bool)
    (body : Req → State → State × Option Reply) : State :=
  if mayRun s.hw m op then
    let x := s.hw.mailbox m
    match checkRequest s.hw m params query with
    | (some r, _) => s.onHw (fun h => answer h m r)
    | (none, vals) =>
      let (s, r) := body { m := m, ringer := if x.pcie then none else some x.ringer, part := x.part, vals := vals } s
      match r with
      | none => s
      | some r =>
        if query && x.part != 0 && (r.body.length + 2015) / 2016 ≤ x.part then
          s.onHw (fun h => answer h m (Reply.denied rRange))
        else s.onHw (fun h => answer h m r)
  else s

/-- A command that reads and changes the module but not pool memory. -/
def runHw (s : State) (m op : Nat) (params : List Param) (query : Bool) (body : Req → Hw → Hw × Option Reply) : State :=
  runCommand s m op params query fun q s => let (h, r) := body q s.hw; ({ s with hw := h }, r)

/-- A command whose table answers BUSY for an object that is in use before it refuses a reserved field (R40, R237, R301, R412, R511). -/
def busyFirst (s : State) (m op : Nat) (params : List Param) (why : Nat) (taken : List Nat → Hw → Bool) (body : Req → Hw → Hw × Option Reply) : State :=
  match checkRequest s.hw m params false with
  | (some r, vals) =>
    if mayRun s.hw m op && r == Reply.denied rReserved && taken vals s.hw then s.onHw (fun h => answer h m (Reply.busy why))
    else runHw s m op params false body
  | _ => runHw s m op params false body

/-- Record that mailbox `m`'s command goes on, with what it waits for and keeps. -/
def setWork (h : Hw) (m op : Nat) (waits args : List Nat) : Hw :=
  h.setMailbox m { h.mailbox m with work := some { opcode := op, waits := waits, args := args } }

/-- The work of opcode `op` under way in mailbox `m`. -/
def workOf (h : Hw) (m op : Nat) : Option Work :=
  match (h.mailbox m).work with
  | some w => if w.opcode == op then some w else none
  | none => none

/-- The mailboxes with work of opcode `op`. -/
def workers (h : Hw) (op : Nat) : List Nat := (List.range 16).filter (fun m => (workOf h m op).isSome)

end Sys2Proof.Machine
end

