-- ==== Sys2Proof/Machine/RouterOps.lean ====
section
/-!
DEFINITION. Packets and the router's shared operations: the header of R427, the opcodes of R428, malformed packets (R430),
choosing an egress port (R454, R456, R458, R459), throttling of the module's own packets (R469), and sending.
-/
namespace Sys2Proof.Machine
open Sys2Proof

/-! ### Packets -/

/-- The 16 header bytes of a packet (R427). -/
def Packet.header (p : Packet) : List Byte :=
  leBytes 16 (pack [(8, p.opcode), (11, p.len), (3, p.vc), (2, p.sclass), (1, b2n p.fence), (1, b2n p.repoch), (6, p.rsv % 64),
    (12, p.dst), (12, p.src), (8, p.ttl), (16, p.tid), (48, p.rsv / 64)])

/-- The bytes of a packet as they travel. -/
def Packet.bytes (p : Packet) : List Byte := Packet.header p ++ p.data

/-- A packet from its bytes (R427). -/
def Packet.ofBytes (b : List Byte) : Packet :=
  let h := leNat (b.take 16)
  { opcode := fld h 0 8, len := fld h 8 11, vc := fld h 19 3, sclass := fld h 22 2, fence := tbit h 24, repoch := tbit h 25,
    rsv := fld h 26 6 + 64 * fld h 80 48, dst := fld h 32 12, src := fld h 44 12, ttl := fld h 56 8, tid := fld h 64 16,
    data := b.drop 16 }

/-- A packet with the given fields; its data is padded to whole words (R427). -/
def mkPacket (opcode vc sclass dst src tid : Nat) (data : List Byte) : Packet :=
  let n := (data.length + 3) / 4
  { opcode := opcode, len := 4 + n, vc := vc, sclass := sclass, dst := dst, src := src, tid := tid,
    data := data ++ leBytes (4 * n - data.length) 0 }

/-- Length on the link in bytes. -/
def Packet.size (p : Packet) : Nat := 4 * p.len

/-- The 16-byte control part as a number. -/
def Packet.ctl (p : Packet) : Nat := leNat (p.data.take 16)
/-- Field of the control part. -/
def Packet.cf (p : Packet) (lo len : Nat) : Nat := fld (Packet.ctl p) lo len
/-- ADDR, bits [59:0] of the control part of coherence, BULK and control-window messages (R117, R429). -/
def Packet.addr (p : Packet) : Nat := Packet.cf p 0 60
/-- The bytes after the control part. -/
def Packet.body (p : Packet) : List Byte := p.data.drop 16

/-- The VC of an opcode (R118, R312, R428); CW_WR travels in MGT or BULK, and 8 stands for an opcode that is not used. -/
def opcodeVc (op : Nat) : Nat :=
  if 0x01 ≤ op && op ≤ 0x08 then 0
  else if 0x10 ≤ op && op ≤ 0x15 then 1
  else if 0x20 ≤ op && op ≤ 0x2A then 2
  else if 0x30 ≤ op && op ≤ 0x37 then 3
  else if op == 0x40 || op == 0x41 then 4
  else if op == 0x42 || op == 0x62 then 3
  else if op == 0x43 || op == 0x63 || op == 0x65 || op == 0x53 then 2
  else if 0x50 ≤ op && op ≤ 0x52 then 5
  else if op == 0x60 || op == 0x61 || op == 0x64 then 6
  else if 0x70 ≤ op && op ≤ 0x73 then 7
  else 8

/-- The pair epoch of a service, 0 when the module is in no pair (R117, R488). -/
def pepochOf (h : Hw) (service : Nat) : Nat :=
  if h.pair.state == 0 then 0
  else if service == h.pair.service0 then h.pair.pepoch0
  else if service == h.pair.service1 then h.pair.pepoch1 else 0

/-- The control part of a coherence message. -/
def cohControl (addr peer htid pepoch : Nat) (poison resv : Bool) (state : Nat) : List Byte :=
  leBytes 16 (pack [(60, addr), (4, 0), (12, peer), (4, 0), (16, htid), (8, pepoch), (1, b2n poison), (1, 0), (2, state),
    (3, 0), (1, b2n resv), (16, 0)])

/-- Largest packet of each VC in bytes (R430). -/
def maxPacket (vc : Nat) : Nat := [176, 32, 32, 4256, 4256, 4256, 64, 64].getD vc 0

/-- Receive-buffer credits of each VC of a link port (R430, R440). -/
def bufferCredits (vc : Nat) : Nat := [64, 32, 32, 256, 256, 256, 16, 16].getD vc 0

/-- Malformed under R430; a control-window access in another VC is not, for R24 answers it, and its length is held to the MGT limit there. -/
def malformed (p : Packet) : Bool :=
  (if p.opcode == 0x60 || p.opcode == 0x61 then Nat.max (maxPacket p.vc) (maxPacket 6) else maxPacket p.vc) < Packet.size p || p.len < 4 || p.data.length != Packet.size p - 16 || opcodeVc p.opcode == 8
    || (opcodeVc p.opcode != p.vc && p.opcode != 0x60 && p.opcode != 0x61) || p.rsv != 0

/-- A coherence message in RSP or DAT that breaks a rule of its fields (R687). -/
def badAnswer (p : Packet) : Bool :=
  p.data.length != (if 0x30 ≤ p.opcode then 144 else 16) || Packet.cf p 60 4 != 0 || Packet.cf p 76 4 != 0 || Packet.cf p 105 1 != 0 || (Packet.addr p) % 128 != 0

/-! ### Node IDs -/

/-- Service IDs for which this module is standby (R486). -/
def standbyServices (h : Hw) : List Nat :=
  if h.pair.state == 0 || h.pair.state == 4 then []
  else (if h.pair.role0 == 2 then [h.pair.service0] else []) ++ (if h.pair.role1 == 2 then [h.pair.service1] else [])
/-- Packets for a node ID are held: the module is standby for it (R504), or a switch of it is under way (R510). -/
def heldService (h : Hw) (n : Nat) : Bool :=
  (standbyServices h).contains n || (match h.pair.moving with | some (v, _) => v == n | none => false)

/-- Whether a packet for node `n` is decoded by this module (R19, R486). -/
def isOwn (h : Hw) (n : Nat) : Bool := n == h.sys.moduleId || (activeServices h).contains n

/-- Whether node `n`'s pool memory is this module's: its own ID when it is in no pair, else a service for which it is active. -/
def ownsPool (h : Hw) (n : Nat) : Bool :=
  (h.pair.state == 0 && n == h.sys.moduleId) || (activeServices h).contains n

/-- The node ID as which the module speaks for an object of a service (R487). -/
def speaksAs (h : Hw) (service : Nat) : Nat := if service == 0 then h.sys.moduleId else service

/-- Node ID of an FPA (R18). -/
def fpaNode (a : Nat) : Nat := a / 2 ^ 48 % 4096
/-- Node-local offset of an FPA (R18). -/
def fpaOffset (a : Nat) : Nat := a % 2 ^ 48

/-- Whether an FPA lies in this module's pool memory (R18, R19, R487). -/
def inPool (h : Hw) (a : Nat) : Bool := ownsPool h (fpaNode a) && fpaOffset a < poolSize && a < 2 ^ 60

/-- The same for an FPA that belongs to an object of a service: in a pair it carries that service's ID (R487). -/
def inPoolFor (h : Hw) (service a : Nat) : Bool := inPool h a && (h.pair.state == 0 || fpaNode a == service)

/-- Whether an answer's address lies in a COHERENT region; elsewhere no transaction is open and nothing is counted (R686). -/
def coherentAddr (h : Hw) (p : Packet) : Bool :=
  inPool h (Packet.addr p) && fpaNode (Packet.addr p) == p.dst &&
    (match regionAt h (granuleOf (fpaOffset (Packet.addr p))) with | some g => (h.region g).kind == 0 | none => false)

/-- An RSP or DAT message that nothing awaits is discarded, and counted where lines are tracked (R123, R686). -/
def late (h : Hw) (p : Packet) : Hw := if coherentAddr h p then dirCount h (tileOf (fpaOffset (Packet.addr p))) 8 else h

/-! ### Choosing an egress port -/

/-- Mirror links of the pair, bit n for BLn (R492, R663). -/
def mirrorLinks (h : Hw) : Nat := if h.pair.state == 0 then 0 else h.pair.links

/-- A candidate is live while its link is ACTIVE and is no mirror link (R454, R492). -/
def liveLink (h : Hw) (n : Nat) : Bool := (h.link n).state == 3 && !tbit (mirrorLinks h) n

/-- Valid candidates of a routing-table entry in index order (R453). -/
def candidates (e : Nat) : List Nat := ((List.range 4).filter (fun i => tbit e (8 * i + 6))).map (fun i => fld e (8 * i) 6)

/-- The hash of R454. -/
def spreadHash (p : Packet) : Nat :=
  let t := if p.vc == 0 || p.vc == 1 || p.vc == 4 || p.vc == 6 then p.tid else 0
  nxor (nxor (p.src * 2654) (p.dst * 1453)) (t * 3079) % 4096

/-- The entry for a packet in table A (0) or B (1). -/
def routeEntry (h : Hw) (table dst : Nat) : Nat :=
  if table == 0 then KMap.get h.router.tableA dst else KMap.get h.router.tableB dst

/-- Where R454 sends a packet: a live port, a port whose link is in training where it waits, or nowhere. -/
inductive Choice where
  | port (n : Nat)
  | wait (n : Nat)
  | none
deriving DecidableEq, Repr

/-- Choose by the entry of the named table (R454). -/
def choose (h : Hw) (table : Nat) (p : Packet) : Choice :=
  let e := routeEntry h table p.dst
  let cs := candidates e
  let live := cs.filter (liveLink h)
  let waits : Choice :=
    match cs.filter (fun n => ((h.link n).state == 4 || (h.link n).state == 5) && !tbit (mirrorLinks h) n) with
    | n :: _ => .wait n
    | [] => .none
  if e / 2 ^ 32 % 4 == 1 then
    match live with
    | n :: _ => .port n
    | [] => waits
  else if live.length == 0 then waits
  else .port (live.getD (spreadHash p % live.length) 0)

/-- Count one in the router's counts (R484). -/
def routerCount (h : Hw) (i : Nat) : Hw := { h with router := { h.router with counts := KMap.mod h.router.counts i (satInc 32) } }

/-- Whether two packets are of one (SRC, DST, VC) (R459). -/
def sameFlow (a b : Packet) : Bool := a.src == b.src && a.dst == b.dst && a.vc == b.vc

/-- Put a packet at the end of the egress queue of a port. -/
def queueAt (h : Hw) (port : Nat) (salvaged : Bool) (p : Packet) : Hw :=
  { h with router := { h.router with egress := h.router.egress ++ [{ port := port, packet := p, salvaged := salvaged }] } }

/-- Bytes in the salvage store. -/
def salvageBytes (h : Hw) : Nat := (h.router.salvage.map Packet.size).sum

/-- Put a packet into the salvage store, or discard it when it would overflow 1 MiB (R459, R484). -/
def storeSalvage (h : Hw) (p : Packet) : Hw :=
  if salvageBytes h + Packet.size p ≤ 2 ^ 20 then
    { h with router := { h.router with salvage := h.router.salvage ++ [p] } }
  else
    let h := routerCount h 2
    logOpen h 160 0 0x53 none none

/-- Route a packet by a table (R454, R459): behind a salvaged packet of its flow if there is one, else to the port chosen; a
packet without a route is discarded, counted and reported. -/
def routeBy (h : Hw) (table : Nat) (p : Packet) : Hw :=
  if h.router.salvage.any (sameFlow p) then storeSalvage h p
  else
    match h.router.egress.find? (fun q => q.salvaged && sameFlow p q.packet) with
    | some q => queueAt h q.port false p
    | none =>
      match choose h table p with
      | .port n => queueAt h n false p
      | .wait n => queueAt h n false p
      | .none => raise (routerCount h 0) 0x315 p.dst

/-- Route a salvaged packet (R458): to a live candidate, else into the salvage store, which also takes what must stay behind a packet
in it (R459); a TIME packet is discarded. -/
def routeSalvaged (h : Hw) (p : Packet) : Hw :=
  if p.vc == 7 then h
  else if h.router.salvage.any (sameFlow p) then storeSalvage h p
  else
    match choose h (if p.repoch then 1 else 0) p with
    | .port n => queueAt h n true p
    | _ => storeSalvage h p

/-! ### Sending -/

/-- Bytes queued at an egress (port, VC, class). -/
def queueBytes (h : Hw) (port vc sclass : Nat) : Nat :=
  ((h.router.egress.filter (fun q => q.port == port && q.packet.vc == vc && q.packet.sclass == sclass)).map
    (fun q => Packet.size q.packet)).sum

/-- Number of an egress queue. -/
def queueId (port vc sclass : Nat) : Nat := (port * 8 + vc) * 4 + sclass

/-- Put one of the module's own packets into its egress queue unless R469 stops it: in THROTTLE mode injection toward a queue
that holds THR_HIGH bytes or more stops, and packets wait until it has fallen to THR_LOW. -/
def inject (h : Hw) (port : Nat) (p : Packet) : Hw :=
  let id := queueId port p.vc p.sclass
  let throttle := !tbit h.router.modes p.sclass && p.vc != 7
  let stopped := h.router.stopped.contains id
  if throttle && (stopped || h.router.thrHigh ≤ queueBytes h port p.vc p.sclass) then
    let h := if stopped then h else routerCount { h with router := { h.router with stopped := h.router.stopped ++ [id] } } 4
    { h with router := { h.router with throttled := h.router.throttled ++ [{ port := port, packet := p }] } }
  else queueAt h port false p

/-- The port of the block that a packet for this module goes to (R452, R454): the tile that owns the address, or whose request
an answer's TID names (log entry 8), the collective sequencer, or the management port. -/
def destPort (p : Packet) : Nat :=
  if (1 ≤ p.opcode && p.opcode ≤ 8) || p.opcode == 0x40 || p.opcode == 0x41 || (0x26 ≤ p.opcode && p.opcode ≤ 0x2A)
      || (0x33 ≤ p.opcode && p.opcode ≤ 0x35) || p.opcode == 0x37 then 64 + tileOf (fpaOffset (Packet.addr p))
  else if p.opcode == 0x42 || p.opcode == 0x43 || p.opcode == 0x36 || p.opcode == 0x21 || p.opcode == 0x25 then 64 + p.tid % 32
  else if 0x50 ≤ p.opcode && p.opcode ≤ 0x53 then 97
  else 96

/-- Route a packet that this module originates, by the active table (R454, R456, R459, R469). -/
def originate (h : Hw) (p : Packet) : Hw :=
  if h.router.salvage.any (sameFlow p) then storeSalvage h p
  else
    match h.router.egress.find? (fun q => q.salvaged && sameFlow p q.packet) with
    | some q => queueAt h q.port false p
    | none =>
      match choose h h.router.epoch p with
      | .port n => inject h n p
      | .wait n => inject h n p
      | .none => raise (routerCount h 0) 0x315 p.dst

/-- Send a packet that this module originates (R455, R456): TTL_INIT, the active epoch; to one of its own node IDs it goes to
the block that serves it, without crossing a link (log entry 8). -/
def send (h : Hw) (p : Packet) : Hw :=
  let p := { p with ttl := h.router.ttlInit, repoch := h.router.epoch == 1 }
  if isOwn h p.dst then queueAt h (destPort p) false p else originate h p

/-- Injection toward an egress queue resumes once it has fallen to THR_LOW, or its class is PLANNED (R468, R469): the packets that
were held back are routed and injected, oldest first. -/
def resumeQueue (h : Hw) (id : Nat) : Hw :=
  let (port, vc, c) := (id / 32, id / 4 % 8, id % 4)
  if h.router.stopped.contains id && (tbit h.router.modes c || queueBytes h port vc c ≤ h.router.thrLow) then
    let mine := fun (q : Queued) => q.port == port && q.packet.vc == vc && q.packet.sclass == c
    let go := h.router.throttled.filter mine
    let h := { h with router := { h.router with
      stopped := h.router.stopped.filter (fun x => x != id), throttled := h.router.throttled.filter (fun q => !mine q) } }
    go.foldl (fun h q => originate h { q.packet with repoch := h.router.epoch == 1 }) h
  else h
/-- Every queue whose injection may resume. -/
def resumeQueues (h : Hw) : Hw := forAll h.router.stopped (fun id h => resumeQueue h id) h

/-- Send a packet out of a named link port (fabric time messages, R476). -/
def sendOn (h : Hw) (port : Nat) (p : Packet) : Hw := queueAt h port false { p with repoch := h.router.epoch == 1 }

def Hw.qos (h : Hw) (port : Nat) : PortQos := KMap.get h.router.qos port
def Hw.setQos (h : Hw) (port : Nat) (q : PortQos) : Hw := { h with router := { h.router with qos := KMap.set h.router.qos port q } }
/-- When every queue of a port is empty the tags return to 0 and latched weights apply (R11, R465). -/
def portEmptied (h : Hw) (port : Nat) : Hw :=
  if h.router.egress.any (fun x => x.port == port) then h
  else h.setQos port { h.qos port with v := 0, f := [], weights := (h.qos port).weightsNext }

/-- A transaction ID for a request of tile `t`: its low five bits name the tile (log entry 8). -/
def newTid (h : Hw) (t : Nat) : Nat × Hw :=
  (h.router.nextTid % 2048 * 32 + t, { h with router := { h.router with nextTid := (h.router.nextTid + 1) % 2048 } })

/-- Take a packet out of the inbox, if it stands there. -/
def takeInbox (h : Hw) (p : Packet) : Hw :=
  { h with router := { h.router with inbox := match h.router.inbox.span (fun a => a.packet != p) with
      | (l, _ :: r) => l ++ r
      | (l, []) => l } }

/-- Leave a packet in the inbox, where it waits to be served. -/
def waitInbox (h : Hw) (p : Packet) : Hw :=
  if h.router.inbox.any (fun a => a.packet == p) then h
  else { h with router := { h.router with inbox := h.router.inbox ++ [{ port := destPort p, packet := p }] } }

/-- Log UE 0x50, malformed packet, in the router's log (R430, R687). -/
def logMalformed (h : Hw) : Hw := logOpen h 160 2 0x50 none none

end Sys2Proof.Machine
end

