-- ==== Sys2Proof/Machine/LinkOps.lean ====
section
/-!
DEFINITION. What a link end does: SYS_STATE as the links and the bring-up make it (R548, R549), entering the states of R442,
going down with salvage (R448, R449), sending flits, CTRL commands and replays (R432, R436, R438, R446), and receiving
flits (R433, R434, R440).
-/
namespace Sys2Proof.Machine
open Sys2Proof

/-! ### SYS_STATE -/

/-- LINKS of SYS_STATE (R549): 0 OFF, 1 DAWN, 2 FULL. -/
def linksLevel (h : Hw) : Nat :=
  let up := (h.links.map Prod.snd).filter (fun l => l.state == 3)
  if up.isEmpty then 0 else if up.any (fun l => l.rate == 3) then 1 else 2

/-- Bits [31:0] of SYS_STATE (R548). -/
def sysStateLow (h : Hw) : Nat :=
  pack [(4, h.sys.phase), (2, h.sys.memory), (2, linksLevel h), (2, h.sys.compute), (2, h.sys.reduce), (1, b2n h.sys.trial),
    (1, b2n h.sys.debug), (2, 0), (8, h.sys.bistFails)]

/-- Source 0x310 is raised each time LINKS changes to FULL (R549). -/
def settleLinks (before : Nat) (h : Hw) : Hw :=
  if before != 2 && linksLevel h == 2 then raise h 0x310 (sysStateLow h) else h

/-- Change a link, and report LINKS when it becomes FULL. -/
def modLink (h : Hw) (n : Nat) (f : Link → Link) : Hw := settleLinks (linksLevel h) (h.setLink n (f (h.link n)))

/-- Count one in a link's counts (R451). -/
def Link.count (l : Link) (i : Nat) : Link := { l with counts := KMap.mod l.counts i (satInc 32) }

/-! ### Lane sets (R446) -/

/-- Lanes in a set. -/
def laneCount (s : Nat) : Nat := popcount 4 s

/-- The permitted lane sets, widest first, {0, 1} before {2, 3}, then the lowest lane (R446, R447). -/
def permittedSets : List Nat := [15, 3, 12, 1, 2, 4, 8]

/-- Whether one lane set lies within another. -/
def laneSubset (a b : Nat) : Bool := Nat.land a b == a

/-- The widest permitted set within `lanes`. -/
def widestSet (lanes widthMax : Nat) : Option Nat :=
  permittedSets.find? (fun s => laneSubset s lanes && laneCount s ≤ widthMax)

/-- Link lanes of link `n` that are DEGRADED (R395). -/
def degradedLanes (h : Hw) (n : Nat) : Nat := packBits ((List.range 4).map fun i => (h.lane (4 * n + i)).degraded)

/-- Lanes of an intended width, from lane 0. -/
def firstLanes (w : Nat) : Nat := if w == 4 then 15 else if w == 2 then 3 else 1
/-- The lanes that rate training trains: the width that both ends' WIDTH_MAX allow (R442, R443). -/
def wantedLanes (l : Link) : Nat := firstLanes (Nat.min l.widthMax (if l.tr.wmax == 0 then 4 else l.tr.wmax))

/-! ### Answers that wait for a link (R450) -/

/-- The rate and width that LINK.RETRAIN returns. -/
def rateWidth (l : Link) : List Byte := items [.f 2 l.rate, .f 3 (laneCount l.lanes)]

/-- Answer every mailbox whose LINK.RETRAIN waits for link `n`, now ACTIVE or DOWN (R450). -/
def answerRetrain (h : Hw) (n : Nat) : Hw :=
  forAll (workers h 0xA04) (fun m h =>
    if ((workOf h m 0xA04).map (·.args)).getD [] == [n] then answer h m (Reply.ok (rateWidth (h.link n))) else h) h

/-- Answer the LINK.WIDTH that waits for link `n` (R450). -/
def answerWidth (h : Hw) (n : Nat) (r : Reply) : Hw :=
  forAll (workers h 0xA05) (fun m h => if ((workOf h m 0xA05).map (·.args)).getD [] == [n] then answer h m r else h) h

/-! ### Transmitting -/

/-- The link control word of the next flit: ACK, NAK, and the credit count of the next VC (R432, R440). -/
def nextControl (l : Link) (ftype first rseq : Nat) : LinkControl :=
  { ftype := ftype, nak := l.tx.naks != 0, nakId := if l.tx.naks != 0 then l.rx.nakId else 0,
    ack := (l.rx.expected + 4095) % 4096, crvc := l.tx.crvc, crcum := KMap.get l.rx.cum l.tx.crvc, first := first, rseq := rseq }

/-- Whether the end owes its partner an acknowledgement, a NAK or a credit return (R400). -/
def Link.owes (l : Link) : Bool :=
  l.tx.naks != 0 || l.tx.ackSent != (l.rx.expected + 4095) % 4096
    || (List.range 8).any (fun v => KMap.get l.tx.cumSent v != KMap.get l.rx.cum v)

/-- Put a block on the lanes in use (R425). -/
def Link.putBlock (l : Link) (v : Nat) : Link := { l with tx := putWire l.txLanes l.tx true (block v) }

/-- The filler block that follows 4,096 flits (R396). -/
def putFiller (l : Link) : Link := { l.putBlock 0xF3 with tx := { (l.putBlock 0xF3).tx with sinceFiller := 0 } }

/-- Put one flit on the lanes, after the filler block where one is due; CRVC steps through the VCs, owed NAKs are given and
acknowledgement and credit return are paid (R396, R432, R440). What it sends ends an idle period, so the next one has the
DROWSE_IDLE last set; an IDLE flit that carries nothing owed ends none (R400, class L of R11). -/
def putFlit (l : Link) (ftype first rseq : Nat) (payload : List Byte) (z : Nat) : Link :=
  let l := if 4096 ≤ l.tx.sinceFiller then putFiller l else l
  { l with drowse := if ftype == 0 && !l.owes then l.drowse else l.drowseNext
           tx := { putWire l.txLanes l.tx false (formFlit (nextControl l ftype first rseq) payload z) with
                     crvc := (l.tx.crvc + 1) % 8, naks := l.tx.naks - 1, sinceFiller := l.tx.sinceFiller + 1
                     ackSent := (l.rx.expected + 4095) % 4096
                     cumSent := KMap.set l.tx.cumSent l.tx.crvc (KMap.get l.rx.cum l.tx.crvc) } }

/-- An IDLE flit goes in a slot that has nothing else; its payload area holds pad words (DEDUCED from R426, log entry 33). -/
def sendIdle (l : Link) : Link := putFlit l 0 63 0 (leBytes 172 0) l.tx.next

/-- Lanes of a link that are in use, as lane numbers. -/
def lanesInUse (h : Hw) (n : Nat) : List Nat := (bitsOf 4 (h.link n).lanes).map (fun i => 4 * n + i)

/-- A wake of the lanes in use is counted (R414). -/
def countWakes (h : Hw) (n : Nat) : Hw :=
  forAll (lanesInUse h n) (fun k h => h.setLane k { h.lane k with wakes := satInc 32 (h.lane k).wakes }) h

/-- A sleeping transmit direction sends a wake pattern and is ACTIVE (R401, R402). -/
def wakeTransmit (h : Hw) (n : Nat) : Hw :=
  modLink (countWakes h n) n fun l => { l.putBlock 0x88 with drowse := l.drowseNext, tx := { (l.putBlock 0x88).tx with sleep := 1 } }

/-- A direction that must send wakes first if it sleeps (R388, R402). -/
def awake (h : Hw) (n : Nat) : Hw := if 2 ≤ (h.link n).tx.sleep then wakeTransmit h n else h

/-- Send one new sequenced flit: it is numbered, kept in the replay buffer, and goes as REPLAY_START where one is owed
(R431, R435, R436). -/
def sendFlit (l : Link) (first : Nat) (payload : List Byte) (ends : Option Packet) : Link :=
  let seq := l.tx.next
  let l := if l.tx.mustReplay then putFlit l 2 first seq payload seq else putFlit l 1 first 0 payload seq
  { l with tx := { l.tx with next := (seq + 1) % 4096, mustReplay := false,
                             buffer := l.tx.buffer ++ [{ seq := seq, first := first, payload := payload, ends := ends }] } }

/-- Flits of a packet. -/
def flitsOf (p : Packet) : Nat := (Packet.size p + 171) / 172

/-- Credits of a packet (R440). -/
def creditsOf (p : Packet) : Nat := (p.len + 15) / 16

/-- Send a packet as flits, its first word at word 0 of the first one; its credits are taken (R426, R441, R476). -/
def sendPacket (l : Link) (p : Packet) : Link :=
  let ps := payloads 26 (Packet.bytes p)
  let n := ps.length
  let l := { l with tx := { l.tx with credits := KMap.mod l.tx.credits p.vc (fun c => c - creditsOf p) } }
  (ps.zipIdx).foldl (fun l q => sendFlit l (if q.2 == 0 then 0 else 63) q.1 (if q.2 + 1 == n then some p else none)) l

/-- Send a CTRL flit (R446), the direction awake (R388, R402). -/
def sendCtrl (h : Hw) (n cmd reqId lanes : Nat) : Hw :=
  modLink (awake h n) n fun l => putFlit l 6 63 0 (ctrlBytes cmd reqId lanes h.sys.moduleId) l.tx.next

/-- The flits outstanding go again from u, the first as REPLAY_START (R436); with none, the next new flit will be one. -/
def resend (l : Link) : Link :=
  match l.tx.buffer with
  | [] => { l with tx := { l.tx with mustReplay := true } }
  | f :: r =>
    let l := putFlit l 2 f.first f.seq f.payload f.seq
    let l := r.foldl (fun l g => putFlit l 1 g.first 0 g.payload g.seq) l
    { l with tx := { l.tx with mustReplay := false } }
/-- Replay from u: counted, and the replay timer restarts (R436, R437, R451). -/
def replay (l : Link) : Link := resend { l.count 3 with replayTimer := l.replayTimerNext }

/-! ### Training blocks (R443) -/

/-- Rates that this end offers: those within RATE_MAX. -/
def offered (l : Link) : Nat := packBits ((List.range 4).map fun r => decide (l.rateMax ≤ r))
/-- Whether this end's receivers ask for precoding at a rate (R391). -/
def asksPrecode (l : Link) (rate : Nat) : Bool := rate != 3 && (if l.precode == 0 then rate < 2 else l.precode == 2)
/-- The training pass by rate: EFM at least (R394). -/
def trainPass (rate : Nat) : Nat := [40, 32, 24, 24].getD rate 24
/-- The TS block that a lane of the link sends (R443). -/
def tsOf (h : Hw) (n i type rate eqReq eqAck : Nat) : TsBlock :=
  let l := h.link n
  let x := h.lane (4 * n + i)
  { type := type, lane := i, node := h.sys.moduleId, rates := offered l, wmax := l.widthMax
    precode := packBits ((List.range 4).map (asksPrecode l)), rate := rate, eqReq := eqReq, eqAck := eqAck
    efm := x.efm, pass := type == 3 && trainPass rate ≤ x.efm }
/-- The lanes of a set send blocks of a type. -/
def sendTs (h : Hw) (n lanes type rate : Nat) : Hw :=
  forAll (bitsOf 4 lanes) (fun i h => modLink h n fun l => { l with tr := { l.tr with sent := KMap.ins l.tr.sent i (tsOf h n i type rate 0 0) } }) h
/-- The rate that training tries first: the highest that both ends offer (R387). -/
def firstRate (l : Link) : Nat := ((List.range 3).find? fun r => l.rateMax ≤ r && tbit l.tr.rates r).getD 3

/-! ### States -/

/-- Lanes asleep or off leave their equalisers as they are; a link out of ACTIVE has both directions OFF (R388, R399). -/
def quiet (l : Link) : Link := { l with tx := { l.tx with sleep := 0 }, rx := { l.rx with sleep := 0 } }

/-- A width change under way is abandoned (R445). -/
def dropChange (h : Hw) (n : Nat) : Hw :=
  let t := (h.link n).tr
  if t.phase == 0 then h
  else
    let h := modLink h n fun l =>
      { l with tr := { l.tr with phase := 0, lanes := 0, mine := false, passed := false, partnerGo := false },
               tx := { l.tx with ctrl := none } }
    if t.mine then answerWidth h n (Reply.denied rState) else h

/-- Enter RETRAIN (R444, R445, R449): flits stop, the lanes in use send TS EQ, CE 0x40 is logged and LINK_RETRAIN raised. -/
def enterRetrain (h : Hw) (n : Nat) : Hw :=
  if (h.link n).state != 3 then h
  else
    let h := dropChange h n
    let h := modLink h n fun l => { (quiet l).count 6 with state := 5, tr := { l.tr with phase := 0, passing := 0 }, tx := { (quiet l).tx with ctrl := none } }
    let h := sendTs h n (h.link n).lanes 3 (h.link n).rate
    let h := logOpen h (96 + n) 0 0x40 none (some 0)
    raise h 0x318 n

/-- Enter RATE_TRAIN (R442). -/
def enterRateTrain (h : Hw) (n : Nat) : Hw :=
  if (h.link n).state != 3 then h
  else
    let h := dropChange h n
    let h := modLink h n fun l => { quiet l with state := 4, tr := { l.tr with rateDue := false, passing := 0 }, tx := { (quiet l).tx with ctrl := none } }
    sendTs h n (wantedLanes (h.link n)) 3 (firstRate (h.link n))

/-- Packets of a down link's replay buffer, and those queued for its port, in order (R448, R458). -/
def orphans (h : Hw) (n : Nat) : List Packet :=
  ((h.link n).tx.buffer.filterMap (·.ends)) ++ ((h.router.egress.filter (fun q => q.port == n)).map (·.packet))

/-- The transmit and receive state that DOWN clears (R448). -/
def clearLink (l : Link) : Link := { l with tx := {}, rx := {}, tr := { downTimes := l.tr.downTimes }, lanes := 0 }

/-- A link goes DOWN (R448, R449): it stops, its packets are salvaged, its sequence state is cleared, UE 0x42 is logged and
LINK_DOWN raised; the eighth entry within 1 s holds it. -/
def linkDown (h : Hw) (n : Nat) : Hw :=
  let l := h.link n
  if l.state == 0 || l.state == 6 then h
  else
    let h := dropChange h n
    let ps := orphans h n
    let times := (l.tr.downTimes ++ [h.time.now]).filter (fun t => h.time.now < t + 10 ^ 12)
    let h := modLink h n fun l => { clearLink (l.count 8) with
      state := 6, held := 8 ≤ times.length, downs16 := satInc 16 l.downs16, tr := { downTimes := times } }
    let h := portEmptied { h with router := { h.router with egress := h.router.egress.filter (fun q => q.port != n) } } n
    let h := ps.foldl (fun h p => routeSalvaged (if p.vc == 7 then h else routerCount h 3) p) h
    let h := resumeQueues h
    let h := logOpen h (96 + n) 2 0x42 none (some 0)
    let h := raise h (0x200 + 4 * n) 0
    answerRetrain h n

/-- Disable a link (R448, R450): DOWN's steps, then DISABLED. -/
def linkDisable (h : Hw) (n : Nat) : Hw :=
  if (h.link n).state == 0 then h
  else modLink (linkDown h n) n fun l => { clearLink l with state := 0, held := false, tr := {} }

/-- Enter DETECT: lane 0 at the Dawn rate (R442). While CLK_LOSS keeps every lane idle the link is DOWN instead, and trains when
the clock is back (R404). -/
def enterDetect (h : Hw) (n : Nat) : Hw :=
  if h.clk.loss then modLink h n fun l => { clearLink l with state := 6, held := false }
  else sendTs (modLink h n fun l => { clearLink l with state := 1, held := false, rate := 3, lanes := 1 }) n 1 1 3

/-- A block instance under self-test or isolated (R565, R567): BLOCK × 64 + INDEX. -/
def isolated (h : Hw) (b : Nat) : Bool := h.bist.failed.contains b || h.bist.stuck.contains b || KMap.has h.bist.running b
/-- It is under BIST.RUN, or has failed one (R567). -/
def bistHolds (h : Hw) (b : Nat) : Bool := h.bist.stuck.contains b || KMap.has h.bist.running b

/-- Enable a link that is DISABLED into DETECT, its gate opened (R450, R565, R587). -/
def linkEnable (h : Hw) (n : Nat) : Hw :=
  if (h.link n).state != 0 || isolated h (5 * 64 + n) then h
  else
    let h := enterDetect h n
    { h with clk := { h.clk with gateLink := Nat.land h.clk.gateLink (2 ^ 64 - 1 - 2 ^ n) } }

/-- Free values of 16 bits, `n` of them: what a converter or an equaliser gives (log entry 16). -/
def freshList : Nat → Hw → List Nat × Hw
  | 0, h => ([], h)
  | n + 1, h =>
    let (v, h) := freshBits 16 h
    let (r, h) := freshList n h
    (v :: r, h)

/-- FFE and DFE of a lane adapt (R392, R394): the taps that they settle on are measured, so free (log entry 16). -/
def adapt (h : Hw) (k : Nat) : Hw :=
  let (f, h) := freshList 24 h
  let (d, h) := freshBits 8 h
  h.setLane k { h.lane k with ffe := f, dfe := d }

/-- Precoding of each direction of a link at a rate (R390, R391): this end's receivers ask by PRECODE, its transmitters obey the
partner, never at the Dawn rate. -/
def setPrecode (h : Hw) (n rate : Nat) : Hw :=
  let l := h.link n
  let mine := asksPrecode l rate
  let theirs := rate != 3 && tbit l.tr.precode rate
  forBelow 4 (fun i h => h.setLane (4 * n + i) { h.lane (4 * n + i) with rxPrecode := mine, txPrecode := theirs }) h

/-- Enter ACTIVE from CONFIG at the Dawn rate, width 1 (R431, R432, R440–R442, R449): LINK_UP is raised. Lane 0 keeps the
equalisers that its training at the Dawn rate found: measured, so free (R394). -/
def enterActive (h : Hw) (n : Nat) : Hw :=
  let (c, h) := freshBits 4 (setPrecode h n 3)
  let h := adapt (h.setLane (4 * n) { h.lane (4 * n) with ctle := c }) (4 * n)
  let h := modLink h n fun l => { l with
    state := 3, rate := 3, lanes := 1
    tx := { sleep := 1, coders := freshCoders }
    rx := { sleep := 1, fill := 8, cum := (List.range 8).map (fun v => (v, bufferCredits v)), coders := freshCoders }
    tr := { l.tr with rateDue := true, phase := 0, sent := [] }
    drowse := l.drowseNext, rttNs := 0, rttFlits := 0 }
  let h := raise h (0x201 + 4 * n) 0
  answerRetrain h n

/-- Enter RECOVER (R432, R434): NAK_ID advances and the next 4 flits carry NAK. -/
def startRecover (l : Link) : Link :=
  { l.count 2 with rx := { l.rx with recover := true, nakId := (l.rx.nakId + 1) % 4 }, tx := { l.tx with naks := 4 } }

/-- ACTIVE again after a retrain or rate training: the receiver starts in RECOVER, its elastic buffer filled to 8, and the flits
outstanding go again, which counts as no replay (R397, R434, R436, R438); the round trip is measured again (R437). -/
def reenterActive (h : Hw) (n rate lanes : Nat) : Hw :=
  let h := modLink h n fun l => resend (startRecover { l with
    state := 3, rate := rate, lanes := lanes, tr := { l.tr with sent := [] }
    tx := { l.tx with sleep := 1, ctrl := none, raw := true, wire := [], coders := freshCoders },
    rx := { l.rx with sleep := 1, fill := 8, failRun := 0, coders := freshCoders }
    drowse := l.drowseNext, rttNs := 0, rttFlits := 0 })
  answerRetrain h n

/-- Act on a replay trigger, by NAK or by timer, by the replay count of flit u (R438); only a replay is counted (R451). -/
def replayTrigger (h : Hw) (n : Nat) (timer : Bool) : Hw :=
  let l := h.link n
  let c := l.tx.replays
  let lim := l.replayLimit
  let bump := fun (l : Link) => { l with tx := { l.tx with replays := c + 1 } }
  let again := fun (l : Link) => replay (bump (if timer then l.count 4 else l))
  if c < lim then modLink (awake h n) n again
  else if c == lim then enterRetrain (modLink h n bump) n
  else if c ≤ 2 * lim then modLink (awake h n) n again
  else linkDown h n

/-- Ask the partner for a retrain (R446): the end enters RETRAIN at the partner's training blocks, or unanswered after 10 µs (R444). -/
def requestRetrain (h : Hw) (n : Nat) : Hw :=
  let id := ((h.link n).tr.reqId + 1) % 256
  sendCtrl (modLink h n fun l => { l with tr := { l.tr with reqId := id }, tx := { l.tx with ctrl := some (4, id, 0) } }) n 4 id 0

/-! ### Width change (R446, R447) -/

/-- Ask the partner for a lane set (R446 step 1). -/
def requestWidth (h : Hw) (n lanes : Nat) : Hw :=
  let id := ((h.link n).tr.reqId + 1) % 256
  let h := modLink h n fun l => { l with
    tr := { l.tr with lanes := lanes, reqId := id, mine := true, phase := 1, passed := false, partnerGo := false },
    tx := { l.tx with ctrl := some (1, id, lanes) } }
  sendCtrl h n 1 id lanes

/-- With WIDTH_AUTO set, a DEGRADED lane in use asks for the widest set of lanes in use without one (R447). -/
def autoNarrow (h : Hw) (n : Nat) : Hw :=
  let l := h.link n
  let bad := Nat.land l.lanes (degradedLanes h n)
  if l.state == 3 && l.rate != 3 && l.widthAuto && l.tr.phase == 0 && l.tx.ctrl.isNone && bad != 0 then
    match widestSet (l.lanes - bad) l.widthMax with
    | some s => requestWidth (logOpen h (96 + n) 0 0x41 none (some 0)) n s
    | none => h
  else h

/-- A width change is complete when both ends have sent WIDTH_GO (R446 steps 5 and 6, R449): each direction moved to the new set
at its own WIDTH_GO. -/
def completeWidth (h : Hw) (n : Nat) : Hw :=
  let t := (h.link n).tr
  if t.phase == 3 && t.partnerGo then
    let h := modLink h n fun l => { l.count 7 with
      lanes := t.lanes
      tr := { l.tr with phase := 0, mine := false, partnerGo := false, passed := false }, tx := { l.tx with ctrl := none } }
    let h := raise h 0x319 n
    let h := if t.mine then answerWidth h n (Reply.ok) else h
    autoNarrow h n
  else h

/-- Send WIDTH_GO and transmit on the new set, the first sequenced flit a REPLAY_START (R436, R446 steps 3–5). -/
def goWidth (h : Hw) (n : Nat) : Hw :=
  let t := (h.link n).tr
  let h := sendCtrl h n 3 t.reqId t.lanes
  let h := modLink h n fun l => { l with tr := { l.tr with phase := 3 }, tx := { l.tx with mustReplay := true, ctrl := none, coders := codersEnter true l.lanes l.tx.coders } }
  completeWidth h n

/-- Answer WIDTH_ACK and then send WIDTH_GO (R446 step 3). -/
def ackWidth (h : Hw) (n : Nat) : Hw :=
  let t := (h.link n).tr
  goWidth (sendCtrl h n 2 t.reqId t.lanes) n

/-- Act on a received WIDTH_REQ (R446 steps 2 and 3); an end that has asked for a retrain, which abandons a width change, lets it be (R445). -/
def onWidthReq (h : Hw) (n reqId lanes node : Nat) : Hw :=
  let l := h.link n
  let t := l.tr
  let legal := permittedSets.contains lanes && laneCount lanes ≤ l.widthMax && l.rate != 3 && lanes != l.lanes
    && !(match l.tx.ctrl with | some (4, _, _) => true | _ => false)
  let ownPending := t.phase != 0 && t.mine
  if !legal then h
  else if ownPending && (h.sys.moduleId < node || t.phase != 1) then h
  else if t.phase != 0 && !t.mine then h
  else
    let h := if ownPending then answerWidth h n (Reply.busy rState) else h
    let narrowing := laneSubset lanes l.lanes
    let h := modLink h n fun l => { l with
      tr := { l.tr with lanes := lanes, reqId := reqId, mine := false, phase := 2, passed := false, partnerGo := false },
      tx := { l.tx with ctrl := none } }
    if narrowing then ackWidth h n else h

/-- Act on a received WIDTH_ACK (R446 step 4). -/
def onWidthAck (h : Hw) (n reqId : Nat) : Hw :=
  let l := h.link n
  let t := l.tr
  if t.mine && t.phase == 1 && t.reqId == reqId then
    if laneSubset t.lanes l.lanes || t.passed then goWidth h n
    else modLink h n fun l => { l with tr := { l.tr with phase := 4 }, tx := { l.tx with ctrl := none } }
  else h

/-- Act on a received WIDTH_GO (R446 step 5): reception moves to the new set and starts in RECOVER (R434). -/
def onWidthGo (h : Hw) (n reqId : Nat) : Hw :=
  let t := (h.link n).tr
  if t.phase != 0 && t.reqId == reqId && !t.partnerGo then
    completeWidth (modLink h n fun l => startRecover { l with
      tr := { l.tr with partnerGo := true }, rx := { l.rx with failRun := 0, coders := codersEnter true l.lanes l.rx.coders } }) n
  else h

/-- Act on a received WIDTH_ABANDON, or abandon (R446): the added lanes go OFF and the set is kept. -/
def onWidthAbandon (h : Hw) (n : Nat) : Hw := autoNarrow (dropChange h n) n

/-- Act on the command of a CTRL flit (R446, R442, R444). -/
def onCtrl (h : Hw) (n : Nat) (b : List Byte) : Hw :=
  let c := leNat ((b.drop 8).take 8)
  match fld c 0 8 with
  | 1 => onWidthReq h n (fld c 8 8) (fld c 16 4) (fld c 32 12)
  | 2 => onWidthAck h n (fld c 8 8)
  | 3 => onWidthGo h n (fld c 8 8)
  | 4 => enterRetrain h n
  | 5 => enterRateTrain h n
  | 6 => onWidthAbandon h n
  | _ => h

/-! ### Receiving -/

/-- Enter RECOVER unless in it (R434). -/
def enterRecover (l : Link) : Link := if l.rx.recover then l else startRecover l

/-- A flit failed: it is counted, the receiver enters RECOVER, and after 16 in a row the end enters RETRAIN (R434). -/
def flitFailed (h : Hw) (n : Nat) : Hw :=
  let h := modLink h n fun l => let l := enterRecover (l.count 0); { l with rx := { l.rx with failRun := l.rx.failRun + 1 } }
  if 16 ≤ (h.link n).rx.failRun then enterRetrain (modLink h n fun l => { l with rx := { l.rx with failRun := 0 } }) n else h

/-- Take the acknowledgement of a link control word (R433 step 1). -/
def takeAck (l : Link) (a : Nat) : Link :=
  match l.tx.buffer with
  | [] => l
  | f :: _ =>
    let k := (a + 4096 - f.seq) % 4096 + 1
    if k ≤ l.tx.buffer.length then
      { l with tx := { l.tx with buffer := l.tx.buffer.drop k, replays := 0 }, replayTimer := l.replayTimerNext }
    else l

/-- Take the credits of a link control word (R441). -/
def takeCredits (l : Link) (c : LinkControl) : Link :=
  let more := (c.crcum + 4096 - KMap.get l.tx.crcum c.crvc) % 4096
  { l with tx := { l.tx with credits := KMap.mod l.tx.credits c.crvc (fun x => x + more), crcum := KMap.set l.tx.crcum c.crvc c.crcum } }

/-- The round trip is the least time from sending a flit to freeing it over the first 1,024 flits after an entry to ACTIVE
(R437): the least time of the `k` flits just freed is measured, so a free value (log entry 16). -/
def measureTrip (h : Hw) (n k : Nat) : Hw :=
  let l := h.link n
  if k == 0 || 1024 ≤ l.rttFlits then h
  else
    let (t, h) := freshBits 32 h
    modLink h n fun l => { l with rttNs := if l.rttFlits == 0 then t else Nat.min l.rttNs t, rttFlits := l.rttFlits + k }

/-- Take a link control word: acknowledgement, credits, NAK (R433, R441). -/
def takeControl (h : Hw) (n : Nat) (c : LinkControl) : Hw :=
  let l := h.link n
  let l' := takeCredits (takeAck l c.ack) c
  let h := measureTrip (modLink h n fun _ => l') n (l.tx.buffer.length - l'.tx.buffer.length)
  if c.nak && c.nakId != l'.tx.nakActed && !l'.tx.buffer.isEmpty then
    replayTrigger (modLink h n fun l => { l with tx := { l.tx with nakActed := c.nakId } }) n false
  else h

/-- The words of an accepted flit join the stream, and whole packets are handed to the router (R426). -/
def takeWords (h : Hw) (n : Nat) (payload : List Byte) : Hw :=
  let (ps, rest) := cutStream 1200 ((h.link n).rx.arriving ++ payload)
  let h := modLink h n fun l => { l with rx := { l.rx with arriving := rest } }
  { h with router := { h.router with arrived := h.router.arrived ++ ps.map (fun b => { port := n, packet := Packet.ofBytes b }) } }

/-- Accept flit e: its words join the stream and e advances (R434). -/
def acceptFlit (h : Hw) (n : Nat) (b : List Byte) : Hw :=
  let h := takeWords h n ((b.drop 8).take 172)
  modLink h n fun l => { l with rx := { l.rx with expected := (l.rx.expected + 1) % 4096, number := (l.rx.expected + 1) % 4096, failRun := 0 } }

/-- A sequenced flit with a valid CRC: a duplicate gives its link control word only, flit e is accepted (R434). -/
def takeSequenced (h : Hw) (n : Nat) (c : LinkControl) (b : List Byte) : Hw :=
  let r := (h.link n).rx
  let h := takeControl h n c
  if (h.link n).state == 6 then h
  else if r.number == r.expected then acceptFlit h n b
  else modLink h n fun l => { l.count 5 with rx := { l.rx with number := (l.rx.number + 1) % 4096, failRun := 0 } }

/-- A flit reaches the elastic buffer (R397). In the slots of the local clock since the last flit arrived the controller has taken
as many flits; how many slots those were is measured, so a free value (log entry 33). A full buffer discards the flit, and
LANE_ELASTIC carries the number of the link's lowest lane in use. Otherwise it is handed on: that it waits its turn is timing. -/
def elastic (h : Hw) (n : Nat) : Bool × Hw :=
  let (k, h) := freshBits 8 h
  let fill := (h.link n).rx.fill - k
  if 16 ≤ fill then
    (false, raise (modLink h n fun l => { l.count 16 with rx := { l.rx with fill := fill } }) 0x31B (4 * n + (bitsOf 4 (h.link n).rxLanes).headD 0))
  else (true, modLink h n fun l => { l with rx := { l.rx with fill := fill + 1 } })

/-- A flit that the elastic buffer has handed on is taken or fails (R420, R434). -/
def takeFlit (h : Hw) (n : Nat) (f : List Byte) : Hw :=
  let l := h.link n
  match flitFec f with
    | none => flitFailed h n
    | some (b, fixed) =>
      let h := modLink h n fun l => { l with counts := KMap.mod l.counts 1 (fun x => satAdd 32 x fixed) }
      let c := LinkControl.ofNat (leNat (b.take 8))
      if c.ftype == 2 then
        if !crcMatches b c.rseq then flitFailed h n
        else if 512 < (l.rx.expected + 4096 - c.rseq) % 4096 then modLink h n enterRecover
        else takeSequenced (modLink h n fun l => { l with rx := { l.rx with recover := false, number := c.rseq } }) n c b
      else if l.rx.recover then h
      else if c.ftype == 1 then
        if !crcMatches b l.rx.number then flitFailed h n else takeSequenced h n c b
      else if c.ftype == 0 || c.ftype == 6 then
        if !crcMatches b l.rx.number then flitFailed h n
        else
          let h := modLink h n fun l => { l with rx := { l.rx with failRun := 0 } }
          let h := takeControl h n c
          if c.ftype == 6 then onCtrl h n b else h
      else modLink h n enterRecover

/-- A flit arrives at an ACTIVE link end: the receive coders move past it, and it goes through the elastic buffer (R397, R424). -/
def receiveFlit (h : Hw) (n : Nat) (f : List Byte) : Hw :=
  if (h.link n).state != 3 || f.length != 192 then h
  else
    let (kept, h) := elastic (modLink h n fun l => { l with rx := heard l f }) n
    if kept then takeFlit h n f else h

end Sys2Proof.Machine
end

