-- ==== Sys2Proof/Machine/Firmware.lean ====
section
/-!
DEFINITION. The QSPI flash (R555), two-copy records, image checks (R556, R557), the ROM's choice of a slot (R558), boot
configuration (R560), the repair record (R573), FW.UPDATE, FW.ACTIVATE and FW.QUERY (R562–R564), and the restore of a poisoned
page of the Zenith core (R377).
-/
namespace Sys2Proof.Machine
open Sys2Proof

/-! ### Flash -/

/-- A byte of the flash; an erased byte is 0xFF (log entry 4). -/
def flashByte (fl : KMap Byte) (a : Nat) : Byte := KMap.getD fl a 0xFF#8
def flashBytes (fl : KMap Byte) (a n : Nat) : List Byte := (List.range n).map (fun i => flashByte fl (a + i))
def flashNat (fl : KMap Byte) (a n : Nat) : Nat := leNat (flashBytes fl a n)
/-- Erase `n` bytes. -/
def flashErase (fl : KMap Byte) (a n : Nat) : KMap Byte := fl.filter (fun c => c.1 < a || a + n ≤ c.1)
/-- Program bytes into erased flash. -/
def flashWrite : KMap Byte → Nat → List Byte → KMap Byte
  | fl, _, [] => fl
  | fl, a, b :: r => flashWrite (KMap.setD fl a b 0xFF#8) (a + 1) r

/-- Offsets of R555. -/
def slotBase (slot : Nat) : Nat := slot * 0x800000
def configBase (copy : Nat) : Nat := 0x1000000 + copy * 0x10000
def repairBase (copy : Nat) : Nat := 0x1020000 + copy * 0x10000
def selectBase (copy : Nat) : Nat := 0x1040000 + copy * 0x10000

/-- A record of `n` bytes whose last four are the CRC-32C of the others (R558, R560, R573). -/
def recordValid (fl : KMap Byte) (a n : Nat) : Bool := flashNat fl (a + n - 4) 4 == crc32c (flashBytes fl a (n - 4))

/-- The copy in use of a two-copy area: valid, and of two valid ones the one with the higher SEQ (R555). -/
def newestCopy (fl : KMap Byte) (base : Nat → Nat) (n seqAt : Nat) (extra : Nat → Bool) : Option Nat :=
  let ok := fun c => recordValid fl (base c) n && extra (base c)
  let seq := fun c => flashNat fl (base c + seqAt) 4
  match ok 0, ok 1 with
  | true, true => if seq 0 < seq 1 then some 1 else some 0
  | true, false => some 0
  | false, true => some 1
  | false, false => none

/-- Write the other copy: SEQ incremented, the CRC last (R555). `body` is what stands between SEQ and the CRC's padding. -/
def writeCopy (fl : KMap Byte) (base : Nat → Nat) (n : Nat) (fill : Byte) (body : List Byte) : KMap Byte :=
  let now := newestCopy fl base n 0 (fun _ => true)
  let seq := match now with | some c => flashNat fl (base c) 4 + 1 | none => 0
  let c := match now with | some 0 => 1 | _ => 0
  let data := leBytes 4 seq ++ body
  let data := data ++ List.replicate (n - 4 - data.length) fill
  flashWrite (flashErase fl (base c) n) (base c) (data ++ leBytes 4 (crc32c data))

/-! ### Images (R556, R557) -/

def imageField (fl : KMap Byte) (slot off n : Nat) : Nat := flashNat fl (slotBase slot + off) n
def imagePages (fl : KMap Byte) (slot : Nat) : Nat := imageField fl slot 16 4
/-- Bytes of the page digest table, padding included. -/
def tableBytes (pages : Nat) : Nat := (48 * pages + 4095) / 4096 * 4096
/-- Flash offset of body page `i`. -/
def pageAt (fl : KMap Byte) (slot i : Nat) : Nat := slotBase slot + 0x1000 + tableBytes (imagePages fl slot) + 4096 * i
/-- Whether body page `i` matches its table entry. -/
def pageMatches (fl : KMap Byte) (slot i : Nat) : Bool :=
  Config.sha384 (flashBytes fl (pageAt fl slot i) 4096) == flashNat fl (slotBase slot + 0x1000 + 48 * i) 48

/-- CHECK of a slot and the failing page (R557, R562): 0 valid, 1 FORMAT, 2 KEY, 3 SIGNATURE, 4 ROLLBACK, 5 DIGEST. -/
def slotCheck (f : Fuses) (fl : KMap Byte) (slot : Nat) : Nat × Nat :=
  let b := slotBase slot
  let none' := 0xFFFFFFFF
  let zero := fun off n => (flashBytes fl (b + off) n).all (fun x => x == 0#8)
  let pages := imagePages fl slot
  let key := imageField fl slot 72 1
  if flashNat fl b 4 != 0x534D4B47 || imageField fl slot 4 2 != 1 || !zero 6 2 || 63 < imageField fl slot 12 1 || !zero 13 3
      || !zero 20 4 || !zero 73 183 || !zero 448 3648 || pages < 1 || 1536 < pages then (1, none')
  else if 3 < key || Config.sha384 (flashBytes fl (b + 256) 96) != Config.keyHash key || tbit f.revoked key then (2, none')
  else if !Config.ecdsaVerify (flashNat fl (b + 256) 96) (Config.sha384 (flashBytes fl b 256)) (flashBytes fl (b + 352) 96) then
    (3, none')
  else if imageField fl slot 12 1 < f.svn then (4, none')
  else if Config.sha384 (flashBytes fl (b + 0x1000) (tableBytes pages)) != imageField fl slot 24 48 then (5, none')
  else
    match (List.range pages).find? (fun i => !pageMatches fl slot i) with
    | some i => (5, i)
    | none => (0, none')
def slotValid (h : Hw) (slot : Nat) : Bool := (slotCheck h.fuses h.fw.flash slot).1 == 0

/-! ### The selection record and the ROM (R558) -/

/-- SLOT, TRIAL, ATTEMPTS of the newest valid selection record, else its defaults. -/
def selection (fl : KMap Byte) : Nat × Bool × Nat :=
  match newestCopy fl selectBase 4096 0 (fun _ => true) with
  | some c => (flashNat fl (selectBase c + 4) 1 % 2, flashNat fl (selectBase c + 5) 1 == 1, flashNat fl (selectBase c + 6) 1)
  | none => (0, false, 0)
def writeSelection (fl : KMap Byte) (slot : Nat) (trial : Bool) (attempts : Nat) : KMap Byte :=
  writeCopy fl selectBase 4096 0#8 (leBytes 1 slot ++ leBytes 1 (b2n trial) ++ leBytes 1 attempts)
def Hw.onFlash (h : Hw) (f : KMap Byte → KMap Byte) : Hw := { h with fw := { h.fw with flash := f h.fw.flash } }

/-- The ROM has loaded a slot: step 2 ends (R550). -/
def imageLoaded (h : Hw) (slot : Nat) (trial : Bool) : Hw := { h with sys := { h.sys with loaded := some (slot, trial), step := 2 } }
/-- BOOT_FAILED (R559). -/
def bootFailed (h : Hw) : Hw := { h with sys := { h.sys with phase := 2 } }

/-- The ROM chooses a slot, or halts in BOOT_FAILED (R558). -/
def bootSelect (h : Hw) : Hw :=
  if h.sys.step != 1 || h.sys.phase != 0 then h
  else
    let (slot, trial, attempts) := selection h.fw.flash
    let other := 1 - slot
    if trial then
      if attempts < 3 && slotValid h slot then
        imageLoaded (h.onFlash fun fl => writeSelection fl slot true (attempts + 1)) slot true
      else
        let h := h.onFlash fun fl => writeSelection fl other false 0
        if slotValid h other then imageLoaded h other false else bootFailed h
    else if slotValid h slot then imageLoaded h slot false
    else if slotValid h other then logOpen (imageLoaded h other false) 162 2 0x34 none (some 0)
    else bootFailed h
def execBootImageSelect (s : State) : Result := .next (s.onHw bootSelect)

/-- SYS_FW takes the running image's release and security version (R547). -/
def writeSysFw (h : Hw) (slot : Nat) (trial : Bool) : Hw :=
  let fl := h.fw.flash
  { h with sys := { h.sys with
      patch := imageField fl slot 8 2, minor := imageField fl slot 10 1, major := imageField fl slot 11 1,
      slot := slot, trial := trial, svn := imageField fl slot 12 1 % 64 } }

/-! ### Boot configuration (R560) and repair record (R573) -/

/-- The boot-configuration copy in use. -/
def configCopy (fl : KMap Byte) : Option Nat :=
  newestCopy fl configBase 4096 4 (fun a => flashNat fl a 4 == 0x46434B47)

/-- Step 3 applies the boot configuration, or its defaults when neither copy is valid (R560, R656). -/
def applyConfig (h : Hw) : Hw :=
  let fl := h.fw.flash
  match configCopy fl with
  | none => { h with sys := { h.sys with moduleId := 0, cfgSrc := 3, mgmt := [], bistLevel := false, autoConfirm := false, linkEnable := 0, holdDawn := 0 } }
  | some c =>
    let b := configBase c
    let n := Nat.min (flashNat fl (b + 10) 1) 16
    { h with sys := { h.sys with
        moduleId := flashNat fl (b + 8) 2 % 4096, cfgSrc := c
        mgmt := (List.range n).map (fun i => flashNat fl (b + 16 + 2 * i) 2 % 4096)
        bistLevel := tbit (flashNat fl (b + 11) 1) 0, autoConfirm := tbit (flashNat fl (b + 11) 1) 1
        linkEnable := flashNat fl (b + 12) 2, holdDawn := flashNat fl (b + 14) 2 } }

/-- A repair in the layout of R575. -/
def repairNat (r : RepairEntry) : Nat :=
  pack [(3, r.kind), (4, r.block), (6, r.index), (3, 0), (16, r.array), (32, r.addr), (2, r.spare), (1, b2n r.column), (1, b2n r.recorded)]
def repairOf (x : Nat) : RepairEntry :=
  { kind := fld x 0 3, block := fld x 3 4, index := fld x 7 6, array := fld x 16 16, addr := fld x 32 32, spare := fld x 64 2,
    column := tbit x 66, recorded := true }

/-- The entries of the repair record in use (R573, log entry 14). -/
def recordedRepairs (fl : KMap Byte) : List RepairEntry :=
  match newestCopy fl repairBase 65536 0 (fun _ => true) with
  | none => []
  | some c => (List.range (Nat.min (flashNat fl (repairBase c + 4) 4) 4094)).map (fun i => repairOf (flashNat fl (repairBase c + 8 + 16 * i) 16))

/-- Whether a repair is one that a reset would lose: soft SRAM repairs, remap entries and soft post-package repairs. -/
def softRepair (r : RepairEntry) : Bool := r.kind == 0 || r.kind == 2 || r.kind == 3
/-- Gokomos enters every repair that a reset would lose in the record (R572, R573), at most 4,094; the rest count as lost. Until
step 7 the record keeps the entries of the stacks that are still to be re-made. The second that it may take is not modelled
(log entry 17). -/
def recordRepairs (h : Hw) : Hw :=
  let waiting := if h.sys.step < 7 then (recordedRepairs h.fw.flash).filter (fun r => r.kind == 2 || r.kind == 3) else []
  let keep := h.bist.repairs.filter softRepair ++ waiting
  let put := (keep.take 4094).map (fun r => { r with recorded := true })
  let h := h.onFlash fun fl =>
    writeCopy fl repairBase 65536 0xFF#8 (leBytes 4 put.length ++ (put.map (fun r => leBytes 16 (repairNat r))).flatten)
  { h with bist := { h.bist with lost := keep.length - 4094 } }

/-! ### FW commands (R562–R564) -/

/-- The older boot-configuration copy, which an update erases and writes (R555, R562). -/
def olderCopy (fl : KMap Byte) : Nat := match configCopy fl with | some c => 1 - c | none => 0

/-- FW.UPDATE BEGIN (R562). -/
def updateBegin (h : Hw) (m target : Nat) : Hw :=
  let fl := h.fw.flash
  let other := 1 - h.sys.slot
  let copy := olderCopy fl
  let fl :=
    if target == 0 then
      let fl := flashErase fl (slotBase other) 0x800000
      let (slot, trial, _) := selection fl
      if trial && slot == other then writeSelection fl h.sys.slot false 0 else fl
    else flashErase fl (configBase copy) 0x10000
  { h with fw := { h.fw with flash := fl, update := some { mailbox := m, target := target, copy := copy }, finishOk := if target == 0 then false else h.fw.finishOk } }

/-- Where an update's target lies. -/
def targetBase (h : Hw) (u : FwUpdate) : Nat := if u.target == 0 then slotBase (1 - h.sys.slot) else configBase u.copy

/-- Whether the boot configuration that an update wrote is good (R562): its CRC is valid, and its SEQ exceeds that of the other copy
where that one is valid. -/
def configWritten (fl : KMap Byte) (copy : Nat) : Bool :=
  let seq := fun c => flashNat fl (configBase c + 4) 4
  let other := 1 - copy
  recordValid fl (configBase copy) 4096
    && (!(recordValid fl (configBase other) 4096 && flashNat fl (configBase other) 4 == 0x46434B47) || seq other < seq copy)

/-- FW.UPDATE (R562). COUNT and DATA belong to WRITE; another action takes COUNT 0. -/
def fwUpdate (q : Req) (h : Hw) : Hw × Option Reply :=
  let (target, action, off, n) := (q.p 0, q.p 1, q.p 2, q.p 3)
  if 1 < target || action == 3 then (h, some (Reply.denied rRange))
  else if (match h.fw.update with | some u => u.mailbox != q.m | none => false) then (h, some (Reply.denied rState))
  else
    match action with
    | 0 => (updateBegin h q.m target, some (Reply.ok))
    | 1 =>
      if n < 8 || 1984 < n || n % 8 != 0 then (h, some (Reply.denied rRange))
      else
        match h.fw.update with
        | none => (h, some (Reply.denied rState))
        | some u =>
          let size := if target == 0 then 0x800000 else 4096
          if u.target != target || size < off + n || u.written.any (fun r => off < r.2 && r.1 < off + n) then (h, some (Reply.denied rState))
          else
            let fl := flashWrite h.fw.flash (targetBase h u + off) (leBytes n (q.p 4))
            ({ h with fw := { h.fw with flash := fl, update := some { u with written := u.written ++ [(off, off + n)] } } }, some (Reply.ok))
    | _ =>
      match h.fw.update with
      | none => (h, some (Reply.denied rState))
      | some u =>
        if u.target != target then (h, some (Reply.denied rState))
        else
          let h := { h with fw := { h.fw with update := none } }
          if target == 0 then
            let (c, page) := slotCheck h.fuses h.fw.flash (1 - h.sys.slot)
            ({ h with fw := { h.fw with finishOk := c == 0 } },
             some { status := if c == 0 then stOK else stDenied, index := page, body := items [.f 8 c] })
          else (h, some (if configWritten h.fw.flash u.copy then Reply.ok else { status := stDenied }))
def execFwUpdate (m : Fin 16) (s : State) : Result :=
  .next (runHw s m.val 0xD05 [.f 2, .f 2, .f 32, .f 16, .arr 3 1] false fwUpdate)

/-- FW.ACTIVATE (R563). -/
def fwActivate (q : Req) (h : Hw) : Hw × Option Reply :=
  let other := 1 - h.sys.slot
  match q.p 0 with
  | 0 =>
    if h.fw.finishOk then (h.onFlash fun fl => writeSelection fl other true 0, some (Reply.ok)) else (h, some (Reply.denied rState))
  | 1 => ({ h.onFlash (fun fl => writeSelection fl h.sys.slot false 0) with sys := { h.sys with trial := false } }, some (Reply.ok))
  | 2 =>
    if h.sys.trial then (h, some (Reply.denied rState))
    else ({ h with fuses := { h.fuses with svn := Nat.max h.fuses.svn h.sys.svn } }, some (Reply.ok))
  | _ =>
    if !h.fw.finishOk || imageField h.fw.flash other 11 1 != h.sys.major then (h, some (Reply.denied rState))
    else
      let h := h.onFlash fun fl => writeSelection fl other true 1
      ({ h with fw := { h.fw with reload := true } }, some (Reply.ok))
def execFwActivate (m : Fin 16) (s : State) : Result := .next (runHw s m.val 0xD07 [.f 2] false fwActivate)

/-- The answer of FW.QUERY before its signature (R564, log entry 20). -/
def fwItems (h : Hw) : List Byte :=
  let fl := h.fw.flash
  let (slot, trial, attempts) := selection fl
  items ([.f 1 h.sys.slot] ++ [0, 1].flatMap (fun k =>
      let (c, _) := slotCheck h.fuses fl k
      [Item.f 1 (b2n (c == 0)), .f 8 c, .f 16 (imageField fl k 8 2), .f 8 (imageField fl k 10 1), .f 8 (imageField fl k 11 1),
       .f 6 (imageField fl k 12 1), .f 32 (imagePages fl k)])
    ++ [.f 1 slot, .f 1 (b2n trial), .f 8 attempts, .f 6 h.fuses.svn, .bytes (flashBytes fl (slotBase h.sys.slot + 24) 48)])

/-- FW.QUERY (R564): with a NONCE that is not zero the answer is signed by the device key, unless the key is locked (R571). -/
def fwQuery (q : Req) (h : Hw) : Hw × Option Reply :=
  let nonce := q.p 0
  let body := fwItems h
  if nonce == 0 then (h, some (Reply.ok body))
  else if h.fw.keyLocked then (h, some (Reply.denied rState))
  else (h, some (Reply.ok (body ++ (Config.ecdsaSign (leBytes 32 nonce ++ body)).take 96)))
def execFwQuery (m : Fin 16) (s : State) : Result := .next (runHw s m.val 0xD06 [.blk 32] false fwQuery)

/-! ### A poisoned fetch of the Zenith core (R377) -/

/-- The Zenith core fetches a poisoned word at SRAM address `addr`. An address within the loaded image is code or read-only data,
any other is writable state (log entry 13). A page that matches is restored, UE 0x30; else FE 0x31, and the core restarts. -/
def poisonFetch (h : Hw) (addr : Nat) : Hw :=
  let page := addr / 4096
  if page < imagePages h.fw.flash h.sys.slot && pageMatches h.fw.flash h.sys.slot page then logOpen h 162 2 0x30 none none
  else logOpen { h with fw := { h.fw with restart := true } } 162 3 0x31 none none
def execZenithPoisonFetch (addr : Nat) (s : State) : Result :=
  .next (s.onHw fun h => if h.sys.phase == 1 then poisonFetch h addr else h)

end Sys2Proof.Machine
end

