-- ==== Sys2Proof/Machine/Dram.lean ====
section
/-!
DEFINITION. Stored words (chapter 12): the DEC-TED code of R360–R362, what a decode does (R363, R364), the row tracker and the
remap table (R369–R371), post-package repair (R372) and the MEM.ECC, MEM.REMAP and MEM.PPR commands (R373–R376).
-/
namespace Sys2Proof.Machine
open Sys2Proof

/-! ### The code (R360–R362) -/

/-- One step of division by g(x) = 0x4377: shift in a message bit (R361). -/
def bchStep (r : Nat) (b : Bool) : Nat :=
  let top := tbit r 13 != b
  let r := 2 * r % 2 ^ 14
  if top then nxor r 0x0377 else r

/-- C of a data word and its PZ (R361). -/
def bchCheck (d : Nat) (pz : Bool) : Nat :=
  ((List.range 64).reverse.map (tbit d)).foldl bchStep (bchStep 0 pz)

/-- Parity of the low `n` bits of `x`. -/
def parity (n x : Nat) : Bool := popcount n x % 2 == 1

/-- The 80 stored bits of a word: positions 0–78 and X at bit 79 (R360). -/
def encodeWord (d : Nat) (pz : Bool) : Nat :=
  let v := bchCheck d pz + 2 ^ 14 * (d % 2 ^ 64) + 2 ^ 78 * b2n pz
  v + 2 ^ 79 * b2n (parity 79 v)

/-- The check field of R360: C, PZ and X. -/
def checkField (d : Nat) (pz : Bool) : Nat := let v := encodeWord d pz; fld v 0 14 + 2 ^ 14 * fld v 78 2

/-- α times an element of GF(2^7), α^7 = α^3 + 1 (R361). -/
def alphaTimes (x : Nat) : Nat := if x < 64 then 2 * x else nxor (2 * x) 0x89
/-- α^j. -/
def alphaPow : Nat → Nat
  | 0 => 1
  | j + 1 => alphaTimes (alphaPow j)
/-- Product in GF(2^7), over the low `n` bits of the second factor. -/
def mul7Bits : Nat → Nat → Nat → Nat
  | 0, _, _ => 0
  | n + 1, a, b => nxor (if b % 2 == 1 then a else 0) (mul7Bits n (alphaTimes a) (b / 2))
def mul7 (a b : Nat) : Nat := mul7Bits 7 a b
/-- log of a non-zero element: the j below 127 with α^j equal to it. -/
def log7 (y : Nat) : Nat := ((List.range 127).find? (fun j => alphaPow j == y)).getD 127
/-- Quotient by a non-zero element. -/
def div7 (a b : Nat) : Nat := mul7 a (alphaPow ((127 - log7 b) % 127))

/-- v(α^k) of the positions 0–78 (R362). -/
def syndrome (k v : Nat) : Nat := (bitsOf 79 v).foldl (fun acc j => nxor acc (alphaPow (k * j % 127))) 0

/-- What the decoder reports of 80 stored bits: the bits that it flips, none when uncorrectable (79 is X), and S1, S3, p. -/
structure Decoded where
  flips : Option (List Nat) := some []
  s1 : Nat := 0
  s3 : Nat := 0
  p : Bool := false
deriving DecidableEq, Repr

/-- The decoder of R362. -/
def decodeWord (v : Nat) : Decoded :=
  let s1 := syndrome 1 v
  let s3 := syndrome 3 v
  let p := parity 80 v
  let flips :=
    if s1 == 0 then
      if s3 == 0 && !p then some []
      else if s3 == 0 then some [79]
      else none
    else if s3 == mul7 s1 (mul7 s1 s1) then
      let j := log7 s1
      if 78 < j then none else if p then some [j] else some [j, 79]
    else if p then none
    else
      let t := nxor (div7 s3 s1) (mul7 s1 s1)
      let js := (List.range 79).filter (fun j => nxor (nxor (alphaPow (2 * j % 127)) (mul7 s1 (alphaPow j))) t == 0)
      if js.length == 2 then some js else none
  { flips := flips, s1 := s1, s3 := s3, p := p }

/-- Flip the named bits. -/
def flipBits (v : Nat) (js : List Nat) : Nat := js.foldl (fun v j => nxor v (2 ^ j)) v

/-- DETAIL of an MCS log entry (R382). -/
def mcsDetail (d : Decoded) : Nat :=
  let fs := d.flips.getD []
  pack [(7, d.s1), (1, 0), (7, d.s3), (1, 0), (1, b2n d.p), (2, fs.length), (5, 0), (7, fs.getD 0 0), (1, 0), (7, fs.getD 1 0)]

/-- INFO of an MCS log entry about pool word `w` (R382). -/
def mcsInfo (w : Nat) : Nat := pack [(4, pcOf (8 * w)), (6, bankOf (8 * w)), (14, rowOf (8 * w))]

/-! ### A read from DRAM (R363, R364) -/

/-- What a stored word is read for: it decides what R363 logs and whether R364 writes back. -/
inductive ReadKind where
  | plain
  | merge
  | atomic
  | copy
deriving DecidableEq, Repr

/-- The standby of the pair holds a copy of a pool word (R496): as this module last wrote it, so good where that was (log entry 29). -/
def copyHeld (s : State) (w : Nat) : Bool :=
  s.hw.pair.state == 2 && !s.pool.poisoned w
    && (match regionAt s.hw (granuleOf (8 * w)) with | some g => (s.hw.region g).mirrored && mirrorsService s.hw (s.hw.region g).service | none => false)

/-- Count one in an ECC count of the pseudo-channel of word `w` (R376). -/
def countEcc (s : State) (w i : Nat) : State :=
  s.onHw fun h => modPc h (tileOf (8 * w)) (pcOf (8 * w)) fun p => eccCount p i

/-- A word is written back: counted, and due in the next write slot (R364). -/
def writeBack (s : State) (w : Nat) : State :=
  s.onHw fun h => modPc h (tileOf (8 * w)) (pcOf (8 * w)) fun p =>
    { eccCount p 4 with due := p.due ++ [(bankOf (8 * w), rowOf (8 * w))] }

/-- A merge reads a word that is uncorrectable or poisoned: it is counted, and one DE 0x04 logged (R355, R363). -/
def mergeOver (s : State) (w detail : Nat) : State :=
  let t := tileOf (8 * w)
  s.onHw fun h => logError (modPc h t (pcOf (8 * w)) fun p => eccCount p 5) t 1 0x04 (mcsInfo w) (8 * w) detail

/-- The MCS decodes word `w`, whose stored bits read with those of `err` flipped (R363): the outcome is counted and logged, and the
word left corrected, or poisoned with D = 0 (R364); a merge or an atomic that goes on stores its own result instead of a write-back.
Where the standby holds a good copy, an uncorrectable word is taken from there, under CE 0x07 (R496). Answers what the row tracker
counts: nothing, a corrected or an uncorrectable outcome (R369). -/
def decodeRead (s : State) (w err : Nat) (kind : ReadKind) : State × Option Bool :=
  let held := copyHeld s w
  let got := nxor (encodeWord (leNat (s.pool.bytes (8 * w) 8)) (s.pool.poisoned w)) (err % 2 ^ 80)
  let d := decodeWord got
  let log := fun sev code (s : State) => s.onHw fun h => logError h (tileOf (8 * w)) sev code (mcsInfo w) (8 * w) (mcsDetail d)
  let s := s.onPool fun p => p.clearErr w
  match d.flips with
  | none =>
    let s := countEcc s w 2
    if held then (log 0 0x07 (writeBack s w), some true)
    else
      let s := s.onPool fun p => (p.writeBytes (8 * w) (leBytes 8 0)).setPoison w true
      if kind == .merge then (mergeOver s w (mcsDetail d), some true) else (log 1 0x03 (writeBack s w), some true)
  | some fs =>
    let v := flipBits got fs
    let pz := tbit v 78
    let s := s.onPool fun p => if pz then p.setPoison w true else (p.writeBytes (8 * w) (leBytes 8 (fld v 14 64))).setPoison w false
    let merging := fun (s : State) => if pz && kind == .merge then mergeOver s w (mcsDetail d) else s
    match fs.length with
    | 0 => (merging (if pz then countEcc s w 3 else s), none)
    | n =>
      let s := countEcc s w (n - 1)
      (merging (log 0 n (if kind == .merge || (kind == .atomic && !pz) then s else writeBack s w)), some false)

/-- A read of word `w` meets its stored bits: poison is counted (R363), flipped bits are decoded. -/
def meetWord (s : State) (w : Nat) (kind : ReadKind) : State × Option Bool :=
  match KMap.find? s.pool.errs w with
  | some err => decodeRead s w err kind
  | none =>
    if !s.pool.poisoned w then (s, none)
    else if kind == .merge then (mergeOver (countEcc s w 3) w 0, none)
    else (countEcc s w 3, none)

/-- A word of a row that is copied to or from its spare (R371); the tracker counts nothing of it (log entry 9). -/
def copyRead (s : State) (w : Nat) : State := (meetWord s w .copy).1

/-! ### Remapping rows (R369–R371) -/

/-- Whether an index of the remap table redirects the row. -/
def remapAt (x : Slice) (k bank row : Nat) : Option Nat :=
  (List.find? (fun e => e.2.pc == k && e.2.bank == bank && e.2.row == row) x.remaps).map Prod.fst

/-- A free remap entry and a free spare of the pseudo-channel (R370). -/
def freeRemap (x : Slice) (k : Nat) : Option (Nat × Nat) :=
  match KMap.firstFree x.remaps 16,
        (List.range 4).find? (fun sp => !x.remaps.any (fun e => e.2.pc == k && e.2.spare == sp)) with
  | some i, some sp => some (i, sp)
  | _, _ => none

/-- INFO of an entry about a row (R382). -/
def rowInfo (k bank row : Nat) : Nat := pack [(4, k), (6, bank), (14, row)]

/-- A repair entry of a DRAM row (R575). -/
def rowRepair (kind t k bank row spare : Nat) : RepairEntry :=
  { kind := kind, block := 7, index := t, array := k, addr := bank * 2 ^ 14 + row, spare := spare }

/-- Remap a row to spare `sp` by entry `i` (R371): its words are read under R363 and copied, poison kept, the entry made VALID, CE
0x05 logged. -/
def remapInto (s : State) (t k bank row i sp : Nat) (auto : Bool) : State :=
  let ws := rowWords t k bank row
  let s := ws.foldl copyRead s
  let poison := ws.any s.pool.poisoned
  s.onHw fun h =>
    let h := recordRepairs { h with bist := { h.bist with repairs := h.bist.repairs ++ [rowRepair 2 t k bank row sp] } }
    let x := h.slice t
    let e : Remap := { pc := k, bank := bank, row := row, spare := sp, auto := auto, hadPoison := poison }
    let h := h.setSlice t { x with remaps := KMap.ins x.remaps i e }
    logError (modPc h t k fun p => eccCount p 6) t 0 0x05 (rowInfo k bank row) (8 * ws.headD 0) 0

/-- The remap that R369 calls for: with no entry or spare free, or for a row that has one, CE 0x06 and MCS_REMAP_FULL (R371). -/
def autoRemap (s : State) (t k bank row : Nat) : State :=
  let x := s.hw.slice t
  match (if (remapAt x k bank row).isSome then none else freeRemap x k) with
  | some (i, sp) => remapInto s t k bank row i sp true
  | none =>
    s.onHw fun h =>
      raise (logError h t 0 0x06 (rowInfo k bank row) (8 * (rowWords t k bank row).headD 0) 0) (16 * t + 10) k

/-- The tracker after an error in a row (R369): its count, and whether the row is now to be remapped. -/
def track (x : Slice) (k bank row : Nat) (uncorrectable : Bool) : Slice × Bool :=
  let same := fun (e : Tracked) => e.pc == k && e.bank == bank && e.row == row
  let old := ((x.tracker.find? same).map (·.count)).getD 0
  let n := if uncorrectable then x.rowCeLimit else old + 1
  let rest := x.tracker.filter (fun e => !same e)
  if x.rowCeLimit != 0 && x.rowCeLimit ≤ n then ({ x with tracker := rest }, true)
  else ({ x with tracker := { pc := k, bank := bank, row := row, count := n } :: rest.take 63 }, false)

/-- Count an error in the tracker and remap the row if R369 says so. -/
def trackRow (s : State) (w : Nat) (uncorrectable : Bool) : State :=
  let t := tileOf (8 * w)
  let (k, bank, row) := (pcOf (8 * w), bankOf (8 * w), rowOf (8 * w))
  let (x, full) := track (s.hw.slice t) k bank row uncorrectable
  let s := s.onHw fun h => h.setSlice t x
  if full then autoRemap s t k bank row else s

/-! ### Reads that count in the tracker -/

/-- Count the outcome of a read in the row tracker (R369). -/
def tracked (r : State × Option Bool) (w : Nat) : State :=
  match r.2 with
  | some unc => trackRow r.1 w unc
  | none => r.1

/-- DRAM returns word `w` with the bits of `err` flipped, for a plain access. -/
def dramRead (s : State) (w err : Nat) : State := tracked (decodeRead s w err .plain) w

/-- An access reads word `w` (R363). -/
def readStored (s : State) (w : Nat) (kind : ReadKind) : State := tracked (meetWord s w kind) w

/-- A word of the pool that its MCS reads from DRAM: the pseudo-channel serves, and the word is not hot (R356). -/
def readsDram (h : Hw) (w : Nat) : Bool :=
  let x := h.slice (tileOf (8 * w))
  let st := (x.pc (pcOf (8 * w))).state
  8 * w < poolSize && (st == 2 || st == 3) && !x.hot.contains (w / 2)

/-- TRACK_WINDOW without an increment: the tracker entry is discarded (R369). -/
def trackExpire (x : Slice) (k bank row : Nat) : Slice :=
  { x with tracker := x.tracker.filter (fun e => !(e.pc == k && e.bank == bank && e.row == row)) }
def execTrackWindowExpiry (slice : Fin 32) (pc : Fin 16) (bank : Fin 64) (row : Fin 16384) (s : State) : Result :=
  .next (s.onHw fun h => h.setSlice slice.val (trackExpire (h.slice slice.val) pc.val bank.val row.val))

/-! ### Commands (R373–R376) -/

/-- MEM.ECC.CONFIG (R375). -/
def execMemEccConfig (m : Fin 16) (s : State) : Result :=
  .next (runHw s m.val 0x804 [.f 32, .f 8, .f 16] false fun q h =>
    if q.p 0 == 0 || q.p 2 < 1 || 60000 < q.p 2 then (h, some (Reply.denied rRange))
    else (forAll (bitsOf 32 (q.p 0)) (fun t h =>
      h.setSlice t { h.slice t with rowCeLimit := q.p 1, trackWindow := q.p 2 }) h, some (Reply.ok)))

/-- A remap entry in the layout of R370; zero where the entry is free. -/
def remapWord (x : Slice) (i : Nat) : Nat :=
  match KMap.find? x.remaps i with
  | none => 0
  | some e => pack [(1, 1), (4, e.pc), (6, e.bank), (14, e.row), (2, e.spare), (1, b2n e.auto), (1, b2n e.hadPoison)]

/-- Put a tracker entry in order of falling counts. -/
def insTracked (e : Tracked) : List Tracked → List Tracked
  | [] => [e]
  | y :: r => if y.count < e.count then e :: y :: r else y :: insTracked e r

/-- MEM.ECC.QUERY (R376); a tracker entry takes its pseudo-channel, bank, row and count (log entry 20). -/
def eccItems (x : Slice) : List Byte :=
  let top := (x.tracker.foldr insTracked []).take 8
  items ([.f 8 x.rowCeLimit, .f 16 x.trackWindow] ++ [.bytes (((List.range 16).map (fun i => leBytes 8 (remapWord x i))).flatten)]
    ++ [.bytes (((List.range 8).map fun i =>
        let e := top.getD i {}
        recordBytes 8 [(4, e.pc), (6, e.bank), (14, e.row), (8, 0), (32, e.count)]).flatten)]
    ++ (List.range 16).flatMap (fun k => (List.range 8).map (fun i => Item.f 32 (KMap.get (x.pc k).ecc i))))

def execMemEccQuery (m : Fin 16) (s : State) : Result :=
  .next (runHw s m.val 0x805 [.f 8] false fun q h =>
    if 31 < q.p 0 then (h, some (Reply.denied rRange)) else (h, some (Reply.ok (eccItems (h.slice (q.p 0))))))

/-- Free the remap entry of a row: the spare's words are read under R363 and go back to it (R371, R372, R374). -/
def freeRow (s : State) (t k bank row : Nat) : State :=
  let s := (rowWords t k bank row).foldl copyRead s
  s.onHw fun h =>
    let x := h.slice t
    let h := h.setSlice t { x with remaps := x.remaps.filter (fun e => !(e.2.pc == k && e.2.bank == bank && e.2.row == row)) }
    recordRepairs { h with bist := { h.bist with repairs := h.bist.repairs.filter (fun r =>
      !(r.kind == 2 && r.index == t && r.array == k && r.addr == bank * 2 ^ 14 + row)) } }

/-- MEM.REMAP (R374). -/
def memRemap (q : Req) (s : State) : State × Option Reply :=
  let (t, k, bank, row) := (q.p 0, q.p 2, q.p 3, q.p 4)
  let x := s.hw.slice t
  if q.p 1 == 0 then
    if (remapAt x k bank row).isSome then (s, some (Reply.denied rState))
    else
      match freeRemap x k with
      | none => (s, some (Reply.busy rResource))
      | some (i, sp) => (remapInto s t k bank row i sp false, some (Reply.ok))
  else if (remapAt x k bank row).isNone then (s, some (Reply.denied rState))
  else (freeRow s t k bank row, some (Reply.ok))
def execMemRemap (m : Fin 16) (s : State) : Result :=
  .next (runCommand s m.val 0x806 [.f 5, .f 1, .f 4, .f 6, .f 14] false memRemap)

/-- MEM.PPR (R372, R373). What the stack reports of its repair resources and of the repair itself is a free value: 0 repaired, 1 no
resource of the kind, 2 or 3 the repair failed (log entry 3). -/
def memPpr (q : Req) (s : State) : State × Option Reply :=
  let (t, k, bank, row) := (q.p 0, q.p 1, q.p 2, q.p 3)
  let x := s.hw.slice t
  match remapAt x k bank row with
  | none => (s, some (Reply.denied rState))
  | some i =>
    let sp := (KMap.get x.remaps i).spare
    let (told, h) := freshBits 2 s.hw
    let s := { s with hw := h }
    if told == 1 then (s, some (Reply.denied rResource))
    else if q.p 4 == 1 && x.enabled then (s, some (Reply.busy rState))
    else if 2 ≤ told then (s, some (Reply.denied rResource))
    else
      let e := rowRepair (3 + q.p 4) t k bank row sp
      ((freeRow s t k bank row).onHw fun h =>
        let h := modPc h t k fun p => eccCount p 7
        let h := recordRepairs { h with bist := { h.bist with repairs := h.bist.repairs ++ [e] } }
        if q.p 4 == 1 then { h with fuses := { h.fuses with hardPpr := h.fuses.hardPpr ++ [e] } } else h, some (Reply.ok))
def execMemPpr (m : Fin 16) (s : State) : Result :=
  .next (runCommand s m.val 0x807 [.f 5, .f 4, .f 6, .f 14, .f 1] false memPpr)

end Sys2Proof.Machine
end

