-- ==== Sys2Proof/Machine/Mcs.lean ====
section
/-!
DEFINITION. The memory-controller slices (chapter 11): choosing bursts (R338–R340), refresh (R343–R345), power-down (R346),
training (R348–R353), hot words (R356) and the MEM.CONFIG, MEM.QUERY and MEM.RETRAIN commands.
-/
namespace Sys2Proof.Machine
open Sys2Proof

/-! ### Choosing a burst (R338–R341) -/

def PseudoChannel.bank (p : PseudoChannel) (b : Nat) : Bank := KMap.get p.banks b
def PseudoChannel.setBank (p : PseudoChannel) (b : Nat) (x : Bank) : PseudoChannel := { p with banks := KMap.set p.banks b x }

/-- The pseudo-channel serves at half or full rate. -/
def PseudoChannel.serves (p : PseudoChannel) : Bool := p.state == 2 || p.state == 3

/-- Length of a slot in ns (R338). -/
def slotNs (p : PseudoChannel) : Nat := if p.state == 3 then 1 else 2

/-- Whether the queue holds a request that `f` accepts. -/
def PseudoChannel.queued (p : PseudoChannel) (f : McsReq → Bool) : Bool := p.queue.any f

/-- Read or write batch for the next slot (R340): writes from 24 on or when there is no read; reads after 8 writes or when there
is no write. -/
def batchWrites (p : PseudoChannel) : Bool :=
  let reads := p.queued (fun r => !r.write)
  let writes := p.queue.filter (·.write)
  if writes.isEmpty then false
  else if !reads then true
  else if p.writing then p.batch < 8
  else 24 ≤ writes.length

/-- The request in position `i` of the queue. -/
def PseudoChannel.req (p : PseudoChannel) (i : Nat) : McsReq := p.queue.getD i {}

/-- A run of 16 open-row bursts yields to an older request of its class for another row of the bank (R338). -/
def runStops (p : PseudoChannel) (i : Nat) : Bool :=
  let r := p.req i
  let b := p.bank r.bank
  b.row == some r.row && 16 ≤ b.run
    && (p.queue.take i).any (fun o => o.sclass == r.sclass && o.bank == r.bank && o.row != r.row)

/-- The request of `l` (positions in the queue, oldest first) that goes first: an open-row one, else the oldest. -/
def openFirst (p : PseudoChannel) (l : List Nat) : Option Nat :=
  match l.find? (fun i => (p.bank (p.req i).bank).row == some (p.req i).row) with
  | some i => some i
  | none => l.head?

/-- The request that the next slot serves, among those whose bank is ready and whose run does not stop: its position, and the step of
R338 that chose it. Where the batch's side has none, the other side goes (R340). -/
def chooseBurst (p : PseudoChannel) (ageLimit : Nat) : Option (Nat × Nat) :=
  let ready := (List.range p.queue.length).filter (fun i => (p.bank (p.req i).bank).busy == 0)
  let ids := ready.filter (fun i => !runStops p i)
  match ready.find? (fun i => ageLimit < (p.req i).waited) with
  | some i => some (i, 1)
  | none =>
    match (List.range 4).find? (fun c => 15 ≤ p.since.getD c 0 && ids.any (fun i => (p.req i).sclass == c)) with
    | some c => (openFirst p (ids.filter (fun i => (p.req i).sclass == c))).map (fun i => (i, 2))
    | none =>
      let w := batchWrites p
      let mine := ids.filter (fun i => (p.req i).write == w)
      let side := if mine.isEmpty then ids else mine
      match (List.range 4).find? (fun c => side.any (fun i => (p.req i).sclass == c)) with
      | some c => (openFirst p (side.filter (fun i => (p.req i).sclass == c))).map (fun i => (i, 3))
      | none => none

/-- Time that refreshes hold a bank: tRFCpb each (R343, R344). -/
def refreshNs : Nat := 250

/-- A bank that has no request left issues the refreshes it owes (R344). -/
def idleBank (p : PseudoChannel) (b : Nat) : PseudoChannel :=
  if p.queued (fun r => r.bank == b) then p
  else p.setBank b { p.bank b with debt := 0, busy := (p.bank b).busy + refreshNs * (p.bank b).debt }

/-- The time of a slot passes: what waits grows older, and refreshing banks come nearer their end. -/
def slotPasses (p : PseudoChannel) (ns : Nat) : PseudoChannel :=
  { p with queue := p.queue.map (fun r => { r with waited := r.waited + ns })
           banks := p.banks.map (fun b => (b.1, { b.2 with busy := b.2.busy - ns })) }

/-- A burst to a row of a bank: the row is open, and a run goes on or begins (R338, R340). -/
def burstTo (p : PseudoChannel) (bank row : Nat) : PseudoChannel :=
  let b := p.bank bank
  p.setBank bank { b with row := some row, run := if b.row == some row then b.run + 1 else 1 }

/-- One slot (R338): a write-back that is due (R364), else one burst of the chosen request; the classes count it, and the block that a
wipe write has zeroed is answered. A batch counts the requests of step 3, for steps 1 and 2 override it (R340). -/
def issueSlot (p : PseudoChannel) (ageLimit pdIdle : Nat) : PseudoChannel × Option Nat :=
  let ns := slotNs p
  match p.due with
  | (b, row) :: rest => (slotPasses (burstTo { p with due := rest } b row) ns, none)
  | [] =>
    match chooseBurst p ageLimit with
    | none => (slotPasses p ns, none)
    | some (i, how) =>
      let r := p.req i
      let last := r.bursts ≤ 1
      let q := if last then p.queue.eraseIdx i else p.queue.set i { r with bursts := r.bursts - 1, aged := r.aged || how == 1 }
      let p := burstTo p r.bank r.row
      let p := { p with
        queue := q
        since := (List.range 4).map (fun c => if c == r.sclass then 0 else p.since.getD c 0 + 1)
        writing := if how == 3 then r.write else p.writing
        batch := if how != 3 then p.batch else if !r.write then 0 else (if p.writing then p.batch else 0) + b2n last
        aged := if how == 1 && !r.aged then satInc 32 p.aged else p.aged
        floored := if how == 2 then satInc 32 p.floored else p.floored }
      let p := idleBank (slotPasses p ns) r.bank
      (if p.queue.isEmpty then { p with pdIdle := pdIdle } else p, if last then r.wipes else none)

/-- Pool offset of 256-byte block `b` of a pseudo-channel (R336). -/
def blockAt (t k b : Nat) : Nat := b * 131072 + t * 4096 + k * 256

/-- The next wipe write of a pseudo-channel enters its queue once the last has left it: service class 3, as a home write (R104, R337). -/
def feedWipe (t k : Nat) (p : PseudoChannel) : PseudoChannel :=
  if p.queued (fun r => r.wipes.isSome) || 64 ≤ p.queue.length then p
  else
    match p.wipes with
    | (g, b, e) :: rest =>
      if e ≤ b then { p with wipes := rest }
      else
        let a := blockAt t k b
        { p with
          wipes := if b + 1 < e then (g, b + 1, e) :: rest else rest, pd := false
          queue := p.queue ++ [{ write := true, home := true, sclass := 3, bank := bankOf a, row := rowOf a, bursts := 8, wipes := some b }]
          queueHigh := Nat.max p.queueHigh (p.queue.length + 1) }
    | [] => p

/-- Every pseudo-channel begins to wipe its share of the granules from `g0` to before `g1` for a region: 16 blocks of each (R103). -/
def startWipe (h : Hw) (id g0 g1 : Nat) : Hw :=
  forBelow 32 (fun t h => forBelow 16 (fun k h => modPc h t k fun p => feedWipe t k { p with wipes := p.wipes ++ [(id, 16 * g0, 16 * g1)] }) h) h

/-- The wipe of a region is over in every pseudo-channel. -/
def endWipe (h : Hw) (id g0 g1 : Nat) : Hw :=
  forBelow 32 (fun t h => forBelow 16 (fun k h => modPc h t k fun p => feedWipe t k { p with
    wipes := p.wipes.filter (fun w => w.1 != id)
    queue := p.queue.filter (fun r => match r.wipes with | some b => !(16 * g0 ≤ b && b < 16 * g1) | none => true) }) h) h

/-- Requests that waited upstream enter the queue while it has entries that they may use (R337). -/
def refill (x : Slice) (k : Nat) : Slice :=
  x.upstream.foldl (fun x kr =>
    if kr.1 != k then { x with upstream := x.upstream ++ [kr] }
    else
      let p := x.pc k
      let free := p.queue.length < 64 && (kr.2.home || (p.queue.filter (fun q => !q.home)).length < 48)
        && !x.upstream.any (fun u => u.1 == k && u.2.home == kr.2.home)
      if free then x.setPc k { p with queue := p.queue ++ [kr.2], queueHigh := Nat.max p.queueHigh (p.queue.length + 1) }
      else { x with upstream := x.upstream ++ [kr] }) { x with upstream := [] }

/-- A slot of pseudo-channel `k` of slice `t`, and the block that a wipe write zeroes in it. While it retrains it serves nothing, and what
waits grows older (R353). -/
def mcsSlot (h : Hw) (t k : Nat) : Hw × Option Nat :=
  let x := h.slice t
  let p := x.pc k
  if p.serves && !h.clk.loss then
    let (p, z) := issueSlot p x.ageLimit x.pdIdle
    (h.setSlice t (refill (x.setPc k (feedWipe t k p)) k), z)
  else if p.state == 4 then (h.setSlice t (x.setPc k (slotPasses p (if p.back == 3 then 1 else 2))), none)
  else (h, none)

/-- A slot; the 256 bytes of a wipe write become zero and clean (R103, R365). -/
def slotIssued (t k : Nat) (s : State) : State :=
  let (h, z) := mcsSlot s.hw t k
  let s := { s with hw := h }
  match z with
  | some b => s.onPool fun p => p.wipe (blockAt t k b) (blockAt t k b + 256)
  | none => s
def execMcsSlotIssue (slice : Fin 32) (pc : Fin 16) (s : State) : Result := .next (slotIssued slice.val pc.val s)

/-! ### Refresh, power-down, rows (R340, R343–R346) -/

/-- tREFI at the stack's temperature, in ns (R343). -/
def trefiAt (h : Hw) (t : Nat) : Nat := if KMap.get h.mems.temps (t / 4) ≤ 85 then 3900 else 1950

/-- A refresh falls due for a bank (R344): issued at once while the bank is idle, postponed below REF_POSTPONE, else a catch-up
that closes the row. The bank's next interval takes the settings now in force (R343, R358); power-down is left and entered
again if nothing is queued (R346). -/
def refreshDue (p : PseudoChannel) (b trefi postpone : Nat) : PseudoChannel :=
  let x := p.bank b
  let debt := x.debt + 1
  let p := { p with debtHigh := Nat.max p.debtHigh (Nat.min debt 8), pdEntries := if p.pd then satInc 32 p.pdEntries else p.pdEntries }
  let x := { x with trefi := trefi, postpone := postpone }
  if !p.queued (fun r => r.bank == b) then p.setBank b { x with debt := 0, busy := x.busy + refreshNs * debt }
  else if debt < (p.bank b).postpone then p.setBank b { x with debt := debt }
  else
    let p := if (p.bank b).postpone == 0 then p else { p with catchups := satInc 32 p.catchups }
    p.setBank b { x with debt := 0, row := none, run := 0, busy := x.busy + refreshNs * debt }
def mcsRefresh (h : Hw) (t k b : Nat) : Hw :=
  let x := h.slice t
  if (x.pc k).serves then h.setSlice t (x.setPc k (refreshDue (x.pc k) b (trefiAt h t) x.postpone)) else h
def execRefreshDue (slice : Fin 32) (pc : Fin 16) (bank : Fin 64) (s : State) : Result :=
  .next (s.onHw fun h => mcsRefresh h slice.val pc.val bank.val)

/-- The stack asks for refresh management of a bank: RFM is issued, and the debt stays (R345). -/
def execRfmRequest (slice : Fin 32) (pc : Fin 16) (_bank : Fin 64) (s : State) : Result :=
  .next (s.onHw fun h => modPc h slice.val pc.val fun p => { p with rfms := satInc 32 p.rfms })

/-- A row that has had no burst for 100 ns closes (R340). -/
def execRowCloseTimer (slice : Fin 32) (pc : Fin 16) (bank : Fin 64) (s : State) : Result :=
  .next (s.onHw fun h => modPc h slice.val pc.val fun p => p.setBank bank.val { p.bank bank.val with row := none, run := 0 })

/-- The stack reports its temperature, 0–255 °C; tREFI follows from each bank's next interval (R343, R359). -/
def execStackTemperatureChange (stack : Fin 8) (temp : Nat) (s : State) : Result :=
  .next (s.onHw fun h => { h with mems := { h.mems with temps := KMap.set h.mems.temps stack.val (Nat.min temp 255) } })

/-- PD_IDLE with nothing queued and nothing owed: power-down (R346). -/
def powerDown (p : PseudoChannel) : PseudoChannel :=
  if p.serves && p.pdIdle != 0 && p.queue.isEmpty && !p.pd then { p with pd := true, pdEntries := satInc 32 p.pdEntries } else p
def execPowerDownEntry (slice : Fin 32) (pc : Fin 16) (s : State) : Result :=
  .next (s.onHw fun h => modPc h slice.val pc.val powerDown)

/-! ### Hot words (R356) -/

/-- A hot pair is written to DRAM, from its home's own data (R356). -/
def hotWritten (h : Hw) (unit : Nat) : Hw :=
  let t := tileOf (16 * unit)
  let h := h.setSlice t { h.slice t with hot := (h.slice t).hot.filter (fun u => u != unit) }
  enqueueWords h true false 0 [2 * unit, 2 * unit + 1]

/-- An atomic at `a` has been executed (R356, R359): its pair becomes the most recently used hot word, the 65th is written to DRAM, and
the atomic is counted, with its hit. A pair that holds a poisoned word never becomes hot: its result goes to DRAM. -/
def atomicDone (h : Hw) (sclass a : Nat) (hit poison : Bool) : Hw :=
  let t := tileOf a
  let u := a / 16
  let h := modPc h t (pcOf a) fun p => { p with atomics := satInc 32 p.atomics, hotHits := if hit then satInc 32 p.hotHits else p.hotHits }
  if poison && !hit then enqueueWords h true false sclass [a / 8]
  else
    let h := h.setSlice t { h.slice t with hot := u :: (h.slice t).hot.filter (fun w => w != u) }
    forAll ((h.slice t).hot.drop 64) (fun w h => hotWritten h w) h

/-- A hot word without an atomic for 1 µs is written to DRAM (R356); pool memory already holds what it was. -/
def hotWordIdle (h : Hw) (t word : Nat) : Hw :=
  if (h.slice t).hot.contains word && tileOf (16 * word) == t then hotWritten h word else h
def execHotWordWriteBack (slice : Fin 32) (word : Nat) (s : State) : Result :=
  .next (s.onHw fun h => hotWordIdle h slice.val word)

/-! ### Training (R348–R353) -/

/-- The longest run among the low `n` bits of `m`: its first bit and length; the first of equal ones. -/
def longestRun (n m : Nat) : Nat × Nat :=
  let r := (List.range n).foldl (fun (a : (Nat × Nat) × Nat) i =>
    if tbit m i then
      let len := a.2 + 1
      if a.1.2 < len then ((i + 1 - len, len), len) else (a.1, len)
    else (a.1, 0)) ((0, 0), 0)
  r.1

/-- A lane's centre (R349): vref, delay, width and height; none = the lane fails. -/
def centre (passes : List Word) : Option (Nat × Nat × Nat × Nat) :=
  let runs := passes.map (fun m => longestRun 64 m.toNat)
  let (v0, n) := longestRun passes.length (packBits (runs.map (fun r => 20 ≤ r.2)))
  if n == 0 then none
  else
    let v := v0 + (n - 1) / 2
    let (d0, w) := runs.getD v (0, 0)
    some (v, d0 + (w - 1) / 2, w, n)

/-- The centre of a lane that passes a full sweep (R350): width at least 20 and height at least 8. -/
def lanePasses (passes : List Word) : Option (Nat × Nat × Nat × Nat) :=
  match centre passes with
  | some (v, d, w, n) => if 20 ≤ w && 8 ≤ n then some (v, d, w, n) else none
  | none => none

/-- Put a lane's eye into the pseudo-channel's record (R359): 8 bits a lane. -/
def setLane8 (x lane v : Nat) : Nat := x - fld x (8 * lane) 8 * 2 ^ (8 * lane) + v % 256 * 2 ^ (8 * lane)

/-- A full sweep of one byte lane (R349, R350): its second sweep counts where the first fails and bits were remapped. -/
def sweepLane (p : PseudoChannel) (w : Sweep) : PseudoChannel × Bool :=
  let first := lanePasses w.passes
  let r := match first with
    | some r => some r
    | none => if w.remapped == 0 then none else lanePasses w.again
  let p := if first.isNone then { p with repaired := satAdd 8 p.repaired w.remapped } else p
  match r with
  | some (v, d, wd, ht) => ({ p with
      eyeW := setLane8 p.eyeW (w.lane % 4) wd, eyeH := setLane8 p.eyeH (w.lane % 4) ht, centres := KMap.set p.centres w.lane (v, d) }, true)
  | none => (p, false)

/-- A quick sweep of one byte lane at its present vref, whose passing delays are the sweep's one mask: it passes with a width of at least
20, and takes the new delay (R349, R352). -/
def quickLane (p : PseudoChannel) (w : Sweep) : PseudoChannel × Bool :=
  let (d0, n) := longestRun 64 (w.passes.headD 0).toNat
  if 20 ≤ n then ({ p with
      eyeW := setLane8 p.eyeW (w.lane % 4) n
      centres := KMap.set p.centres w.lane ((KMap.get p.centres w.lane).1, d0 + (n - 1) / 2) }, true)
  else (p, false)

/-- Every sweep of one pseudo-channel; a lane that is not listed passed. -/
def sweepAll (one : PseudoChannel → Sweep → PseudoChannel × Bool) (p : PseudoChannel) (ws : List Sweep) : PseudoChannel × Bool :=
  ws.foldl (fun a w => let (p, ok) := one a.1 w; (p, a.2 && ok)) (p, true)

/-- Stack pseudo-channel of a local one (R336). -/
def stackPc (t k : Nat) : Nat := 16 * (t % 4) + k

/-- MCS_TRAIN_FAIL of a slice (R350, R352). -/
def trainFail (h : Hw) (t k : Nat) : Hw := raise h (16 * t + 9) (stackPc t k)

/-- MEM.RETRAIN ends once no named pseudo-channel retrains: one byte for each, 0 PASS or 1 FAIL, in ascending order
(R352, log entry 20). -/
def settleRetrain (h : Hw) : Hw :=
  forAll (workers h 0x803) (fun m h =>
    match workOf h m 0x803 with
    | none => h
    | some w =>
      if w.waits.isEmpty then
        answer h m (Reply.ok (items [.bytes ((w.args.drop 1).map fun i => BitVec.ofNat 8 (b2n ((h.slice (i / 16)).pc (i % 16)).lastFail))]))
      else h) h

/-- The retrain under way of a pseudo-channel is a full one (R352). -/
def retrainsFully (h : Hw) (t k : Nat) : Bool :=
  h.mbxOrder.any fun m => match workOf h m 0x803 with
    | some w => w.waits.contains (16 * t + k) && w.args.headD 0 == 1
    | none => false

/-- MEM.RETRAIN no longer waits for a pseudo-channel. -/
def retrainLeft (h : Hw) (t k : Nat) : Hw :=
  forAll (workers h 0x803) (fun m h =>
    match workOf h m 0x803 with
    | some w => setWork h m 0x803 (w.waits.filter (fun i => i != 16 * t + k)) w.args
    | none => h) h

/-- A retrain of a pseudo-channel ends (R352, R353): a quick one keeps every old setting when a lane fails; a full one leaves the
pseudo-channel FAILED then, with the lanes that it remapped (R350). It serves again at its former rate, and the requests that waited go on. -/
def retrainDone (h : Hw) (t k : Nat) (ws : List Sweep) : Hw :=
  let p := (h.slice t).pc k
  if p.state != 4 then h
  else
    let full := retrainsFully h t k
    let (q, ok) := sweepAll (if full then sweepLane else quickLane) p ws
    let kept := if ok then q else if full then { p with repaired := q.repaired } else p
    let h := modPc h t k fun _ => { kept with
      state := if full && !ok then 5 else p.back, lastFail := !ok, retrains := satInc 32 p.retrains }
    let h := if ok then h else trainFail h t k
    settleRetrain (retrainLeft h t k)

/-- A pseudo-channel leaves service for a retrain: every refresh owed is issued first (R353). -/
def startRetrain (p : PseudoChannel) : PseudoChannel :=
  { p with back := p.state, state := 4, pd := false, banks := p.banks.map (fun b => (b.1, { b.2 with debt := 0, row := none, run := 0, busy := 0 })) }

/-- MEM.RETRAIN (R352). -/
def memRetrain (q : Req) (h : Hw) : Hw × Option Reply :=
  let ids := (bitsOf 64 (q.p 1)).map (fun i => 16 * (4 * q.p 0 + i / 16) + i % 16)
  let pcs := ids.map (fun i => (h.slice (i / 16)).pc (i % 16))
  if ids.isEmpty then (h, some (Reply.denied rRange))
  else if pcs.any (fun p => p.state == 5 || p.state == 0 || p.state == 6) then (h, some (Reply.denied rState))
  else if q.p 2 == 1 && ids.any (fun i => (h.slice (i / 16)).enabled) then (h, some (Reply.busy rState))
  else if pcs.any (fun p => p.state == 4) then (h, some (Reply.busy rState))
  else (setWork (forAll ids (fun i h => modPc h (i / 16) (i % 16) startRetrain) h) q.m 0x803 ids (q.p 2 :: ids), none)
def execMemRetrain (m : Fin 16) (s : State) : Result :=
  .next (runHw s m.val 0x803 [.f 3, .f 64, .f 1] false memRetrain)

/-! ### MEM.CONFIG and MEM.QUERY (R358, R359) -/

def execMemConfig (m : Fin 16) (s : State) : Result :=
  .next (runHw s m.val 0x801 [.f 32, .f 16, .f 20, .f 4] false fun q h =>
    if q.p 0 == 0 || q.p 1 < 250 || 65000 < q.p 1 || !(q.p 2 == 0 || (100 ≤ q.p 2 && q.p 2 ≤ 1000000)) || 8 < q.p 3 then
      (h, some (Reply.denied rRange))
    else (forAll (bitsOf 32 (q.p 0)) (fun t h =>
      h.setSlice t { h.slice t with ageLimit := q.p 1, pdIdle := q.p 2, postpone := q.p 3 }) h, some (Reply.ok)))

/-- A pseudo-channel record of MEM.QUERY (R359). -/
def pcRecord (p : PseudoChannel) : List Byte :=
  recordBytes 64 [(3, p.state), (1, b2n p.pd), (1, b2n p.lastFail), (3, 0), (8, p.repaired), (32, p.eyeW), (32, p.eyeH),
    (8, p.debtHigh), (8, p.queueHigh), (32, p.catchups), (32, p.aged), (32, p.floored), (32, p.pdEntries), (32, p.merges),
    (32, p.atomics), (32, p.hotHits), (32, p.rfms), (32, p.retrains)]

/-- The header of MEM.QUERY and its 16 records (R359). -/
def memRecord (h : Hw) (t : Nat) : List Byte :=
  let x := h.slice t
  recordBytes 64 [(5, t), (3, t / 4), (8, KMap.get h.mems.temps (t / 4)), (16, trefiAt h t), (16, x.ageLimit), (4, x.postpone),
    (12, 0), (20, x.pdIdle)] ++ ((List.range 16).map (fun k => pcRecord (x.pc k))).flatten

def execMemQuery (m : Fin 16) (s : State) : Result :=
  .next (runHw s m.val 0x802 [.f 8] false fun q h =>
    if 31 < q.p 0 then (h, some (Reply.denied rRange)) else (h, some (Reply.ok (memRecord h (q.p 0)))))

end Sys2Proof.Machine
end

