-- ==== Sys2Proof/Machine/Activity.lean ====
section
/-!
DEFINITION. What the blocks are doing, as the clock, power and self-test rules ask (R588, R590, R617, R566).
-/
namespace Sys2Proof.Machine
open Sys2Proof

/-- Descriptors of a queue that execute (R245). -/
def Queue.executing (q : Queue) : List (Nat × Exec) := q.execs.filter (fun e => e.2.started)
/-- Queues that a tile serves. -/
def queuesOn (h : Hw) (t : Nat) : List (Nat × Queue) := h.queues.filter (fun q => q.2.tile == t)
/-- A tile's compute part is not quiescent: a descriptor executes or a request to the home part is outstanding (R588). -/
def tileBusy (h : Hw) (t : Nat) : Bool :=
  (queuesOn h t).any (fun q => !q.2.executing.isEmpty || q.2.execs.any (fun e => !e.2.fetch.isEmpty))
/-- A collective group is active (R588, R590). -/
def groupActive (h : Hw) : Bool := !h.colls.isEmpty
/-- A descriptor executes, or a collective instance is open (R617). -/
def descriptorExecuting (h : Hw) : Bool := h.queues.any (fun q => !q.2.executing.isEmpty)
def instanceOpen (h : Hw) : Bool := h.colls.any (fun g => g.2.inst.isSome)
/-- A context is bound; a queue exists; a queue runs on tile `t` (R617, R566). -/
def contextBound (h : Hw) : Bool := h.contexts.any (fun c => c.2.bound)
def queueExists (h : Hw) : Bool := !h.queues.isEmpty
def tileServes (h : Hw) (t : Nat) : Bool := !(queuesOn h t).isEmpty

/-- The module serves an object of a service: always out of a pair, else while it is active for it (R486). -/
def runsFor (h : Hw) (service : Nat) : Bool := service == 0 || (activeServices h).contains service

end Sys2Proof.Machine
end

