-- ==== Sys2Proof/Machine/Fp.lean ====
section
/-!
DEFINITION. Binary floating point by exact arithmetic: a finite value is an integer times a power of two, and a result is
rounded once (IEEE 754-2019 as R130 and chapter 06 use it).
-/
namespace Sys2Proof.Machine
open Sys2Proof

/-- An exact value `m × 2^e`. -/
structure Dyadic where
  m : Int := 0
  e : Int := 0
deriving DecidableEq, Repr, Inhabited

/-- `m × 2^k` for a power that is not negative, else zero; used where the power is known not to be negative. -/
def shiftUp (m : Int) (k : Int) : Int := m * (2 ^ k.toNat : Nat)

/-- Both values over the smaller exponent. -/
def Dyadic.align (a b : Dyadic) : Int × Int × Int :=
  let e := min a.e b.e
  (shiftUp a.m (a.e - e), shiftUp b.m (b.e - e), e)

def Dyadic.add (a b : Dyadic) : Dyadic := let (x, y, e) := Dyadic.align a b; { m := x + y, e := e }
def Dyadic.mul (a b : Dyadic) : Dyadic := { m := a.m * b.m, e := a.e + b.e }
def Dyadic.neg (a : Dyadic) : Dyadic := { a with m := -a.m }
def Dyadic.scale (a : Dyadic) (k : Int) : Dyadic := { a with e := a.e + k }
/-- Order of two values: negative, zero or positive. -/
def Dyadic.diff (a b : Dyadic) : Int := let (x, y, _) := Dyadic.align a b; x - y
def Dyadic.lt (a b : Dyadic) : Bool := Dyadic.diff a b < 0

/-- Position of the leading one of a non-zero value: floor of the binary logarithm of its magnitude. -/
def Dyadic.log (a : Dyadic) : Int := (Nat.log2 a.m.natAbs : Int) + a.e

/-- Magnitude of `a` in units of `2^q`, rounded to nearest, ties to even. -/
def Dyadic.nearestEven (a : Dyadic) (q : Int) : Nat :=
  if q ≤ a.e then a.m.natAbs * 2 ^ (a.e - q).toNat
  else
    let d := 2 ^ (q - a.e).toNat
    let n := a.m.natAbs / d
    let r := a.m.natAbs % d
    if 2 * r < d then n else if d < 2 * r then n + 1 else n + n % 2

/-- A value of an IEEE binary format as it is decoded. -/
inductive Fp where
  /-- a finite value; a zero keeps its sign -/
  | fin (neg : Bool) (v : Dyadic)
  | inf (neg : Bool)
  | nan
deriving DecidableEq, Repr, Inhabited

/-- FP32 code of the one quiet NaN (R130). -/
def nan32 : Nat := 0x7FC00000

/-- Decode FP32. -/
def decode32 (c : Nat) : Fp :=
  let s := tbit c 31
  let e := fld c 23 8
  let f := fld c 0 23
  if e == 255 then (if f == 0 then .inf s else .nan)
  else
    let m : Int := if e == 0 then (f : Nat) else ((f + 2 ^ 23 : Nat) : Int)
    .fin s { m := if s then -m else m, e := (if e == 0 then (-149 : Int) else (e : Int) - 150) }

/-- Encode an exact value in FP32, to nearest even, subnormals kept, overflow to infinity; `neg` is the sign of a zero. -/
def round32 (neg : Bool) (v : Dyadic) : Nat :=
  let s := if v.m == 0 then neg else v.m < 0
  let sb := if s then 2 ^ 31 else 0
  if v.m == 0 then sb
  else
    let q := max (Dyadic.log v - 23) (-149)
    let n := Dyadic.nearestEven v q
    let (n, q) := if n == 2 ^ 24 then (2 ^ 23, q + 1) else (n, q)
    if n < 2 ^ 23 then sb + n
    else if 104 < q then sb + 255 * 2 ^ 23
    else sb + (q + 150).toNat * 2 ^ 23 + (n - 2 ^ 23)

/-- FP32 addition, rounded once to nearest even (R130). -/
def add32 (a b : Nat) : Nat :=
  match decode32 a, decode32 b with
  | .nan, _ => nan32
  | _, .nan => nan32
  | .inf s, .inf t => if s == t then (if s then 0xFF800000 else 0x7F800000) else nan32
  | .inf s, .fin _ _ => if s then 0xFF800000 else 0x7F800000
  | .fin _ _, .inf s => if s then 0xFF800000 else 0x7F800000
  | .fin s x, .fin t y => round32 (s && t && x.m == 0 && y.m == 0) (Dyadic.add x y)

end Sys2Proof.Machine
end

