-- ==== Sys2Proof/Machine/Formats.lean ====
section
/-!
DEFINITION. Number formats (chapter 06): the fifteen encodings, how a row of elements, scales and sidecars is read (R174–R192),
and how exact values are rounded and written (R185–R202). A value is exact until the one rounding of R193.
-/
namespace Sys2Proof.Machine
open Sys2Proof

/-! ### Exact quotients -/

/-- An exact value `n ÷ d × 2^e`. -/
structure Ratio where
  n : Int := 0
  d : Nat := 1
  e : Int := 0
deriving DecidableEq, Repr, Inhabited

def Ratio.ofDyadic (v : Dyadic) : Ratio := { n := v.m, e := v.e }
/-- The quotient by a non-zero dyadic value. -/
def Ratio.quot (a : Ratio) (v : Dyadic) : Ratio :=
  { n := if v.m < 0 then -a.n else a.n, d := a.d * v.m.natAbs, e := a.e - v.e }
def Ratio.scale (a : Ratio) (k : Int) : Ratio := { a with e := a.e + k }
/-- Magnitude in units of `2^q`: its floor, and the remainder over its divisor. -/
def Ratio.floorAt (a : Ratio) (q : Int) : Nat × Nat × Nat :=
  let x := a.n.natAbs * 2 ^ (a.e - q).toNat
  let y := a.d * 2 ^ (q - a.e).toNat
  (x / y, x % y, y)
/-- Floor of the binary logarithm of a non-zero magnitude. -/
def Ratio.log (a : Ratio) : Int :=
  let l : Int := (Nat.log2 a.n.natAbs : Int) - (Nat.log2 a.d : Int)
  (if a.n.natAbs * 2 ^ (-l).toNat < a.d * 2 ^ l.toNat then l - 1 else l) + a.e
/-- Ceiling of the binary logarithm of a non-zero magnitude. -/
def Ratio.ceilLog (a : Ratio) : Int :=
  let l := Ratio.log a
  if (Ratio.floorAt a l).2.1 == 0 then l else l + 1
/-- Whether the magnitude of `a` is below that of `b`. -/
def Ratio.absLt (a b : Ratio) : Bool :=
  let e := min a.e b.e
  a.n.natAbs * 2 ^ (a.e - e).toNat * b.d < b.n.natAbs * 2 ^ (b.e - e).toNat * a.d
/-- Order of two values. -/
def Ratio.diff (a b : Ratio) : Int :=
  let e := min a.e b.e
  a.n * (2 ^ (a.e - e).toNat * b.d : Nat) - b.n * (2 ^ (b.e - e).toNat * a.d : Nat)

/-- A value to be written: finite (a zero keeps its sign), infinite, or NaN. -/
inductive Num where
  | fin (neg : Bool) (v : Ratio)
  | inf (neg : Bool)
  | nan
deriving DecidableEq, Repr, Inhabited

def Fp.num : Fp → Num
  | .fin s v => .fin s (Ratio.ofDyadic v)
  | .inf s => .inf s
  | .nan => .nan

/-- A finite value with the sign of its number; zero takes `neg`. -/
def Fp.ofDyadic (neg : Bool) (v : Dyadic) : Fp := .fin (if v.m == 0 then neg else v.m < 0) v

/-- Exact product (R211): an infinity by a zero is NaN. -/
def Fp.mul : Fp → Fp → Fp
  | .nan, _ => .nan
  | _, .nan => .nan
  | .inf s, .inf t => .inf (s != t)
  | .inf s, .fin t v => if v.m == 0 then .nan else .inf (s != t)
  | .fin s v, .inf t => if v.m == 0 then .nan else .inf (s != t)
  | .fin s v, .fin t w => .fin (s != t) (Dyadic.mul v w)

/-! ### Format fields (R183) -/

def fElem (f : Nat) : Nat := fld f 0 4
def fScale (f : Nat) : Nat := fld f 4 2
def fCeil (f : Nat) : Bool := tbit f 6
def fSide (f : Nat) : Bool := tbit f 7
def fRound (f : Nat) : Nat := fld f 8 3
def fOvf (f : Nat) : Bool := tbit f 11
def fFtz (f : Nat) : Bool := tbit f 12

/-- Bits per element (R174); TERN is packed by the byte. -/
def elemBits (e : Nat) : Nat := [32, 16, 16, 8, 8, 6, 6, 4, 8, 4, 2, 4, 3, 0, 8].getD e 8
/-- Elements come in blocks of 32 (R182). -/
def blocked (f : Nat) : Bool := elemBits (fElem f) < 8 || fScale f != 0 || fSide f
/-- Bytes of a row of `n` elements (R181). -/
def rowBytes (e n : Nat) : Nat := if e == 13 then (n + 31) / 32 * 7 else (n * elemBits e + 7) / 8
/-- Scale bytes of a row (R182). -/
def scaleBytes (f n : Nat) : Nat := if fScale f == 1 then (n + 31) / 32 else if fScale f == 2 then (n + 15) / 16 else 0
/-- Sidecar bytes of a row (R182). -/
def sideBytes (f n : Nat) : Nat := if fSide f then (n + 31) / 32 * 8 else 0
/-- Byte of a row where element `i` starts, and the first bit in it; for TERN the trit position (R181, R200). -/
def elemPlace (e i : Nat) : Nat × Nat :=
  if e == 13 then (i / 32 * 7 + i % 32 / 5, i % 32 % 5) else (i * elemBits e / 8, i * elemBits e % 8)

/-- Exponent bits, mantissa bits and bias of a float encoding (R175). -/
def floatShape (e : Nat) : Nat × Nat × Nat :=
  [(8, 23, 127), (5, 10, 15), (8, 7, 127), (4, 3, 7), (5, 2, 15), (3, 2, 3), (2, 3, 1), (2, 1, 1)].getD e (8, 23, 127)
/-- Whether the encoding has infinities (R176). -/
def hasInf (e : Nat) : Bool := e == 0 || e == 1 || e == 2 || e == 4
/-- Code of the largest finite magnitude. -/
def maxCode (e : Nat) : Nat := [0x7F7FFFFF, 0x7BFF, 0x7F7F, 0x7E, 0x7B, 0x1F, 0x1F, 0x7].getD e 0
/-- NaN that the module writes (R176). -/
def nanCode (e : Nat) : Option Nat := [some 0x7FC00000, some 0x7E00, some 0x7FC0, some 0x7F, some 0x7E].getD e none

/-- A format field that R184 refuses apart from geometry and codebook; `dest` tells a destination (R183). -/
def badFormat (f t : Nat) (dest : Bool) : Bool :=
  fElem f == 15 || fScale f == 3 || 4 < fRound f || fld f 13 19 != 0
    || (3 ≤ fElem f && fElem f ≤ 7 && fScale f == 0)
    || ((fElem f ≤ 2 || fElem f == 14) && (fScale f != 0 || fSide f))
    || (fScale f == 2 && (tbit t 31 || fld t 23 8 == 0 || fld t 23 8 == 255))
    || (!dest && (fRound f != 0 || fOvf f))

/-! ### Reading (R175–R192) -/

/-- Value of a float code (R175, R176). -/
def decodeFloat (e c : Nat) : Fp :=
  let (eb, mb, bias) := floatShape e
  let s := tbit c (eb + mb)
  let x := fld c mb eb
  let m := fld c 0 mb
  if hasInf e && x == 2 ^ eb - 1 then (if m == 0 then .inf s else .nan)
  else if e == 3 && fld c 0 7 == 127 then .nan
  else
    let v := if x == 0 then m else m + 2 ^ mb
    .fin s { m := if s then -(v : Int) else v, e := (if x == 0 then 1 else (x : Int)) - bias - mb }

/-- Value of an element code before its scale (R175–R180): format field and codebook (FP16 codes). A TERN code is a digit. -/
def decodeElem (f : Nat) (cb : List Nat) (c : Nat) : Fp :=
  let e := fElem f
  let int := fun (w : Nat) => let v := toInt w c; Fp.ofDyadic false { m := v }
  if e ≤ 7 then
    (match decodeFloat e c with
     | .fin s v =>
       let (eb, mb, _) := floatShape e
       if fFtz f && fld c mb eb == 0 then .fin s {} else .fin s v
     | r => r)
  else if e == 8 then (if fScale f == 1 then Fp.ofDyadic false { m := toInt 8 c, e := -6 } else int 8)
  else if e == 9 then int 4
  else if e == 10 then int 2
  else if e == 13 then Fp.ofDyadic false { m := (c : Int) - 1 }
  else if e == 14 then (if c == 255 then .nan else .fin false { m := 1, e := (c : Int) - 127 })
  else decodeFloat 1 (cb.getD c 0)

/-- Codes of a row of `n` elements (R181); an invalid TERN byte gives zeros and marks its elements (R179). -/
def rowCodes (e n : Nat) (bs : List Byte) : List (Nat × Bool) :=
  if e == 13 then
    (List.range n).map fun i =>
      let b := (bs.getD (i / 32 * 7 + i % 32 / 5) 0).toNat
      if 243 ≤ b then (1, true) else (b / 3 ^ (i % 32 % 5) % 3, false)
  else
    let w := elemBits e
    (List.range n).map fun i =>
      let p := i * w / 8
      (fld (leNat ((bs.drop p).take ((i * w % 8 + w + 7) / 8))) (i * w % 8) w, false)

/-- Value of a sidecar for element `i` of its block, if a valid entry names it (R189, R190). -/
def sidecarOf (rec' i : Nat) : Option Fp :=
  if tbit rec' 21 && fld rec' 16 5 == i then some (decodeFloat 1 (fld rec' 0 16))
  else if tbit rec' 53 && fld rec' 48 5 == i then some (decodeFloat 1 (fld rec' 32 16))
  else none

/-- D of a TL16 half-block: its scale code by T, rounded once (R187). -/
def tl16Scale (code t : Nat) : Fp :=
  match decodeFloat 3 code, decode32 t with
  | .fin s x, .fin _ y => if s || tbit code 7 then .nan else decode32 (round32 false (Dyadic.mul x y))
  | _, _ => .nan

/-- Scale of an element (R185, R187). -/
def scaleOf (f t i : Nat) (scales : List Byte) : Option Fp :=
  if fScale f == 1 then
    let c := (scales.getD (i / 32) 0).toNat
    some (if c == 255 then .nan else .fin false { m := 1, e := (c : Int) - 127 })
  else if fScale f == 2 then some (tl16Scale (scales.getD (i / 16) 0).toNat t)
  else none

/-- The value of a scaled element; a TL16 scale of code 0 makes every element zero, whatever its code (R187). -/
def applyScale (tl16 : Bool) (v d : Fp) : Fp :=
  match d with
  | .fin _ x =>
    if tl16 && x.m == 0 then (match v with | .fin s _ => .fin s {} | .inf s => .fin s {} | .nan => .fin false {})
    else Fp.mul v d
  | _ => Fp.mul v d

/-- Read a row: the exact value of each of `n` elements (R192), and the FLUSH events of R179. -/
def decodeRow (f : Nat) (cb : List Nat) (t n : Nat) (elems scales sides : List Byte) : List Fp × Nat :=
  let r := (List.zip (List.range n) (rowCodes (fElem f) n elems)).map fun (p : Nat × Nat × Bool) =>
    let i := p.1
    let sc := if fSide f then sidecarOf (leNat ((sides.drop (i / 32 * 8)).take 8)) (i % 32) else none
    match sc with
    | some v => (v, false)
    | none =>
      let v := decodeElem f cb p.2.1
      (match scaleOf f t i scales with
       | none => v
       | some .nan => .nan
       | some d => applyScale (fScale f == 2) v d, p.2.2)
  (r.map Prod.fst, (r.filter Prod.snd).length)

/-! ### Rounding (R193–R202) -/

/-- What an element is written as, and its range events (R198). -/
structure Written where
  code : Nat := 0
  sat : Bool := false
  flush : Bool := false
deriving DecidableEq, Repr, Inhabited

/-- Whether a magnitude goes up from its floor (R194, R199): mode, sign, draw, remainder over divisor, floor odd. -/
def goesUp (mode : Nat) (neg : Bool) (draw r y : Nat) (odd : Bool) : Bool :=
  if r == 0 then false
  else if mode == 0 then y < 2 * r || (2 * r == y && odd)
  else if mode == 1 then false
  else if mode == 2 then !neg
  else if mode == 3 then neg
  else if neg then 65536 * (y - r) / y + draw < 65536
  else 65536 ≤ 65536 * r / y + draw

/-- Write into a float encoding (R193–R198). -/
def encodeFloat (e mode : Nat) (ovf ftz : Bool) (draw : Nat) (v : Num) : Written :=
  let (eb, mb, bias) := floatShape e
  let sb := fun (s : Bool) => if s then 2 ^ (eb + mb) else 0
  let outside := fun (s : Bool) =>
    let toInf := ovf && (mode == 0 || mode == 4 || (mode == 2 && !s) || (mode == 3 && s))
    let c := if toInf && hasInf e then sb s + (2 ^ eb - 1) * 2 ^ mb
      else if toInf && e == 3 then 0x7F else sb s + maxCode e
    ({ code := c, sat := true } : Written)
  match v with
  | .nan => (match nanCode e with | some c => { code := c } | none => { sat := true })
  | .inf s => if hasInf e then { code := sb s + (2 ^ eb - 1) * 2 ^ mb } else outside s
  | .fin s r =>
    if r.n == 0 then { code := sb s }
    else
      let s := r.n < 0
      let qmin : Int := 1 - (bias : Int) - mb
      let q := max (Ratio.log r - mb) qmin
      let (m, rem, y) := Ratio.floorAt r q
      let base := (q - qmin).toNat * 2 ^ mb
      let c := base + (if goesUp mode s draw rem y (m % 2 == 1) then m + 1 else m)
      if maxCode e < c || (mode == 4 && (maxCode e < base + m || (maxCode e == base + m && rem != 0))) then outside s
      else if c == 0 || (ftz && c < 2 ^ mb) then { code := sb s, flush := true }
      else { code := sb s + c }

/-- Write an integer of the range `lo` to `hi` in units of `2^q`; `enc` gives its code. -/
def encodeInt (lo hi q : Int) (enc : Int → Nat) (mode draw : Nat) (v : Num) : Written :=
  match v with
  | .nan => { code := enc 0, sat := true }
  | .inf s => { code := enc (if s then lo else hi), sat := true }
  | .fin _ r =>
    let s := r.n < 0
    let (m, rem, y) := Ratio.floorAt r q
    let k := if goesUp mode s draw rem y (m % 2 == 1) then m + 1 else m
    let i : Int := if s then -(k : Int) else k
    let beyond := if s then -(m : Int) < lo || (-(m : Int) == lo && rem != 0) else hi < (m : Int) || ((m : Int) == hi && rem != 0)
    if i < lo || (mode == 4 && s && beyond) then { code := enc lo, sat := true }
    else if hi < i || (mode == 4 && !s && beyond) then { code := enc hi, sat := true }
    else { code := enc i, flush := i == 0 && r.n != 0 }

/-- Write a power of two (R202). DESIGN CHOICE, log entry 34: a tie under RNE goes to 2^(k+1) for every k, as R202 says, although R194
has a tie go to the code with an even LSB; SR draws for a value between 2^127 and 2^128 too, so whether it saturates depends on the
draw. -/
def encodeE8M0 (mode draw : Nat) (v : Num) : Written :=
  match v with
  | .nan => { code := 0xFF, sat := true }
  | .inf s => if s then { code := 0xFF, sat := true } else { code := 0xFE, sat := true }
  | .fin _ r =>
    if r.n ≤ 0 then { code := 0xFF, sat := true }
    else
      let k := Ratio.log r
      let (_, rem, y) := Ratio.floorAt r k
      let up := if mode == 0 then y ≤ 2 * rem else goesUp mode false draw rem y false
      let k := if up then k + 1 else k
      if 127 < k then { code := 0xFE, sat := true }
      else if k < -127 then { code := 0, sat := true }
      else { code := (k + 127).toNat }

/-- The finite entries of a codebook: index and value. -/
def finiteEntries (cb : List Nat) : List (Nat × Ratio) :=
  (List.zip (List.range cb.length) cb).filterMap fun p =>
    match decodeFloat 1 p.2 with | .fin _ v => some (p.1, Ratio.ofDyadic v) | _ => none

/-- The lowest index that holds a value. -/
def entryOf (l : List (Nat × Ratio)) (v : Ratio) : Nat := ((l.find? (fun p => Ratio.diff p.2 v == 0)).getD (0, v)).1

/-- The entry of a codebook that a comparison prefers over every other. -/
def bestEntry (l : List (Nat × Ratio)) (better : Ratio → Ratio → Bool) : Option Ratio :=
  l.foldl (fun (m : Option Ratio) p => match m with | none => some p.2 | some x => if better p.2 x then some p.2 else some x) none

/-- Write a finite value among the finite entries of a codebook (R194, R195). DESIGN CHOICE, log entry 34: a non-zero value beyond
the entries that saturates to an end entry of zero raises SATURATE and no FLUSH (R198). -/
def encodeEntry (l : List (Nat × Ratio)) (mode draw : Nat) (r : Ratio) : Written :=
  let hi := (bestEntry l (fun a b => 0 < Ratio.diff a b)).getD {}
  let lo := (bestEntry l (fun a b => Ratio.diff a b < 0)).getD {}
  if 0 < Ratio.diff r hi then { code := entryOf l hi, sat := true }
  else if Ratio.diff r lo < 0 then { code := entryOf l lo, sat := true }
  else if l.any (fun p => Ratio.diff p.2 r == 0) then { code := entryOf l r }
  else
    let below := (bestEntry (l.filter (fun p => Ratio.diff p.2 r < 0)) (fun a b => 0 < Ratio.diff a b)).getD lo
    let above := (bestEntry (l.filter (fun p => 0 < Ratio.diff p.2 r)) (fun a b => Ratio.diff a b < 0)).getD hi
    -- (r − below) ÷ (above − below) as x ÷ y
    let e := min r.e (min below.e above.e)
    let up := fun (a : Ratio) => a.n * (2 ^ (a.e - e).toNat : Nat)
    let x := ((up r * (below.d : Int) - up below * (r.d : Int)) * (above.d : Int)).toNat
    let y := ((up above * (below.d : Int) - up below * (above.d : Int)) * (r.d : Int)).toNat
    let toHi :=
      if mode == 0 then y < 2 * x || (2 * x == y && entryOf l above < entryOf l below)
      else if mode == 1 then
        (if Ratio.absLt above below then true else if Ratio.absLt below above then false
         else Config.lutTie (entryOf l below) (entryOf l above))
      else if mode == 2 then true
      else if mode == 3 then false
      else 65536 ≤ 65536 * x / y + draw
    let w := if toHi then above else below
    { code := entryOf l w, flush := w.n == 0 && r.n != 0 }

/-- Write a codebook index (R194–R196). -/
def encodeLut (cb : List Nat) (mode draw : Nat) (v : Num) : Written :=
  let l := finiteEntries cb
  let special := fun (f : Fp → Bool) => (List.zip (List.range cb.length) cb).find? (fun p => f (decodeFloat 1 p.2))
  match v with
  | .nan =>
    (match special (fun x => x == .nan) with
     | some p => { code := p.1 }
     | none => { encodeEntry l mode draw {} with sat := true, flush := false })
  | .inf s =>
    (match special (fun x => x == .inf s) with
     | some p => { code := p.1 }
     | none =>
       let ends := if s then bestEntry l (fun a b => Ratio.diff a b < 0) else bestEntry l (fun a b => 0 < Ratio.diff a b)
       { code := entryOf l (ends.getD {}), sat := true })
  | .fin _ r => encodeEntry l mode draw r

/-- Write a value, already divided by its scale, in a destination format (R193). -/
def encodeElem (f : Nat) (cb : List Nat) (draw : Nat) (v : Num) : Written :=
  let e := fElem f
  let md := fRound f
  if e ≤ 7 then encodeFloat e md (fOvf f) (fFtz f) draw v
  else if e == 8 then encodeInt (-128) 127 (if fScale f == 1 then -6 else 0) (ofInt 8) md draw v
  else if e == 9 then encodeInt (-8) 7 0 (ofInt 4) md draw v
  else if e == 10 then encodeInt (-2) 1 0 (ofInt 2) md draw v
  else if e == 13 then encodeInt (-1) 1 0 (fun i => (i + 1).toNat) md draw v
  else if e == 14 then encodeE8M0 md draw v
  else encodeLut cb md draw v

/-- The draw of R200 for the byte address A and the bit b of an element. -/
def draw (seed a b : Nat) : Nat :=
  let key := (8 * a + b) % 2 ^ 64
  let z := nxor key (seed % 2 ^ 32 * 2 ^ 32)
  let z := (z + 0x8E4F2D9B61A7C5E3) % 2 ^ 64
  let z := nxor z (z / 2 ^ 31) * 0xB5D37A19E06C4F8B % 2 ^ 64
  let z := nxor z (z / 2 ^ 29) * 0x9A3C61F52D07B8E9 % 2 ^ 64
  nxor z (z / 2 ^ 32) / 2 ^ 48

/-! ### Writing blocks (R186, R188, R191) -/

/-- MAX of an encoding under a scaling mode (R186), as an exact value; of a codebook the largest finite magnitude C. -/
def encMax (f : Nat) (cb : List Nat) : Dyadic :=
  let e := fElem f
  if e ≤ 7 then (match decodeFloat e (maxCode e) with | .fin _ v => v | _ => {})
  else if e == 8 then (if fScale f == 1 then { m := 127, e := -6 } else { m := 127 })
  else if e == 9 then { m := 7 }
  else if e == 10 || e == 13 then { m := 1 }
  else (finiteEntries cb).foldl (fun m p =>
    if Ratio.absLt (Ratio.ofDyadic m) p.2 then { m := (p.2.n.natAbs : Int), e := p.2.e } else m) {}

/-- EMAX: floor of the binary logarithm of MAX (R186). -/
def encEmax (f : Nat) (cb : List Nat) : Int := Dyadic.log (encMax f cb)

/-- A block as it is written. -/
structure Block where
  codes : List Nat := []
  scales : List Byte := []
  side : List Byte := []
  sat : Nat := 0
  flush : Nat := 0
  scovf : Nat := 0
deriving DecidableEq, Repr, Inhabited

/-- Rank of a magnitude: NaN above infinity above finite; zero is not ranked (R191). -/
def rankLt (a b : Num) : Bool :=
  match a, b with
  | .nan, _ => false
  | _, .nan => true
  | .inf _, _ => false
  | _, .inf _ => true
  | .fin _ x, .fin _ y => Ratio.absLt x y
def Num.isZero : Num → Bool
  | .fin _ v => v.n == 0
  | _ => false

/-- The element of the largest magnitude, lowest index first, among those of a list that are not zero. -/
def topElem (l : List (Nat × Num)) : Option (Nat × Num) :=
  (l.filter (fun p => !Num.isZero p.2)).foldl (fun (m : Option (Nat × Num)) p =>
    match m with | none => some p | some q => if rankLt q.2 p.2 then some p else some q) none

/-- Largest finite magnitude. -/
def amaxOf (l : List (Nat × Num)) : Option Ratio :=
  l.foldl (fun (m : Option Ratio) p =>
    match p.2 with
    | .fin _ v => (match m with | none => some v | some x => if Ratio.absLt x v then some v else some x)
    | _ => m) none

/-- Write up to 32 values as one block (R186–R191): `draws` gives the draw of each element. -/
def encodeBlock (f : Nat) (cb : List Nat) (t : Nat) (draws : Nat → Nat) (vals : List Num) : Block :=
  let l := List.zip (List.range vals.length) vals
  let s0 := if fSide f then topElem l else none
  let s1 := match s0 with | some p => topElem (l.filter (fun q => q.1 != p.1)) | none => none
  let picked := [s0, s1].filterMap id
  let isSide := fun (i : Nat) => picked.any (fun p => p.1 == i)
  let rest := l.filter (fun p => !isSide p.1)
  let entries := [s0, s1].map fun (o : Option (Nat × Num)) =>
    match o with
    | none => (0, false)
    | some (i, v) =>
      let w := encodeFloat 1 0 false false 0 v
      (w.code + i * 2 ^ 16 + 2 ^ 21, w.sat)
  let side := if fSide f then (entries.map (fun e => leBytes 4 e.1)).flatten else []
  let sideOvf := (entries.filter Prod.snd).length
  let max := encMax f cb
  let lut := fElem f == 11 || fElem f == 12
  -- scale of an element, with its code; none: the value is written as it is
  let mx : Nat × Int :=
    if lut && max.m == 0 then (0x7F, 0)
    else match amaxOf rest with
      | none => (0, -127)
      | some a =>
        if a.n == 0 then (0, -127)
        else
          let x := if fCeil f then Ratio.ceilLog (Ratio.quot a max) else Ratio.log a - encEmax f cb
          let x := if x < -127 then -127 else if 127 < x then 127 else x
          ((x + 127).toNat, x)
  let half := fun (k : Nat) =>
    let r := rest.filter (fun p => p.1 / 16 == k)
    let special := r.any (fun p => match p.2 with | .fin _ _ => false | _ => true)
    let zero := match amaxOf r with | none => true | some a => a.n == 0
    if lut && max.m == 0 then (0x38, some (decode32 t))
    else if zero && !special then (0, none)
    else if zero then (0x38, some (decode32 t))
    else
      match decode32 t with
      | .fin _ tv =>
        let a := (amaxOf r).getD {}
        let c := (encodeFloat 3 2 false false 0 (.fin false (Ratio.quot { a with n := a.n.natAbs } (Dyadic.mul tv max)))).code
        (c, some (tl16Scale c t))
      | _ => (0x38, none)
  let halves := [half 0, half 1]
  let scaled := fun (i : Nat) (v : Num) =>
    match v with
    | .fin s r =>
      if fScale f == 1 then Num.fin s (r.scale (-mx.2))
      else if fScale f == 2 then
        (match (halves.getD (i / 16) (0, none)).2 with
         | some (.fin _ d) => if d.m == 0 then .fin s r else .fin s (Ratio.quot r d)
         | some _ => .fin s {}
         | none => .fin s r)
      else v
    | v => v
  let ws := l.map fun p =>
    if isSide p.1 then ({ code := if fElem f == 13 then 1 else 0 } : Written)
    else
      let w := encodeElem f cb (draws p.1) (scaled p.1 p.2)
      -- a half-block of zeros raises no event (R188)
      if fScale f == 2 && ((halves.getD (p.1 / 16) (0, none)).2).isNone then { w with sat := false, flush := false } else w
  let sat := (ws.filter Written.sat).length
  { codes := ws.map Written.code
    scales := if fScale f == 1 then [BitVec.ofNat 8 mx.1]
      else if fScale f == 2 then halves.map (fun p => BitVec.ofNat 8 p.1) else []
    side := side
    sat := sat
    flush := (ws.filter Written.flush).length
    scovf := sideOvf + (if fSide f && 0 < sat then 1 else 0) }

/-- Bytes of packed codes (R181); `n` elements from a block boundary. -/
def packCodes (e : Nat) (codes : List Nat) : List Byte :=
  if e == 13 then
    ((List.range ((codes.length + 31) / 32)).map fun b =>
      (List.range 7).map fun k =>
        BitVec.ofNat 8 ((List.range 5).foldr (fun j acc =>
          (if 5 * k + j < 32 then codes.getD (32 * b + 5 * k + j) 1 else 1) + 3 * acc) 0)).flatten
  else leBytes (rowBytes e codes.length) (pack (codes.map fun c => (elemBits e, c)))

/-- A part of a row as it is written: element bytes, scale bytes and sidecar bytes of each block, and events. -/
structure RowOut where
  elems : List Byte := []
  /-- for each block: scale bytes and sidecar bytes -/
  blocks : List (List Byte × List Byte) := []
  sat : Nat := 0
  flush : Nat := 0
  scovf : Nat := 0
deriving DecidableEq, Repr, Inhabited

/-- Write the values of elements `first` onward of a row that starts at byte address `a` (R193): `first` starts a block where the
format has blocks. -/
def encodeRow (f : Nat) (cb : List Nat) (t seed a first : Nat) (vals : List Num) : RowOut :=
  let e := fElem f
  (List.range ((vals.length + 31) / 32)).foldl (fun (o : RowOut) b =>
    let part := (vals.drop (32 * b)).take 32
    let draws := fun (i : Nat) => let p := elemPlace e (first + 32 * b + i); draw seed (a + p.1) p.2
    let k := encodeBlock f cb t draws part
    { elems := o.elems ++ packCodes e k.codes
      blocks := o.blocks ++ [(k.scales, k.side)]
      sat := o.sat + k.sat, flush := o.flush + k.flush, scovf := o.scovf + k.scovf }) {}

end Sys2Proof.Machine
end

