-- ==== Sys2Proof/Machine/Arith.lean ====
section
/-!
DEFINITION. Cumulus tile arithmetic (chapter 07): exact block terms (R208–R211), the XA80 accumulator (R212–R216), reductions
(R218–R222), the vector unit's FP32 operations (R223), EXP2 (R224) and the guard (R225–R227).
-/
namespace Sys2Proof.Machine
open Sys2Proof

/-! ### XA80 -/

/-- Round an exact value to XA80, to nearest even, subnormals kept, overflow to infinity (R212, R213). -/
def round80 (neg : Bool) (v : Dyadic) : Fp :=
  if v.m == 0 then .fin neg {}
  else
    let s := v.m < 0
    let q := max (Dyadic.log v - 63) (-16445)
    let n := Dyadic.nearestEven v q
    if n == 0 then .fin s {}
    else if 16383 < (Nat.log2 n : Int) + q then .inf s
    else .fin s { m := if s then -(n : Int) else n, e := q }

/-- XA80 addition (R213). -/
def add80 (a b : Fp) : Fp :=
  match a, b with
  | .nan, _ => .nan
  | _, .nan => .nan
  | .inf s, .inf t => if s == t then .inf s else .nan
  | .inf s, .fin _ _ => .inf s
  | .fin _ _, .inf t => .inf t
  | .fin s x, .fin t y => round80 (s && t && x.m == 0 && y.m == 0) (Dyadic.add x y)

/-- The 80 bits of an XA80 value (R212). -/
def xa80Code (v : Fp) : Nat :=
  match v with
  | .nan => pack [(64, 0xC000000000000000), (15, 0x7FFF), (1, 0)]
  | .inf s => pack [(64, 0), (15, 0x7FFF), (1, b2n s)]
  | .fin s x =>
    if x.m == 0 then pack [(64, 0), (15, 0), (1, b2n s)]
    else
      let q := max (Dyadic.log x - 63) (-16445)
      let n := Dyadic.nearestEven x q
      if n < 2 ^ 63 then pack [(64, n), (15, 0), (1, b2n s)] else pack [(64, n), (15, (q + 16446).toNat), (1, b2n s)]

/-- The value of 80 bits, read by the rule of R212. -/
def xa80Value (c : Nat) : Fp :=
  let s := tbit c 79
  let e := fld c 64 15
  let n := fld c 0 64
  if e == 0x7FFF then (if n == 0 then .inf s else .nan)
  else .fin s { m := if s then -(n : Int) else n, e := (Nat.max e 1 : Int) - 16446 }

/-- An XA80 value in memory: 16 bytes (R215). -/
def xa80Bytes (v : Fp) : List Byte := leBytes 16 (xa80Code v)

/-! ### Exact sums -/

/-- The exact sum of R211 and R220: NaN, infinities, and a zero that is −0 only where every term is −0. -/
def sumExact (l : List Fp) : Fp :=
  let pos := l.any (fun x => x == .inf false)
  let neg := l.any (fun x => x == .inf true)
  if l.any (fun x => x == .nan) || (pos && neg) then .nan
  else if pos then .inf false
  else if neg then .inf true
  else
    let v := l.foldl (fun (a : Dyadic) x => match x with | .fin _ y => Dyadic.add a y | _ => a) {}
    let allNeg := !l.isEmpty && l.all (fun x => match x with | .fin s y => s && y.m == 0 | _ => false)
    Fp.ofDyadic allNeg v

/-- Block term of 32 products (R209–R211). -/
def blockTerm (a b : List Fp) : Fp := sumExact (List.zipWith Fp.mul a b)

/-- Block terms of K-blocks from `k` on, added in ascending order (R216). -/
def addBlocks : Nat → List Fp → List Fp → Fp → Fp
  | 0, _, _, acc => acc
  | n + 1, a, b, acc => addBlocks n (a.drop 32) (b.drop 32) (add80 acc (blockTerm (a.take 32) (b.take 32)))

/-- The accumulator of one output element (R216 steps 1 and 2). -/
def dotProduct (start : Fp) (a b : List Fp) : Fp := addBlocks ((a.length + 31) / 32) a b start

/-! ### Reductions (R218–R222) -/

/-- Contributions that R218 takes: FP32, BF16 and FP16 unscaled, and MX32 except codebooks. -/
def reducible (f : Nat) : Bool :=
  if fScale f == 0 then fElem f ≤ 2 else fScale f == 1 && fElem f != 11 && fElem f != 12

/-- −0 below +0, else by value. -/
def fpBelow (a b : Fp) : Bool :=
  match a, b with
  | .fin s x, .fin t y => let d := Dyadic.diff x y; d < 0 || (d == 0 && s && !t)
  | .inf s, .inf t => s && !t
  | .inf s, _ => s
  | _, .inf t => !t
  | _, _ => false

/-- The least (or greatest) of a list. -/
def extreme (least : Bool) (l : List Fp) : Fp :=
  match l with
  | [] => .fin false {}
  | x :: r => r.foldl (fun m y => if (if least then fpBelow y m else fpBelow m y) then y else m) x

/-- The accumulator for contributions of a format (R218), or XA80 under R222. -/
def accKind (f : Nat) (extended : Bool) : Nat :=
  if extended then 3 else if fScale f == 1 && (fElem f == 3 || fElem f == 4) then 2 else if fScale f == 0 && fElem f == 1 then 1 else 0
/-- Bits of an accumulator (R215, R218), and the exponent of the weight of bit 0. -/
def accWidth (kind : Nat) : Nat := [320, 80, 64, 80].getD kind 320
def accUnit (kind ref : Nat) : Int := if kind == 0 then -149 else if kind == 1 then -24 else (ref : Int) - 143
/-- An exact value in units of `2^u`, of which it is a multiple. -/
def unitsOf (v : Dyadic) (u : Int) : Int := if u ≤ v.e then shiftUp v.m (v.e - u) else v.m / (2 ^ (u - v.e).toNat : Nat)
/-- What an element's accumulator holds; the read of XA80 ignores bytes 10 to 15 (R215). -/
def accValue (kind ref code flags : Nat) : Fp :=
  if kind == 3 then xa80Value (fld code 0 80)
  else Fp.ofDyadic (tbit flags 3) { m := toInt (accWidth kind) code, e := accUnit kind ref }
/-- The storage of a value in an accumulator. -/
def accCode (kind ref : Nat) (v : Fp) : Nat :=
  if kind == 3 then leNat (xa80Bytes v)
  else match v with | .fin _ x => ofInt (accWidth kind) (unitsOf x (accUnit kind ref)) | _ => 0
/-- A block of accumulators with nothing in it: `count` elements. -/
def accStart (kind count : Nat) : Accumulator := { kind := kind, vals := List.replicate count 0, flags := List.replicate count 0 }

/-- What an accumulator holds after one more finite contribution (R220, R222): 0 SUM, 1 AVG, 2 MIN, 3 MAX. -/
def combine (kind op : Nat) (first : Bool) (a v : Fp) : Fp :=
  if op ≤ 1 then
    if kind == 3 then add80 (if first then .fin false {} else a) v
    else if first then v
    else match a, v with | .fin s x, .fin t y => Fp.ofDyadic (s && t) (Dyadic.add x y) | _, _ => v
  else if first then v
  else extreme (op == 2) [a, v]

/-- One contribution taken into an element: its storage and flags. -/
def accElem (kind ref op code flags : Nat) (v : Fp) : Nat × Nat :=
  match v with
  | .nan => (code, Nat.lor flags 1)
  | .inf s => (code, Nat.lor flags (if s then 4 else 2))
  | .fin _ _ =>
    let r := combine kind op (!tbit flags 4) (accValue kind ref code flags) v
    let zero := match r with | .fin s x => s && x.m == 0 | _ => false
    (accCode kind ref r, fld flags 0 3 + (if zero then 8 else 0) + 16)

/-- A block whose accumulators stand at another reference, or in L320 (R219). -/
def accRebase (a : Accumulator) (kind ref : Nat) : Accumulator :=
  { a with kind := kind, ref := ref, vals := (List.zip a.vals a.flags).map fun p => accCode kind ref (accValue a.kind a.ref p.1 p.2) }
/-- Take one contribution in every element, whatever the reference. -/
def accAdd (op : Nat) (a : Accumulator) (vs : List Fp) : Accumulator :=
  let r := (List.zip (List.zip a.vals a.flags) vs).map fun p => accElem a.kind a.ref op p.1.1 p.1.2 p.2
  { a with vals := r.map Prod.fst, flags := r.map Prod.snd, n := a.n + 1 }
/-- Some accumulator of an L64 block would reach a magnitude of 2^62, at a reference and after a contribution (R219). -/
def accOverflows (op : Nat) (a : Accumulator) (ref : Nat) (vs : List Fp) : Bool :=
  (List.zip (List.zip a.vals a.flags) vs).any fun p =>
    let v := accValue 2 a.ref p.1.1 p.1.2
    let big := fun (x : Fp) => match x with | .fin _ y => 2 ^ 62 ≤ (unitsOf y (accUnit 2 ref)).natAbs | _ => false
    big v || (match p.2 with | .fin _ _ => big (combine 2 op (!tbit p.1.2 4) v p.2) | _ => false)

/-- A block takes one contribution of each of its elements, under scale code `x` (R218, R219, R222). -/
def accumulate (op : Nat) (a : Accumulator) (x : Nat) (vs : List Fp) : Accumulator :=
  if a.kind != 2 then accAdd op a vs
  else
    let ref := if a.n == 0 then x else Nat.min x a.ref
    if accOverflows op a ref vs then accAdd op (accRebase a 0 0) vs else accAdd op (accRebase a 2 ref) vs

/-- The result of an element (R220, R222): 0 SUM, 1 AVG, 2 MIN, 3 MAX. -/
def accResult (op : Nat) (a : Accumulator) (i : Nat) : Num :=
  let f := a.flags.getD i 0
  let held := accValue a.kind a.ref (a.vals.getD i 0) f
  if tbit f 0 || (tbit f 1 && tbit f 2) then .nan
  else if op ≤ 1 then
    if tbit f 1 then .inf false
    else if tbit f 2 then .inf true
    else match held with
      | .fin s v => if op == 0 then .fin s (Ratio.ofDyadic v) else .fin s { n := v.m, d := Nat.max 1 a.n, e := v.e }
      | r => r.num
  else if tbit f 2 && (op == 2 || !tbit f 4) then .inf true
  else if tbit f 1 && (op == 3 || !tbit f 4) then .inf false
  else held.num

/-- A row's accumulators take one contribution: its values and its scale bytes. -/
def accRow (op : Nat) (accs : List Accumulator) (scales : List Byte) (vs : List Fp) : List Accumulator :=
  accs.zipIdx.map fun p => accumulate op p.1 ((scales.getD p.2 0).toNat) ((vs.drop (32 * p.2)).take 32)
/-- The accumulators of a row of `n` elements, in blocks of 32. -/
def accRowStart (kind n : Nat) : List Accumulator := (List.range ((n + 31) / 32)).map fun b => accStart kind (Nat.min 32 (n - 32 * b))
/-- The results of a row. -/
def accRowResult (op n : Nat) (accs : List Accumulator) : List Num := (List.range n).map fun i => accResult op (accs.getD (i / 32) {}) (i % 32)

/-! ### The residue check (R230–R233) -/

/-- Whether output block (bm, bn) is checked (R230). -/
def residueChecked (bm bn seed : Nat) : Bool := (bm + 9 * bn + seed % 64) % 64 == 0
/-- Exponent of the least code magnitude of an encoding (R209). -/
def codeUnit (f : Nat) : Int :=
  if fElem f == 8 then (if fScale f == 1 then -6 else 0) else [-149, -24, -133, -9, -16, -4, -3, -1, 0, 0, 0, -24, -24, 0, -127].getD (fElem f) 0
/-- The code-value sum of a K-block as the DPU forms it, in units of the weight of bit 0; what is not finite is handled under R211. -/
def codeSum (unit : Int) (a b : List Fp) : Int :=
  (List.zipWith (fun x y => match x, y with | .fin _ v, .fin _ w => unitsOf (Dyadic.mul v w) unit | _, _ => 0) a b).foldl (· + ·) 0
/-- The same modulo 8,191 as the residue unit forms it: a weight of 2^s multiplies by 2^(s mod 13). -/
def residueSum (unit : Int) (a b : List Fp) : Nat :=
  (List.zipWith (fun x y => match x, y with
    | .fin _ v, .fin _ w =>
      let p := Dyadic.mul v w
      (p.m % 8191).toNat * 2 ^ ((p.e - unit).toNat % 13)
    | _, _ => 0) a b).foldl (fun s r => (s + r) % 8191) 0

/-- A row of an operand as the dot array takes it. -/
structure DotRow where
  /-- exact values, and code values, whose sidecar positions are zero -/
  vals : List Fp
  codes : List Fp
  /-- scale of each half-block of 16; none listed: 1 -/
  scales : List Fp := []
  /-- exponent of the least code magnitude -/
  unit : Int
  /-- under TL16 its sums are taken by half-blocks (R209) -/
  halved : Bool := false

/-- A row from its bytes, and its FLUSH events (R179, R192). -/
def dotRow (f : Nat) (cb : List Nat) (t n : Nat) (elems scales sides : List Byte) : DotRow × Nat :=
  let r := decodeRow f cb t n elems scales sides
  ({ vals := r.1
     codes := (rowCodes (fElem f) n elems).zipIdx.map fun p =>
       if fSide f && (sidecarOf (leNat ((sides.drop (p.2 / 32 * 8)).take 8)) (p.2 % 32)).isSome then .fin false {} else decodeElem f cb p.1.1
     scales := if fScale f == 0 then [] else (List.range ((n + 15) / 16)).map fun k => (scaleOf f t (16 * k) scales).getD (.fin false { m := 1 })
     unit := codeUnit f, halved := fScale f == 2 }, r.2)

/-- Where two rows' code-value sums are taken apart: a half-block where either is under TL16, else a K-block (R209). -/
def dotStep (a b : DotRow) : Nat := if a.halved || b.halved then 16 else 32
/-- What the faults of a computation add to element (i, j)'s sum in part `p`. -/
def dotErr (fs : List DotFault) (step i j p : Nat) : Int :=
  ((fs.filter fun f => f.row == i && f.col == j && (if step == 16 then 2 * f.term + f.half else f.term) == p).map DotFault.err).foldl (· + ·) 0
/-- Some residue of element (i, j) differs (R231, R232). -/
def residueDiffers (fs : List DotFault) (i j : Nat) (a b : DotRow) : Bool :=
  let step := dotStep a b
  let u := a.unit + b.unit
  (List.range ((a.codes.length + step - 1) / step)).any fun p =>
    let x := (a.codes.drop (step * p)).take step
    let y := (b.codes.drop (step * p)).take step
    ((codeSum u x y + dotErr fs step i j p) % 8191).toNat != residueSum u x y
/-- What a fault adds to a block term: its error by the weight of bit 0 and the scales. -/
def faultTerm (fs : List DotFault) (i j k : Nat) (a b : DotRow) : Fp :=
  let step := dotStep a b
  let part := fun (p : Nat) =>
    let s := p * step / 16
    Fp.mul (Fp.mul (Fp.ofDyadic false { m := dotErr fs step i j p, e := a.unit + b.unit }) (a.scales.getD s (.fin false { m := 1 })))
      (b.scales.getD s (.fin false { m := 1 }))
  sumExact (if step == 16 then [part (2 * k), part (2 * k + 1)] else [part k])
/-- The accumulator of element (i, j) under the faults of a computation (R216). -/
def dotFaulty (fs : List DotFault) (i j : Nat) (start : Fp) (a b : DotRow) : Fp :=
  let mine := fs.filter fun f => f.row == i && f.col == j
  if mine.isEmpty then dotProduct start a.vals b.vals
  else (List.range ((a.vals.length + 31) / 32)).foldl (fun acc k =>
    let t := blockTerm ((a.vals.drop (32 * k)).take 32) ((b.vals.drop (32 * k)).take 32)
    add80 acc (if mine.any (fun f => f.term == k) then sumExact [t, faultTerm fs i j k a b] else t)) start

/-- What became of one output block: its values, and whether it was recomputed with success, or failed twice (R232). -/
structure DotBlock where
  sums : List (List Fp)
  corrected : Bool := false
  failed : Bool := false

/-- Compute an output block from the row and the column of each of its elements, whose accumulators start at `start i j`, and check it if
R230 selects it; the faults of each computation come from a list, whose rest is answered too. -/
def dotBlock (checked : Bool) (start : Nat → Nat → Fp) (elems : List (List (DotRow × DotRow))) (todo : List (List DotFault)) :
    DotBlock × List (List DotFault) :=
  let once := fun (fs : List DotFault) => elems.zipIdx.map fun r => r.1.zipIdx.map fun c => dotFaulty fs r.2 c.2 (start r.2 c.2) c.1.1 c.1.2
  let differs := fun (fs : List DotFault) => elems.zipIdx.any fun r => r.1.zipIdx.any fun c => residueDiffers fs r.2 c.2 c.1.1 c.1.2
  let f := todo.headD []
  let rest := todo.drop 1
  if !(checked && differs f) then ({ sums := once f }, rest)
  else
    let g := rest.headD []
    if differs g then ({ sums := once g, failed := true }, rest.drop 1) else ({ sums := once g, corrected := true }, rest.drop 1)

/-! ### The vector unit (R223) -/

/-- FP32 code of an exact value, rounded once to nearest even. -/
def code32 (v : Fp) : Nat :=
  match v with
  | .nan => nan32
  | .inf s => if s then 0xFF800000 else 0x7F800000
  | .fin s x => round32 s x

def mul32 (a b : Nat) : Nat := code32 (Fp.mul (decode32 a) (decode32 b))
def neg32 (a : Nat) : Nat := nxor a 0x80000000
def sub32 (a b : Nat) : Nat := add32 a (neg32 b)
/-- Fused multiply-add: `a × b + c` rounded once. -/
def fma32 (a b c : Nat) : Nat :=
  match Fp.mul (decode32 a) (decode32 b), decode32 c with
  | .nan, _ => nan32
  | _, .nan => nan32
  | .inf s, .inf t => if s == t then code32 (.inf s) else nan32
  | .inf s, .fin _ _ => code32 (.inf s)
  | .fin _ _, .inf t => code32 (.inf t)
  | .fin s x, .fin t y => round32 (s && t && x.m == 0 && y.m == 0) (Dyadic.add x y)

/-- Integer square root, one bit a step from bit `k − 1` down. -/
def isqrt (n : Nat) : Nat → Nat → Nat
  | 0, r => r
  | k + 1, r => if (r + 2 ^ k) * (r + 2 ^ k) ≤ n then isqrt n k (r + 2 ^ k) else isqrt n k r
/-- A quotient or root cut below its last bit, with a sticky bit: it rounds as the exact value does. -/
def sticky (n : Nat) (inexact : Bool) : Int := (2 * n + b2n inexact : Nat)
/-- Division (R223). -/
def div32 (a b : Nat) : Nat :=
  match decode32 a, decode32 b with
  | .nan, _ => nan32
  | _, .nan => nan32
  | .inf _, .inf _ => nan32
  | .inf s, .fin t _ => code32 (.inf (s != t))
  | .fin s _, .inf t => code32 (.fin (s != t) {})
  | .fin s x, .fin t y =>
    if y.m == 0 then (if x.m == 0 then nan32 else code32 (.inf (s != t)))
    else
      let n := x.m.natAbs * 2 ^ 64
      let q := sticky (n / y.m.natAbs) (n % y.m.natAbs != 0)
      code32 (.fin (s != t) { m := if s != t then -q else q, e := x.e - y.e - 65 })
/-- Square root (R223). -/
def sqrt32 (a : Nat) : Nat :=
  match decode32 a with
  | .nan => nan32
  | .inf s => if s then nan32 else a
  | .fin s x =>
    if x.m == 0 then a
    else if s then nan32
    else
      let k : Nat := if x.e % 2 == 0 then 64 else 65
      let n := x.m.natAbs * 2 ^ k
      let r := isqrt n 48 0
      code32 (.fin false { m := sticky r (r * r != n), e := (x.e - (k : Int)) / 2 - 1 })
/-- Minimum: NaN if either is, −0 below +0 (R223). -/
def min32 (a b : Nat) : Nat :=
  if decode32 a == .nan || decode32 b == .nan then nan32 else if fpBelow (decode32 b) (decode32 a) then b else a
/-- Comparison: none where an operand is NaN (R223). -/
def compare32 (a b : Nat) : Option Ordering :=
  match decode32 a, decode32 b with
  | .nan, _ => none
  | _, .nan => none
  | .inf s, .inf t => some (if s == t then .eq else if s then .lt else .gt)
  | .inf s, .fin _ _ => some (if s then .lt else .gt)
  | .fin _ _, .inf t => some (if t then .gt else .lt)
  | .fin _ x, .fin _ y => some (if Dyadic.lt x y then .lt else if Dyadic.lt y x then .gt else .eq)

/-- The XA80 lane: subtract, multiply, fused multiply-add (R212, R213, R223). -/
def neg80 (a : Fp) : Fp := match a with | .fin s x => .fin (!s) (Dyadic.neg x) | .inf s => .inf (!s) | .nan => .nan
def sub80 (a b : Fp) : Fp := add80 a (neg80 b)
def mul80 (a b : Fp) : Fp := match Fp.mul a b with | .fin s x => round80 s x | r => r
def fma80 (a b c : Fp) : Fp := add80 (Fp.mul a b) c

/-! ### EXP2 (R224) -/

/-- 2 to the power of a fraction given by its bits, highest first, in units of 2^-256; `root` is 2 to the power of the place. -/
def powFraction : Nat → Nat → Nat → Nat → Nat
  | 0, _, _, acc => acc
  | n + 1, bits, root, acc =>
    powFraction n bits (isqrt (root * 2 ^ 256) 258 0) (if tbit bits n then acc * root / 2 ^ 256 else acc)

/-- EXP2 of an FP32 code: exact at integers, else one of the two values that bracket the power; which one is fixed and not
given (log entry 13). -/
def exp2 (c : Nat) : Nat :=
  match decode32 c with
  | .nan => nan32
  | .inf s => if s then 0 else 0x7F800000
  | .fin _ v =>
    let p := if v.e < 0 then (-v.e).toNat else 0
    let m : Int := shiftUp v.m v.e
    let m := if v.e < 0 then v.m else m
    let i := m / (2 ^ p : Nat)
    let f := (m % (2 ^ p : Nat)).toNat
    if 128 ≤ i then 0x7F800000
    else if i < -150 then 0
    else
      let q := max (i - 23) (-149)
      if f == 0 && -149 ≤ i then round32 false { m := 1, e := i }
      else
        let y := powFraction p f (isqrt (2 ^ 513) 258 0) (2 ^ 256)
        let n := if q ≤ i then y * 2 ^ (i - q).toNat / 2 ^ 256 else y / 2 ^ (q - i).toNat / 2 ^ 256
        let low := n + (q + 149).toNat * 2 ^ 23
        if Config.exp2RoundsUp c then low + 1 else low

/-! ### The guard (R225–R227) -/

/-- A reserved bit of GUARD is set. -/
def badGuard (g : Nat) : Bool := fld g 49 15 != 0
def guardRerun (g : Nat) : Bool := tbit g 48

/-- A limit is exceeded: events, elements and blocks written. -/
def exceeded (g sat flush scovf elems blocks : Nat) : Bool :=
  let above := fun (l e n : Nat) => l != 0xFFFF && l * n < e * 2 ^ 20
  above (fld g 0 16) sat elems || above (fld g 16 16) flush elems || above (fld g 32 16) scovf blocks

end Sys2Proof.Machine
end

