-- ==== Sys2Proof/Machine/RegionOps.lean ====
section
/-!
DEFINITION. The region check (R30, R80, R86, R89–R91), the location of a byte in a SNAPSHOT region (R147–R165), and the
free shards of a region (R149–R152, R159, R170, R171).
-/
namespace Sys2Proof.Machine
open Sys2Proof

def Hw.snap (h : Hw) (id : Nat) : Snap := KMap.get h.snaps id
def Hw.setSnap (h : Hw) (id : Nat) (x : Snap) : Hw := { h with snaps := KMap.set h.snaps id x }

/-- The next serial number: it orders what begins (log entry 11). -/
def nextSerial (h : Hw) : Nat × Hw := (h.stamp, { h with stamp := h.stamp + 1 })

/-! ### Regions (R79–R91) -/

/-- Granules 262,080 and above belong to the system region (R80). -/
def systemBase : Nat := 262080
/-- A right that a request needs (R90). -/
inductive Right where
  | read
  | write
  | atomic
  | none
deriving DecidableEq, Repr

/-- Whether node `n` is in agent group `g` (R88). -/
def inGroup (h : Hw) (g n : Nat) : Bool := tbit (KMap.get h.groups g) n
/-- Whether an entry of an access list names node `n` (R89). -/
def AclEntry.names (h : Hw) (e : AclEntry) (n : Nat) : Bool := if e.group then inGroup h e.id n else e.id == n
/-- Whether an entry grants a right. -/
def AclEntry.grants (e : AclEntry) : Right → Bool
  | .read => e.r
  | .write => e.w
  | .atomic => e.atomic
  | .none => true
/-- A node's right in a region: the OR over the entries that name it (R89); a message that needs no right passes. -/
def hasRight (h : Hw) (r : Region) (n : Nat) (need : Right) : Bool :=
  match need with
  | .none => true
  | need => r.acl.any (fun e => e.names h n && e.grants need)

/-- A region refusal is counted, the first one recorded, and REGION_DENY raised at the owning tile (R85, R86). -/
def denyRegion (h : Hw) (id n a : Nat) : Hw :=
  let r := h.region id
  let r := if r.denied == 0 then { r with firstNode := n, firstOffset := a / 16 } else r
  raise (h.setRegion id { r with denied := satInc 32 r.denied }) (16 * tileOf a + 4) id

/-! ### Shards (R149–R152) -/

/-- MAPG: map granules of a slot (R150). -/
def Region.mapg (r : Region) : Nat := (r.granules + 8191) / 8192
/-- First PSN of a region, and first PSN of the part of its reserve that is shard space. -/
def Region.firstPsn (r : Region) : Nat := r.base * 32
def Region.spareFirst (r : Region) : Nat := (r.base + r.granules + 16 * r.mapg) * 32
def Region.spareEnd (r : Region) : Nat := (r.base + r.granules + r.reserve) * 32
/-- SHARDS_TOTAL: shards of the shard space. -/
def Region.shardsTotal (r : Region) : Nat := 32 * (r.granules + r.reserve - 16 * r.mapg)
/-- Logical shard of pool offset `a` (R149). -/
def Region.shardOf (r : Region) (a : Nat) : Nat := (a - r.base * 2097152) / 65536
/-- The map entry of R151 for logical shard `x` at creation. -/
def Region.identity (r : Region) (x : Nat) : Shard := { psn := r.firstPsn + x }
/-- A slot's entry for a logical shard. -/
def VersionSlot.entry (v : VersionSlot) (r : Region) (x : Nat) : Shard := KMap.getD v.map x (r.identity x)
def VersionSlot.setEntry (v : VersionSlot) (r : Region) (x : Nat) (e : Shard) : VersionSlot :=
  { v with map := KMap.setD v.map x e (r.identity x) }
def Snap.slot (x : Snap) (i : Nat) : VersionSlot := KMap.get x.slots i
def Snap.setSlot (x : Snap) (i : Nat) (v : VersionSlot) : Snap := { x with slots := KMap.set x.slots i v }
/-- Slots that are not FREE. -/
def Snap.liveSlots (x : Snap) : List VersionSlot := (x.slots.map Prod.snd).filter (fun v => v.state != 0)
/-- Whether a slot's map names PSN `p`. -/
def VersionSlot.namesPsn (v : VersionSlot) (r : Region) (p : Nat) : Bool :=
  (r.firstPsn ≤ p && p < r.firstPsn + 32 * r.granules && !KMap.has v.map (p - r.firstPsn))
    || v.map.any (fun e => e.2.psn == p)
/-- A physical shard is in use while a slot other than FREE names it (R152), or a copy fills it. -/
def psnUsed (x : Snap) (r : Region) (p : Nat) : Bool :=
  x.liveSlots.any (fun v => v.namesPsn r p) || x.copies.any (fun c => c.psn == p)
/-- Addressable physical shards that some slot does not use as R151 laid them. -/
def movedPsns (x : Snap) (r : Region) : List Nat :=
  ((x.liveSlots.map (fun v => KMap.keys v.map)).flatten.map (fun i => r.firstPsn + i)).eraseDups
/-- Physical shards of the reserve that are in use. -/
def sparesUsed (x : Snap) (r : Region) : List Nat :=
  (((x.liveSlots.map (fun v => v.map.map (fun e => e.2.psn))).flatten ++ x.copies.map Copying.psn).filter
    (fun p => r.spareFirst ≤ p)).eraseDups
/-- Free shards of a parity (FREE_EVEN, FREE_ODD). -/
def freeShards (x : Snap) (r : Region) (parity : Nat) : Nat :=
  ((movedPsns x r).filter (fun p => p % 2 == parity && !psnUsed x r p)).length
    + ((r.spareEnd - r.spareFirst) / 2 - ((sparesUsed x r).filter (fun p => p % 2 == parity)).length)
/-- The lowest-numbered free PSN of a parity (R164). -/
def lowestFree (x : Snap) (r : Region) (parity : Nat) : Option Nat :=
  let low := ((movedPsns x r).filter (fun p => p % 2 == parity && !psnUsed x r p)).foldl
    (fun (m : Option Nat) p => match m with | none => some p | some q => some (Nat.min p q)) none
  match low with
  | some p => some p
  | none =>
    ((List.range (2 * ((sparesUsed x r).length + 1))).map (fun i => r.spareFirst + i)).find?
      (fun p => p < r.spareEnd && p % 2 == parity && !psnUsed x r p)

/-- SNAP_LOW is raised when the free shards fall below LOW_WATER, once until they have risen again (R170). -/
def settleLow (h : Hw) (id : Nat) : Hw :=
  let r := h.region id
  let x := h.snap id
  let n := freeShards x r 0 + freeShards x r 1
  if n < x.lowWater then (if x.low then h else raise (h.setSnap id { x with low := true }) 0x313 id)
  else h.setSnap id { x with low := false }

/-! ### Bindings (R147) -/

/-- A node's binding in a region: its index and itself. -/
def bindingOf (x : Snap) (n : Nat) : Option (Nat × Binding) := List.find? (fun p : Nat × Binding => p.2.node == n) x.bindings
/-- READERS of a slot: its reader bindings. -/
def readersOf (x : Snap) (slot : Nat) : Nat :=
  if (x.slot slot).state == 1 || (x.slot slot).state == 2 then (x.bindings.filter (fun p => p.2.slot == slot)).length else 0

/-! ### The check (R30, R90, R148, R150, R162) -/

/-- What the check of a request answers. -/
inductive Verdict where
  /-- refused -/
  | denied
  /-- the node's requests to the region are held for a snapshot command (R167) -/
  | held
  /-- the shard is being copied, or its copy has been started (R164) -/
  | copying (region slot shard : Nat)
  /-- passed: region, kind, location of the first byte, slot and logical shard -/
  | ok (region kind loc slot shard : Nat)
deriving DecidableEq, Repr

/-- The rights part of the check: a request of node `n` to the pool offset `a` under the node ID `dst`. It answers the region
and, in a SNAPSHOT region, the slot. Until the pool is open it finds no region (R351, R546). -/
def permit (h : Hw) (n dst a : Nat) (need : Right) : Option (Nat × Nat) × Hw :=
  match if poolOpen h then regionAt h (granuleOf a) else none with
  | none => (none, h)
  | some id =>
    let r := h.region id
    if id == 0 || !hasRight h r n need || speaksAs h r.service != dst || (r.state == 3) then (none, denyRegion h id n a)
    else if r.kind != 3 then (some (id, 0), h)
    else if r.base + r.granules ≤ granuleOf a then (none, denyRegion h id n a)
    else
      match bindingOf (h.snap id) n with
      | none => (none, denyRegion h id n a)
      | some (_, b) =>
        let v := (h.snap id).slot b.slot
        if (need == .write || need == .atomic) && v.state != 3 && v.state != 4 then (none, denyRegion h id n a)
        else (some (id, b.slot), h)

/-- Where the byte lies (R162), with the copy of R164 begun where a write needs one; R171 where no shard is free. -/
def place (h : Hw) (id slot a : Nat) (write : Bool) : Verdict × Hw :=
  let r := h.region id
  if r.kind != 3 then (.ok id r.kind a 0 0, h)
  else
    let x := h.snap id
    let l := r.shardOf a
    let e := (x.slot slot).entry r l
    if x.copies.any (fun c => c.slot == slot && c.shard == l) then (.copying id slot l, h)
    else if write && (x.slot slot).state != 3 && (x.slot slot).state != 4 then (.denied, h)
    else if !write || e.priv then (.ok id 3 (e.psn * 65536 + a % 65536) slot l, h)
    else
      match lowestFree x r (l % 2) with
      | some p => (.copying id slot l, settleLow (h.setSnap id { x with copies := x.copies ++ [{ slot := slot, shard := l, psn := p }] }) id)
      | none => (.denied, raise (h.setSnap id { x with refused := satInc 32 x.refused }) 0x314 id)

/-- Whether a snapshot command holds the requests of node `n` to a region (R167). -/
def heldForSwitch (h : Hw) (id n : Nat) : Bool := h.switching.any (fun w => w.region == id && w.node == n)

/-- The check of a request that no snapshot command holds. -/
def locateNow (h : Hw) (n dst a : Nat) (need : Right) : Verdict × Hw :=
  match permit h n dst a need with
  | (none, h) => (.denied, h)
  | (some (id, slot), h) => place h id slot a (need == .write || need == .atomic)

/-- The whole check of a request: those of a node that a snapshot command holds in the region come first (R167). -/
def locate (h : Hw) (n dst a : Nat) (need : Right) : Verdict × Hw :=
  match if poolOpen h then regionAt h (granuleOf a) else none with
  | some id => if (h.region id).kind == 3 && heldForSwitch h id n then (.held, h) else locateNow h n dst a need
  | none => (.denied, h)

/-- A declared-dead agent (R105). -/
def isDead (h : Hw) (n : Nat) : Bool := h.dead.contains n

end Sys2Proof.Machine
end

