-- ==== Sys2Proof/Machine/Access.lean ====
section
/-!
DEFINITION. Reading and writing pool memory through the MCS with its poison (R354–R356, R363–R367), the atomic unit (R130, R131,
R356) and the home's poison writes.
-/
namespace Sys2Proof.Machine
open Sys2Proof

/-! ### Writes (R354, R355, R365) -/

/-- Write some bytes of word `w`, each with its place (R354, R355): the word is read and corrected, and takes the bytes; a merge over
an uncorrectable or poisoned word leaves it poisoned, with the log of `mergeOver`, and poisoned data leaves it poisoned. -/
def mergeWord (s : State) (w : Nat) (bs : List (Nat × Byte)) (pz : Bool) : State :=
  let t := tileOf (8 * w)
  let k := pcOf (8 * w)
  let s := s.onHw fun h => modPc h t k fun p => { p with merges := satInc 32 p.merges }
  let s := readStored s w .merge
  let bad := s.pool.poisoned w
  if pz || bad then s.onPool (fun p => p.setPoison w true)
  else bs.foldl (fun s b => s.onPool (fun p => p.writeBytes (8 * w + b.1) [b.2])) s

/-- Write all of word `w` (R355, R365): it is stored clean, or poisoned with poisoned data, whatever it held. -/
def wholeWord (s : State) (w : Nat) (bs : List Byte) (pz : Bool) : State :=
  s.onPool fun p => let p := p.clearErr w; if pz then p.setPoison w true else (p.writeBytes (8 * w) bs).setPoison w false

/-- Store the bytes `bs` at place `off` of word `w`. -/
def storeWord (s : State) (w off : Nat) (bs : List Byte) (pz : Bool) : State :=
  if bs.length == 8 then wholeWord s w bs pz else mergeWord s w (bs.zipIdx.map fun b => (off + b.2, b.1)) pz

/-- The requests of a write: a read for the words that it merges, and the write (R354). -/
def enqueueWrite (h : Hw) (home : Bool) (sclass : Nat) (ws part : List Nat) : Hw :=
  enqueueWords (enqueueWords h false home sclass part) true home sclass ws

/-- Store bytes at pool offset `a` as one access of service class `sclass`, each word poisoned where `pz` says so. -/
def storeFlagged (s : State) (home : Bool) (sclass a : Nat) (bs : List Byte) (pz : Nat → Bool) : State :=
  let ps := wordPieces a bs
  let s := s.onHw fun h =>
    enqueueWrite h home sclass (ps.map (·.1)) ((ps.filter (fun p => p.2.2.length != 8)).map (·.1))
  ps.foldl (fun s p => storeWord s p.1 p.2.1 p.2.2 (pz p.1)) s

/-- Store bytes with one poison flag for all of them (R367). -/
def store (s : State) (home : Bool) (sclass a : Nat) (bs : List Byte) (pz : Bool) : State :=
  storeFlagged s home sclass a bs (fun _ => pz)

/-- One word of memory written under a byte mask (R354, R355). -/
def storeMasked (s : State) (w mask : Nat) (bs : List Byte) (pz : Bool) : State :=
  if mask == 0 then s
  else if mask == 255 then wholeWord s w bs pz
  else mergeWord s w ((bitsOf 8 mask).map fun i => (i, bs.getD i 0)) pz

/-- WR_PART: the masked bytes of a line; only words with a byte in the mask are touched. -/
def storePart (s : State) (sclass a mask : Nat) (bs : List Byte) (pz : Bool) : State :=
  let is := (List.range 16).filter (fun i => fld mask (8 * i) 8 != 0)
  let s := s.onHw fun h => enqueueWrite h false sclass (is.map (a / 8 + ·))
    ((is.filter (fun i => fld mask (8 * i) 8 != 255)).map (a / 8 + ·))
  (List.range 16).foldl (fun s i => storeMasked s (a / 8 + i) (fld mask (8 * i) 8) ((bs.drop (8 * i)).take 8) pz) s

/-! ### Reads (R362, R366) -/

/-- One word as a reader gets it: its bytes, free values where it is poisoned (R362, R366). -/
def loadWord (s : State) (w : Nat) : List Byte × Bool × State :=
  let s := readStored s w .plain
  if s.pool.poisoned w then
    let (v, h) := fresh s.hw
    (leBytes 8 v, true, { s with hw := h })
  else (s.pool.bytes (8 * w) 8, false, s)

/-- Whole words from word `w` on, each with its poison flag. -/
def loadWords : Nat → State → Nat → List (List Byte × Bool) × State
  | 0, s, _ => ([], s)
  | n + 1, s, w =>
    let (b, pz, s) := loadWord s w
    let (r, s) := loadWords n s (w + 1)
    ((b, pz) :: r, s)

/-- Read `n` bytes at pool offset `a` as one access: the bytes, the poison flag of each word touched, the state. -/
def loadFlagged (s : State) (sclass a n : Nat) : List Byte × List Bool × State :=
  let s := s.onHw fun h => enqueueWords h false false sclass (wordsOf a n)
  let (ws, s) := loadWords ((a + n + 7) / 8 - a / 8) s (a / 8)
  ((((ws.map Prod.fst).flatten).drop (a % 8)).take n, ws.map Prod.snd, s)

/-- Read `n` bytes at pool offset `a`: the bytes and whether any word of them is poisoned (R366). -/
def load (s : State) (sclass a n : Nat) : List Byte × Bool × State :=
  let (b, f, s) := loadFlagged s sclass a n
  (b, f.any id, s)

/-! ### The atomic unit (R130, R131, R356) -/

/-- The operation, size and rules of an ATOMIC body (R130, R131). -/
def atomicSize (aop : Nat) : Nat := if aop == 8 then 16 else if aop == 9 then 4 else 8

/-- The result that an atomic stores (R130). -/
def atomicResult (aop m a b : Nat) : Nat :=
  if aop == 1 then (m + a) % 2 ^ 64
  else if aop == 2 then (if toInt 64 m ≤ toInt 64 a then m else a)
  else if aop == 3 then (if toInt 64 a ≤ toInt 64 m then m else a)
  else if aop == 4 then Nat.min m a
  else if aop == 5 then Nat.max m a
  else if aop == 6 then a
  else if aop == 7 then (if m == a then b % 2 ^ 64 else m)
  else if aop == 8 then (if m == a then b else m)
  else add32 m a

/-- An atomic at the MCS atomic unit (R130, R131, R356): the old value, whether the operand was poisoned, the state. A word that is
not hot is read from DRAM, and becomes hot unless a word of its pair is poisoned; then the result is written to DRAM. -/
def atomicAt (s : State) (sclass a : Nat) (body : List Byte) : Nat × Bool × State :=
  let b := leNat body
  let aop := fld b 0 8
  let n := atomicSize aop
  let words := wordsOf a n
  let pair := [a / 16 * 2, a / 16 * 2 + 1]
  let hit := isHot s.hw (a / 8)
  let s := s.onHw fun h => enqueueWords h false false sclass pair
  let s := if hit then s else pair.foldl (fun s w => readStored s w .atomic) s
  if words.any s.pool.poisoned then (0, true, s)
  else
    let m := leNat (s.pool.bytes a n)
    let r := atomicResult aop m (fld b 64 128) (fld b 192 128)
    let s := s.onPool fun p => p.writeBytes a (leBytes n r)
    (m, false, s.onHw fun h => atomicDone h sclass a hit (pair.any s.pool.poisoned))

/-! ### Poison writes (R133, R135) -/

/-- The home writes all 16 words of a line poisoned (R133, R135). -/
def poisonNow (s : State) (line : Nat) : State :=
  let s := s.onHw fun h => enqueueWords h true true 0 (wordsOf (line * 128) 128)
  let s := (List.range 16).foldl (fun s i => s.onPool fun p => (p.clearErr (line * 16 + i)).setPoison (line * 16 + i) true) s
  s.onHw fun h =>
    let t := tileOf (line * 128)
    h.setDir t { h.dir t with counts := KMap.mod (h.dir t).counts 9 (satInc 32) }

end Sys2Proof.Machine
end

