-- ==== Sys2Proof/Machine/MirrorOps.lean ====
section
/-!
DEFINITION. What every step of an active module does for its standby (R493, R494): the changes that the step made to
mirrored state leave as mirror records, and answers that follow from a write to a mirrored region wait for the record.
-/
namespace Sys2Proof.Machine
open Sys2Proof

/-- The service of an object that a command creates (R491): none when the module is active for no service of its pair. -/
def createService (h : Hw) : Option Nat :=
  if h.pair.state == 0 then some 0
  else
    match activeServices h with
    | [a, b] => some (if a == h.pair.service0 || b == h.pair.service0 then h.pair.service0 else a)
    | [a] => some a
    | _ => none

/-- The indexes whose entries differ between two tables. -/
def changedKeys {α : Type} [DecidableEq α] (a b : KMap α) : List Nat :=
  ((KMap.keys a ++ KMap.keys b).eraseDups).filter (fun k => decide (KMap.find? a k ≠ KMap.find? b k))

/-- What the standby gets of a queue: no chunk in progress and no scratch (R493). -/
def Queue.mirrorForm (q : Queue) : Queue :=
  { q with mem := [], memPz := [], execs := q.execs.map (fun p => (p.1, { p.2 with run := { p.2.run with chunk := none, walkReads := [] } })) }

/-- What the standby gets of a group: no open segment (R332, R493). -/
def Group.mirrorForm (g : Group) : Group := { g with inst := g.inst.map (fun i => { i with segs := [], record := {} }) }

/-- The items of R493 that a step changed, each with its service, which of what has ended is the one that it had. Data of mirrored regions, executed results, messages taken and
invalidations are recorded where they come about, for an answer waits for them. -/
def mirrorItems (a b : Hw) : List (Nat × MirrorItem) :=
  let s0 := mirrorHead b
  let home := fun (k : Nat) => (if (b.region k).state == 0 then a.region k else b.region k).service
  (changedKeys a.regions b.regions).map (fun k => (home k, .region k (b.region k)))
    ++ (if a.groups == b.groups && a.sys.mgmt == b.sys.mgmt && a.dead == b.dead then []
        else [(s0, .agents b.groups b.sys.mgmt b.dead)])
    ++ (changedKeys a.snaps b.snaps).map (fun k => (home k, .snap k (b.snap k)))
    ++ (changedKeys a.contexts b.contexts).map (fun k =>
        let c : Context := KMap.get b.contexts k
        ((if c.bound then c else KMap.get a.contexts k).service, .context k c))
    ++ (changedKeys a.tiles b.tiles).filterMap (fun k =>
        let x : Tile := KMap.get a.tiles k
        let y : Tile := KMap.get b.tiles k
        if x.faults == y.faults then none else some (s0, .faults k y.faults))
    ++ (changedKeys a.queues b.queues).filterMap (fun k =>
        let x := (KMap.find? a.queues k).map Queue.mirrorForm
        let y := (KMap.find? b.queues k).map Queue.mirrorForm
        if x == y then none else some ((y.getD (x.getD default)).service, .queue k y))
    ++ ((changedKeys a.dirs b.dirs).map (fun t =>
        let x : DirSlice := KMap.get a.dirs t
        let y : DirSlice := KMap.get b.dirs t
        (changedKeys x.entries y.entries).map (fun l => (s0, MirrorItem.entry t l (KMap.find? y.entries l)))
          ++ ((changedKeys x.txns y.txns ++ changedKeys x.gens y.gens).eraseDups).map (fun k =>
              (s0, .txn t k (KMap.find? y.txns k) (KMap.get y.gens k))))).flatten
    ++ (changedKeys a.colls b.colls).filterMap (fun k =>
        let x := (KMap.find? a.colls k).map Group.mirrorForm
        let y := (KMap.find? b.colls k).map Group.mirrorForm
        if x == y then none else some ((y.getD (x.getD default)).service, .group k y))

/-- After a step from `a`, send the records of what it changed (R493). -/
def mirrored (a b : State) : State :=
  if mirrors b.hw then b.onHw fun h => (mirrorItems a.hw b.hw).foldl (fun h p => emit h p.1 p.2) h else b

/-- The outcome of a command that may change mirrored state. -/
def commit (f : State → State) (s : State) : Result := .next (mirrored s (f s))

/-- Records of the lines of mirrored data flow: always, but for the metadata step of a resynchronisation (R508). -/
def linesFlow (h : Hw) (service : Nat) : Bool := mirrorsService h service && (h.pair.state != 1 || h.pair.syncPhase == 2)
/-- The record of a line as the pool now holds it. -/
def lineItem (p : Pool) (l : Nat) : MirrorItem := .line l (p.bytes l 128) ((List.range 16).map (fun k => p.poisoned (l / 8 + k)))
/-- Write records of the 128-byte lines that a write to a mirrored region touched (R494). -/
def mirrorLines (s : State) (region a n : Nat) : State :=
  let r := s.hw.region region
  if linesFlow s.hw r.service && r.mirrored then
    s.onHw fun h => (List.range ((a + n + 127) / 128 - a / 128)).foldl (fun h i => emit h r.service (lineItem s.pool ((a / 128 + i) * 128))) h
  else s

/-- Whether an answer that follows a write to a region waits for its record (R84, R494, R500). -/
def waitsForMirror (h : Hw) (region : Nat) : Bool :=
  linesFlow h (h.region region).service && (h.region region).mirrored && !h.pair.outgoing.isEmpty

/-- Send the answer of a write to `region`, once the standby has committed it if the region is mirrored (R494). -/
def sendPerformed (h : Hw) (region : Nat) (p : Packet) : Hw :=
  if waitsForMirror h region then h.onPair fun x => { x with heldAnswers := x.heldAnswers ++ [(x.seq - 1, p)] } else send h p

/-- Keep the answer to a tile request, once the standby has committed the write if the region is mirrored. -/
def keepAnswer (h : Hw) (region : Option Nat) (serial : Nat) (a : Answer) : Hw :=
  match region with
  | some g =>
    if waitsForMirror h g then h.onPair fun x => { x with heldTiles := x.heldTiles ++ [(x.seq - 1, serial, a)] }
    else { h with answers := KMap.ins h.answers serial a }
  | none => { h with answers := KMap.ins h.answers serial a }

end Sys2Proof.Machine
end

