-- ==== Sys2Proof/Machine/Lanes.lean ====
section
/-!
DEFINITION. Lanes and optical engines (chapter 13): the eye figure of merit, optical gates, and the LANE.* and OPT.*
commands.
-/
namespace Sys2Proof.Machine
open Sys2Proof

/-! ### The eye (R393–R395) -/

/-- EFM = min(255, ⌊768 × min H ÷ S⌋) from the three (u, d) level pairs and the mean distance S of the outer levels (R393). -/
def efmOf (eyes : List (Int × Int)) (swing : Nat) : Nat :=
  let hs := eyes.map (fun e => (e.1 - e.2).toNat)
  let least := hs.foldl Nat.min (hs.headD 0)
  Nat.min 255 (768 * least / swing)

/-- EFM_LOW in force: the value set, or the default of the rate (R394, R413). -/
def efmLow (l : Link) : Nat := if l.efmLow != 0 then l.efmLow else [28, 22, 16, 16].getD l.rate 16

/-- A window of a lane in use ends: FFE and DFE have adapted, CTLE stays (R394); EFM and its lowest value are taken; four windows below EFM_LOW make the lane DEGRADED, four
at or above EFM_LOW + 4 end it (R395); the link controller may ask for a narrower set (R447). -/
def efmWindow (h : Hw) (k : Nat) (eyes : List (Int × Int)) (swing : Nat) : Hw :=
  let n := k / 4
  let l := h.link n
  let x := h.lane k
  if l.state != 3 || !tbit l.lanes (k % 4) || l.rx.sleep != 1 || swing == 0 then h
  else
    let efm := efmOf eyes swing
    let low := if efm < efmLow l then x.low + 1 else 0
    let high := if efmLow l + 4 ≤ efm then x.high + 1 else 0
    let h := adapt h k
    let x := { h.lane k with efm := efm, efmMin := Nat.min x.efmMin efm, low := low, high := high }
    if !x.degraded && 4 ≤ low then
      let h := h.setLane k { x with degraded := true, degrades := satInc 32 x.degrades }
      autoNarrow (raise h 0x31A k) n
    else if x.degraded && 4 ≤ high then h.setLane k { x with degraded := false }
    else h.setLane k x
def execEfmWindowEnd (lane : Fin 256) (eyes : List (Int × Int)) (swing : Nat) (s : State) : Result :=
  .next (s.onHw fun h => efmWindow h lane.val eyes swing)

/-! ### Optical gates (R406–R410) -/

/-- Engine of an optical link port (R384). -/
def engineOf (n : Nat) : Nat := (n - 16) / 4
/-- Link ports of an engine. -/
def portsOf (e : Nat) : List Nat := (List.range 4).map (fun f => 16 + 4 * e + f)

def setGate (h : Hw) (n g : Nat) : Hw := h.setLink n { h.link n with gate := g }

/-- LOS of a lane by its average received power in 0.01 dBm: it holds below −15 dBm and ends above −12 dBm (R409). -/
def losOf (now : Bool) (power : Int) : Bool := if power < -1500 then true else if -1200 < power then false else now

/-- Take the received power of the four lanes of an optical link. -/
def senseLight (h : Hw) (n : Nat) (power : List Int) : Hw :=
  forBelow 4 (fun i h => let x := h.lane (4 * n + i)
    match power[i]? with
    | some p => h.setLane (4 * n + i) { x with los := losOf x.los p }
    | none => h) h

/-- LOS on all four lanes; LOS on none. -/
def allDark (h : Hw) (n : Nat) : Bool := (List.range 4).all (fun i => (h.lane (4 * n + i)).los)
def allLight (h : Hw) (n : Nat) : Bool := (List.range 4).all (fun i => !(h.lane (4 * n + i)).los)

/-- LOS on all four lanes for 100 µs with AUTO_SHUT: an OPEN gate enters SHUT, OPT_LOS is raised and the link goes down. -/
def losTimeout (h : Hw) (n : Nat) (power : List Int) : Hw :=
  let h := senseLight h n power
  let l := h.link n
  if 16 ≤ n && l.gate == 1 && l.autoShut && allDark h n then
    let h := setGate h n 2
    let e := h.engine (engineOf n)
    let h := h.setEngine (engineOf n) { e with shuts := satInc 32 e.shuts }
    linkDown (raise h 0x31E n) n
  else h
def execLosTimeout (link : Fin 64) (power : List Int) (s : State) : Result := .next (s.onHw fun h => losTimeout h link.val power)

/-- In SHUT, light on all four lanes returns the gate to OPEN; in PROBE, the gate stays OPEN (R409). -/
def losEnd (h : Hw) (n : Nat) (power : List Int) : Hw :=
  let h := senseLight h n power
  let g := (h.link n).gate
  if 16 ≤ n && (g == 2 || g == 3) && allLight h n then setGate h n 1 else h
def execLosEndInShut (link : Fin 64) (power : List Int) (s : State) : Result := .next (s.onHw fun h => losEnd h link.val power)

/-- Every 1 s in SHUT the gate enters PROBE (R409). -/
def shutProbe (h : Hw) (n : Nat) : Hw :=
  if 16 ≤ n && (h.link n).gate == 2 then
    let e := h.engine (engineOf n)
    setGate (h.setEngine (engineOf n) { e with probes := satInc 32 e.probes }) n 3
  else h
def execShutProbeTimer (link : Fin 64) (s : State) : Result := .next (s.onHw fun h => shutProbe h link.val)

/-- A PROBE of 2 ms ends: OPEN if light came back on all lanes, else SHUT (R409). -/
def probeEnd (h : Hw) (n : Nat) (power : List Int) : Hw :=
  if 16 ≤ n && (h.link n).gate == 3 then
    let h := senseLight h n power
    setGate h n (if allLight h n then 1 else 2)
  else h
def execProbeEnd (link : Fin 64) (power : List Int) (s : State) : Result := .next (s.onHw fun h => probeEnd h link.val power)

/-- An engine above 85 °C: its four gates enter HOT, OPT_OVERTEMP is raised, the links go down, UE 0x43 in each log (R410). -/
def overTemp (h : Hw) (e temp : Nat) : Hw :=
  let h := h.setEngine e { h.engine e with temp := temp }
  if temp ≤ 85 then h
  else forAll (portsOf e) (fun n h =>
    if (h.link n).gate == 4 then h
    else
      let h := raise (setGate h n 4) 0x31F n
      logOpen (linkDown h n) (96 + n) 2 0x43 none (some 0)) h
def execOptOvertemp (engine : Fin 12) (temp : Nat) (s : State) : Result := .next (s.onHw fun h => overTemp h engine.val temp)

/-- The laser input of an optical link, in 0.01 dBm: below +16 dBm for 1 ms raises OPT_LASER_LOW once, again only after a rise to
+17 dBm (R408). -/
def laserLow (h : Hw) (n : Nat) (power : Int) : Hw :=
  let l := h.link n
  if n < 16 then h
  else if power < 1600 && !l.laserLow then raise (h.setLink n { l with laserLow := true }) 0x31D n
  else if 1700 ≤ power then h.setLink n { l with laserLow := false }
  else h
def execOptLaserLow (link : Fin 64) (power : Int) (s : State) : Result := .next (s.onHw fun h => laserLow h link.val power)

/-! ### LANE.* commands (R412–R414) -/

/-- LANE.CONFIG sets RATE_MAX and PRECODE of a disabled link. -/
def execLaneConfig (m : Fin 16) (s : State) : Result :=
  .next (busyFirst s m.val 0x901 [.f 6, .f 2, .f 2] rClassI (fun v h => (h.link (v.getD 0 0)).state != 0) fun q h =>
    if (h.link (q.p 0)).state != 0 then (h, some (Reply.busy rClassI))
    else if q.p 1 == 3 || q.p 2 == 3 then (h, some (Reply.denied rRange))
    else (h.setLink (q.p 0) { h.link (q.p 0) with rateMax := q.p 1, precode := q.p 2 }, some (Reply.ok)))

/-- LANE.POWER sets the sleep timers (class L) and EFM_LOW of the named links. -/
def execLanePower (m : Fin 16) (s : State) : Result :=
  .next (runHw s m.val 0x902 [.f 64, .f 16, .f 32, .f 8] false fun q h =>
    let d := q.p 1
    let u := q.p 2
    if q.p 0 == 0 || !(d == 0 || (100 ≤ d && d ≤ 65000)) || !(u == 0 || (10 ≤ u && u ≤ 1000000)) then (h, some (Reply.denied rRange))
    else (forAll (bitsOf 64 (q.p 0)) (fun n h =>
      let l := h.link n
      let off := l.state == 0
      h.setLink n { l with drowseNext := d, slumberNext := u, efmLow := q.p 3,
                           drowse := if off then d else l.drowse, slumber := if off then u else l.slumber }) h, some (Reply.ok)))

/-- Sleep state of one lane's direction that uses the lanes `used`: OFF but for the lanes that the present width uses, and those
that a training or a widening under way needs (R388, R399). -/
def laneState (l : Link) (i used sleep : Nat) : Nat :=
  if l.state == 3 then
    (if tbit used i then sleep else if (l.tr.phase == 1 || l.tr.phase == 2 || l.tr.phase == 4) && tbit l.tr.lanes i then 1 else 0)
  else if l.state == 1 || l.state == 2 || l.state == 5 then b2n (tbit l.lanes i)
  else if l.state == 4 then b2n (tbit (Nat.lor l.lanes (wantedLanes l)) i)
  else 0

/-- A 32-byte lane record (R414). -/
def laneRecord (h : Hw) (n i : Nat) : List Byte :=
  let l := h.link n
  let x := h.lane (4 * n + i)
  recordBytes 32 [(2, laneState l i l.txLanes l.tx.sleep), (2, laneState l i l.rxLanes l.rx.sleep), (1, b2n x.txPrecode), (1, b2n x.rxPrecode),
    (1, b2n x.rxInvert), (1, b2n x.degraded), (8, x.efm), (8, x.efmMin), (4, x.ctle), (4, 0), (8, x.dfe), (8, ofInt 8 x.cm2),
    (8, ofInt 8 x.cm1), (8, (64 - x.cm2.natAbs - x.cm1.natAbs - x.cp1.natAbs)), (8, ofInt 8 x.cp1), (24, 0), (32, x.wakes),
    (32, x.wakeLate), (32, x.degrades)]

/-- LANE.QUERY (R414). -/
def laneQuery (q : Req) (h : Hw) : Hw × Option Reply :=
  let n := q.p 0
  if 63 < n then (h, some (Reply.denied rRange))
  else
    let l := h.link n
    let up := l.state != 0 && l.state != 6
    let head := recordBytes 8 [(6, n), (1, b2n (16 ≤ n)), (4, if 16 ≤ n then engineOf n else 0), (2, l.rate),
      (3, if up then laneCount l.lanes else 0), (32, KMap.get l.counts 16), (16, 0)]
    let body := head ++ ((List.range 4).map (laneRecord h n)).flatten
    let h := if q.p 1 == 1 then
        forBelow 4 (fun i h => h.setLane (4 * n + i) { h.lane (4 * n + i) with efmMin := 255, wakes := 0, wakeLate := 0, degrades := 0 })
          (h.setLink n { l with counts := KMap.set l.counts 16 0 })
      else h
    (h, some (Reply.ok body))
def execLaneQuery (m : Fin 16) (s : State) : Result :=
  .next (runHw s m.val 0x903 [.f 8, .f 1] false fun q h => laneQuery q h)

/-! ### OPT.* commands (R415–R417) -/

/-- Close a gate; an open one takes its link's light away. -/
def closeGates (h : Hw) (e : Nat) : Hw := forAll (portsOf e) (fun n h => setGate h n 0) h

/-- Turn an engine off, its gates closed first (R407). -/
def engineOff (h : Hw) (e : Nat) : Hw := (closeGates h e).setEngine e { (h.engine e) with on := false, heating := none }

/-- OPT.ENGINE: ON answers once the modulators are at temperature; a change of nothing answers at once. -/
def optEngine (q : Req) (h : Hw) : Hw × Option Reply :=
  let e := q.p 0
  if 11 < e then (h, some (Reply.denied rRange))
  else if q.p 1 == 0 then (if (h.engine e).on then engineOff h e else h, some (Reply.ok))
  else if (h.engine e).on then (h, some (Reply.ok))
  else (setWork (h.setEngine e { h.engine e with on := true, heating := some q.m }) q.m 0x904 [] [e], none)
def execOptEngine (m : Fin 16) (s : State) : Result :=
  .next (runHw s m.val 0x904 [.f 4, .f 1] false fun q h => optEngine q h)

/-- The modulators of a powered engine reach temperature and the OPT.ENGINE that waits for them answers OK (R415). -/
def atTemperature (h : Hw) (e : Nat) : Hw :=
  let h' := h.setEngine e { h.engine e with heating := none }
  match (h.engine e).heating with
  | some m =>
    if !(h.engine e).on then h
    else if ((workOf h m 0x904).map (·.args)) == some [e] then answer h' m (Reply.ok) else h'
  | none => h
def execModulatorsAtTemperature (engine : Fin 12) (s : State) : Result := .next (s.onHw fun h => atTemperature h engine.val)

/-- OPT.GATE opens or closes the named gates (R416); OPEN also ends a PROBE or SHUT. -/
def optGate (q : Req) (h : Hw) : Hw × Option Reply :=
  let ms := bitsOf 48 (q.p 0)
  if q.p 0 == 0 then (h, some (Reply.denied rRange))
  else if ms.any (fun i => !(h.engine (i / 4)).on) then (h, some (Reply.denied rState))
  else if q.p 1 == 1 && ms.any (fun i => (h.link (16 + i)).gate == 4 && 80 < (h.engine (i / 4)).temp) then (h, some (Reply.denied rState))
  else if q.p 1 == 1 then
    (forAll ms (fun i h => h.setLink (16 + i) { h.link (16 + i) with gate := 1, autoShut := q.p 2 == 1 }) h, some (Reply.ok))
  else (forAll ms (fun i h => setGate h (16 + i) 0) h, some (Reply.ok))
def execOptGate (m : Fin 16) (s : State) : Result :=
  .next (runHw s m.val 0x905 [.f 48, .f 1, .f 1] false fun q h => optGate q h)

/-- OPT.QUERY returns one engine's 128-byte record (R417). -/
def optQuery (q : Req) (h : Hw) : Hw × Option Reply :=
  let e := q.p 0
  if 11 < e then (h, some (Reply.denied rRange))
  else
    let x := h.engine e
    let (light, h) := freshList 20 h
    let gates := (portsOf e).map (fun n => (3, (h.link n).gate))
    let shut := (portsOf e).map (fun n => (1, b2n (h.link n).autoShut))
    let los := (List.range 16).map (fun j => (1, b2n (h.lane (64 + 16 * e + j)).los))
    (h, some (Reply.ok (recordBytes 128 ([(4, e), (1, b2n x.on), (3, 0), (8, x.temp)] ++ gates ++ shut
      ++ (light.take 4).map (fun v => (16, v)) ++ los ++ [(16, 0)] ++ (light.drop 4).map (fun v => (16, v))
      ++ [(32, x.shuts), (32, x.probes)]))))
def execOptQuery (m : Fin 16) (s : State) : Result :=
  .next (runHw s m.val 0x906 [.f 8] false fun q h => optQuery q h)

end Sys2Proof.Machine
end

