-- ==== Sys2Proof/Machine/Links.lean ====
section
/-!
DEFINITION. The link layer's rows (chapter 14): flits, CTRL commands, training, timers, and the LINK.* commands.
-/
namespace Sys2Proof.Machine
open Sys2Proof

/-! ### Flits -/

/-- A DATA flit arrives (R434). -/
def execDataFlit (link : Fin 64) (flit : List Byte) (s : State) : Result := .next (s.onHw fun h => receiveFlit h link.val flit)
/-- An IDLE flit arrives (R434). -/
def execIdleFlit (link : Fin 64) (flit : List Byte) (s : State) : Result := .next (s.onHw fun h => receiveFlit h link.val flit)
/-- A REPLAY_START flit arrives (R434). -/
def execReplayStart (link : Fin 64) (flit : List Byte) (s : State) : Result := .next (s.onHw fun h => receiveFlit h link.val flit)
/-- A flit that forward error correction or the CRC rejects arrives (R420, R434). -/
def execFlitFail (link : Fin 64) (flit : List Byte) (s : State) : Result := .next (s.onHw fun h => receiveFlit h link.val flit)
/-- CTRL flits arrive (R434, R446). -/
def execWidthReq (link : Fin 64) (flit : List Byte) (s : State) : Result := .next (s.onHw fun h => receiveFlit h link.val flit)
def execWidthAck (link : Fin 64) (flit : List Byte) (s : State) : Result := .next (s.onHw fun h => receiveFlit h link.val flit)
def execWidthGo (link : Fin 64) (flit : List Byte) (s : State) : Result := .next (s.onHw fun h => receiveFlit h link.val flit)
def execRetrainReq (link : Fin 64) (flit : List Byte) (s : State) : Result := .next (s.onHw fun h => receiveFlit h link.val flit)
def execRateReq (link : Fin 64) (flit : List Byte) (s : State) : Result := .next (s.onHw fun h => receiveFlit h link.val flit)
def execWidthAbandon (link : Fin 64) (flit : List Byte) (s : State) : Result := .next (s.onHw fun h => receiveFlit h link.val flit)

/-- A received block: discarded, or taken as a sleep marker, when it is recognised; decoded as a flit otherwise (R425). -/
def receiveBlock (h : Hw) (n value sleep : Nat) (b : List Byte) : Hw :=
  if (h.link n).state != 3 then h
  else if blockIs value b then
    if sleep == 0 then h else modLink h n fun l => { l with rx := { l.rx with sleep := sleep } }
  else receiveFlit h n (blockAsFlit (h.link n) (h.lane (4 * n)).rxPrecode b)

/-- FILLER: discarded on arrival (R396). -/
def execFiller (link : Fin 64) (block : List Byte) (s : State) : Result := .next (s.onHw fun h => receiveBlock h link.val 0xF3 0 block)
/-- DROWSE and SLUMBER markers put the receive direction to sleep (R400). -/
def execDrowseMarker (link : Fin 64) (block : List Byte) (s : State) : Result := .next (s.onHw fun h => receiveBlock h link.val 0xF4 2 block)
def execSlumberMarker (link : Fin 64) (block : List Byte) (s : State) : Result := .next (s.onHw fun h => receiveBlock h link.val 0xF5 3 block)

/-- A filler block is due after every 4,096 flits (R396); where a flit goes first, it takes the filler with it. -/
def fillerSend (h : Hw) (n : Nat) : Hw :=
  let l := h.link n
  if l.state == 3 && l.tx.sleep == 1 && 4096 ≤ l.tx.sinceFiller then modLink h n putFiller else h
def execFillerSend (link : Fin 64) (s : State) : Result := .next (s.onHw fun h => fillerSend h link.val)

/-- The replay timer runs while flits are outstanding and the link and its receive direction are ACTIVE (R437, R402). -/
def replayTimer (h : Hw) (n : Nat) : Hw :=
  let l := h.link n
  if l.state == 3 && l.rx.sleep == 1 && !l.tx.buffer.isEmpty then replayTrigger h n true else h
def execReplayTimerExpiry (link : Fin 64) (s : State) : Result := .next (s.onHw fun h => replayTimer h link.val)

/-! ### CTRL timers and widening (R446) -/

/-- An unanswered CTRL is sent again. -/
def resendCtrl (h : Hw) (n : Nat) : Hw :=
  let l := h.link n
  match l.tx.ctrl with
  | some (c, id, lanes) => if l.state == 3 then sendCtrl h n c id lanes else h
  | none => h
def execCtrlResendTimer (link : Fin 64) (s : State) : Result := .next (s.onHw fun h => resendCtrl h link.val)

/-- After 10 µs without an answer a width request is abandoned and an unanswered RETRAIN_REQ enters RETRAIN. -/
def ctrlTimeout (h : Hw) (n : Nat) : Hw :=
  let l := h.link n
  match l.tx.ctrl with
  | some (1, _, _) => if l.state == 3 then dropChange h n else h
  | some (4, _, _) => enterRetrain h n
  | _ => h
def execCtrlAnswerTimeout (link : Fin 64) (s : State) : Result := .next (s.onHw fun h => ctrlTimeout h link.val)

/-- The CTLE setting with the highest EFM, the lower setting on a tie (R394). -/
def bestSetting (windows : List Nat) : Nat :=
  (windows.zipIdx.foldl (fun b x => if b.1 < x.1 then x else b) (windows.headD 0, 0)).2
/-- What this end's receiver on a link lane found at a rate. -/
def trialOf (ts : List Trial) (rate i : Nat) : Option Trial := ts.find? fun t => t.rate == rate && t.lane == i
/-- Link lanes whose receivers pass at a rate by their final EFM (R394). -/
def passingLanes (ts : List Trial) (rate : Nat) : Nat :=
  packBits ((List.range 4).map fun i => match trialOf ts rate i with | some t => decide (trainPass rate ≤ t.final) | none => false)
/-- The receivers of the lanes of a set after training at a rate: CTLE by the search, FFE and DFE as they converged, and the last
window's EFM (R392, R394). -/
def trainLanes (h : Hw) (n rate set : Nat) (ts : List Trial) : Hw :=
  forAll (bitsOf 4 set) (fun i h =>
    match trialOf ts rate i with
    | some t =>
      let x := h.lane (4 * n + i)
      adapt (h.setLane (4 * n + i) { x with ctle := bestSetting t.windows, efm := t.final, efmMin := Nat.min x.efmMin t.final }) (4 * n + i)
    | none => h) h

/-- This end's added receivers pass: the partner of a request answers, the requester sends WIDTH_GO once it has the ACK. -/
def widenPass (h : Hw) (n : Nat) (ts : List Trial) : Hw :=
  let l := h.link n
  let t := l.tr
  let added := t.lanes - Nat.land t.lanes l.lanes
  let h := if l.state == 3 then trainLanes h n l.rate added ts else h
  if l.state != 3 || !laneSubset added (passingLanes ts l.rate) then h
  else if !t.mine && t.phase == 2 then ackWidth h n
  else if t.mine && t.phase == 4 then goWidth h n
  else if t.mine && t.phase == 1 then modLink h n fun l => { l with tr := { l.tr with passed := true } }
  else h
def execWidenLanesPass (pass : LinkTrials) (s : State) : Result := .next (s.onHw fun h => widenPass h pass.link.val pass.trials)

/-- A widening lane has not passed within 10 ms: WIDTH_ABANDON. -/
def widenTimeout (h : Hw) (n : Nat) : Hw :=
  let t := (h.link n).tr
  if (h.link n).state == 3 && ((!t.mine && t.phase == 2) || (t.mine && (t.phase == 4 || t.phase == 1) && !t.passed)) then
    onWidthAbandon (sendCtrl h n 6 t.reqId t.lanes) n
  else h
def execWidenTimeout (link : Fin 64) (s : State) : Result := .next (s.onHw fun h => widenTimeout h link.val)

/-! ### Training (R442, R443) -/

/-- One transmit tap moved by an equaliser request, within its range (R392, R443). -/
def applyEq (l : Lane) (req : Nat) : Lane :=
  let d : Int := if req / 4 % 4 == 1 then 1 else if req / 4 % 4 == 2 then -1 else 0
  let clamp := fun (lo x : Int) => if x < lo then lo else if 0 < x then 0 else x
  match req % 4 with
  | 0 => { l with cm2 := clamp (-8) (l.cm2 + d) }
  | 1 => { l with cm1 := clamp (-24) (l.cm1 + d) }
  | 2 => { l with cp1 := clamp (-16) (l.cp1 + d) }
  | _ => { l with cm2 := 0, cm1 := -6, cp1 := 0 }

/-- An EQ block asks a transmitter for a tap, and its own next EQ block acknowledges it, with the tap that its receiver asks for: what
the search tries next depends on measured values, so that request is free (R392, R443). -/
def answerEq (h : Hw) (n : Nat) (t : TsBlock) : Hw :=
  let x := h.lane (4 * n + t.lane)
  let limit := t.eqReq % 4 != 3 && (t.eqReq / 4 % 4 == 1 || t.eqReq / 4 % 4 == 2) && applyEq x t.eqReq == x
  let (v, h) := freshBits 4 (h.setLane (4 * n + t.lane) (applyEq x t.eqReq))
  let answer := tsOf h n t.lane 3 t.rate (v % 4 + 4 * (v / 4 % 3)) (t.eqReq % 16 + 16 * b2n limit)
  modLink h n fun l => { l with tr := { l.tr with sent := KMap.ins l.tr.sent t.lane answer } }

/-- A TS block arrives (R442–R444): eight valid ones in DETECT lead to CONFIG, eight READY in CONFIG to ACTIVE, one in ACTIVE to
RETRAIN; an EQ block asks for taps and reports PASS. Each block taken in CONFIG draws READY; sixteen of its own have gone out by the
eighth received (log entry 17). -/
def receiveTs (h : Hw) (n : Nat) (b : List Byte) : Hw :=
  let l := h.link n
  match tsTake b with
  | none => if l.state == 1 then modLink h n fun l => { l with tr := { l.tr with tsRun := 0 } } else h
  | some t =>
    let seen := fun (h : Hw) =>
      let h := h.setLane (4 * n + t.lane) { h.lane (4 * n + t.lane) with rxInvert := t.inverted }
      modLink h n fun l => { l with partner := t.node, tr := { l.tr with rates := t.rates, wmax := t.wmax, precode := t.precode } }
    if l.state == 3 then enterRetrain h n
    else if l.state == 1 then
      let h := seen h
      if 8 ≤ l.tr.tsRun + 1 then modLink h n fun l => { l with state := 2, tr := { l.tr with tsRun := 0, ready := 0 } }
      else modLink h n fun l => { l with tr := { l.tr with tsRun := l.tr.tsRun + 1 } }
    else if l.state == 2 then
      let h := sendTs (seen h) n 1 2 3
      if t.type == 2 then
        if 8 ≤ l.tr.ready + 1 then enterActive h n
        else modLink h n fun l => { l with tr := { l.tr with ready := l.tr.ready + 1 } }
      else h
    else if l.state == 4 || l.state == 5 then
      let h := seen h
      if t.type == 3 then
        let h := answerEq h n t
        let p := (h.link n).tr.passing
        let k := 2 ^ (4 * (t.rate % 4) + t.lane)
        let p := if t.pass then Nat.lor p k else p - Nat.land p k
        modLink h n fun l => { l with tr := { l.tr with passing := p } }
      else h
    else h
def execTsCap (link : Fin 64) (block : List Byte) (s : State) : Result := .next (s.onHw fun h => receiveTs h link.val block)
def execTsReady (link : Fin 64) (block : List Byte) (s : State) : Result := .next (s.onHw fun h => receiveTs h link.val block)
def execTsEq (link : Fin 64) (block : List Byte) (s : State) : Result := .next (s.onHw fun h => receiveTs h link.val block)

/-- Lanes that pass in both directions at a rate: this end's receivers by their final EFM, the partner's by the PASS bits of its
EQ blocks (R394, R442, R443). -/
def passesBoth (l : Link) (ts : List Trial) (rate : Nat) : Nat := Nat.land (passingLanes ts rate) (fld l.tr.passing (4 * rate) 4)

/-- Rate training ends (R387, R442): at the first rate of R224, R112, R56 that both ends offer and at which every lane of the
width passes in both directions; else at the Dawn rate, width 1. -/
def rateTrainEnd (h : Hw) (n : Nat) (ts : List Trial) : Hw :=
  let l := h.link n
  if l.state != 4 then h
  else
    let want := wantedLanes l
    let rate := (List.range 3).find? fun r => l.rateMax ≤ r && tbit l.tr.rates r && laneSubset want (passesBoth l ts r)
    match rate with
    | some r => autoNarrow (reenterActive (setPrecode (trainLanes h n r want ts) n r) n r want) n
    | none => reenterActive (setPrecode (trainLanes h n 3 1 ts) n 3) n 3 1
def execRateTrainEnd (link : Fin 64) (trials : List Trial) (s : State) : Result := .next (s.onHw fun h => rateTrainEnd h link.val trials)

/-- A retrain ends (R442): ACTIVE at the widest width that passes, else DOWN. A pending width need is looked at again (R445). -/
def retrainEnd (h : Hw) (n : Nat) (ts : List Trial) : Hw :=
  let l := h.link n
  if l.state != 5 then h
  else
    match widestSet (Nat.land l.lanes (passesBoth l ts l.rate)) 4 with
    | some s => autoNarrow (reenterActive (setPrecode (trainLanes h n l.rate s ts) n l.rate) n l.rate s) n
    | none => linkDown h n
def execRetrainEnd (link : Fin 64) (trials : List Trial) (s : State) : Result := .next (s.onHw fun h => retrainEnd h link.val trials)

/-- A link in CONFIG for 1 ms returns to DETECT (R442). -/
def configTimeout (h : Hw) (n : Nat) : Hw := if (h.link n).state == 2 then enterDetect h n else h
def execConfigTimeout (link : Fin 64) (s : State) : Result := .next (s.onHw fun h => configTimeout h link.val)

/-- A link DOWN for 1 ms goes to DETECT unless it is held (R442, R449) or its clock's reference is lost (R404). -/
def downTimeout (h : Hw) (n : Nat) : Hw :=
  let l := h.link n
  if l.state == 6 && !l.held && !h.clk.loss then enterDetect h n else h
def execDownTimeout (link : Fin 64) (s : State) : Result := .next (s.onHw fun h => downTimeout h link.val)

/-- A link that entered ACTIVE at the Dawn rate from CONFIG is sent RATE_REQ unless HOLD_DAWN names it (R551, R442). -/
def dawnRateReq (h : Hw) (n : Nat) : Hw :=
  let l := h.link n
  if l.state == 3 && l.rate == 3 && l.tr.rateDue && !(n < 16 && tbit h.sys.holdDawn n) then enterRateTrain (sendCtrl h n 5 0 0) n else h
def execDawnLinkRateReq (link : Fin 64) (s : State) : Result := .next (s.onHw fun h => dawnRateReq h link.val)

/-! ### Sleep (R399–R403) -/

/-- Whether the transmit direction has something to send or owes an acknowledgement or credit return (R400, R401); a replay goes
as it falls due, waking the direction first. -/
def hasToSend (h : Hw) (n : Nat) : Bool :=
  h.router.egress.any (fun q => q.port == n) || (h.link n).owes || (h.link n).tx.ctrl.isSome

/-- An idle transmit direction sends a DROWSE marker and enters DROWSE (R400). -/
def drowseTimer (h : Hw) (n : Nat) : Hw :=
  let l := h.link n
  if l.state == 3 && l.tx.sleep == 1 && l.drowse != 0 && l.tr.phase == 0 && !hasToSend h n then
    modLink h n fun l => { l.putBlock 0xF4 with slumber := l.slumberNext, tx := { (l.putBlock 0xF4).tx with sleep := 2 } }
  else h
def execDrowseIdleTimer (link : Fin 64) (s : State) : Result := .next (s.onHw fun h => drowseTimer h link.val)

/-- A direction in DROWSE for SLUMBER_IDLE sends a second marker and enters SLUMBER (R400). -/
def slumberTimer (h : Hw) (n : Nat) : Hw :=
  let l := h.link n
  if l.state == 3 && l.tx.sleep == 2 && l.slumber != 0 then
    modLink h n fun l => { l.putBlock 0xF5 with tx := { (l.putBlock 0xF5).tx with sleep := 3 } }
  else h
def execSlumberIdleTimer (link : Fin 64) (s : State) : Result := .next (s.onHw fun h => slumberTimer h link.val)

/-- A need to send wakes a sleeping transmit direction (R401). -/
def transmitWake (h : Hw) (n : Nat) : Hw :=
  let l := h.link n
  if l.state == 3 && 2 ≤ l.tx.sleep && hasToSend h n then wakeTransmit h n else h
def execTransmitWake (link : Fin 64) (s : State) : Result := .next (s.onHw fun h => transmitWake h link.val)

/-- A wake pattern wakes the receiver and this end's sleeping transmit direction (R402). -/
def wakePattern (h : Hw) (n : Nat) : Hw :=
  let l := h.link n
  if l.state != 3 then h
  else
    let h := if 2 ≤ l.rx.sleep then modLink (countWakes h n) n fun l => { l with rx := { l.rx with sleep := 1 } } else h
    if 2 ≤ l.tx.sleep then wakeTransmit h n else h
def execWakePattern (link : Fin 64) (s : State) : Result := .next (s.onHw fun h => wakePattern h link.val)

/-- A receiver not locked within twice the wake time: counted, LANE_WAKE_LATE, and the link retrains (R403). -/
def wakeLate (h : Hw) (n : Nat) : Hw :=
  if (h.link n).state != 3 then h
  else
    let h := forAll (lanesInUse h n) (fun k h => raise (h.setLane k { h.lane k with wakeLate := satInc 32 (h.lane k).wakeLate }) 0x31C k) h
    enterRetrain h n
def execWakeLate (link : Fin 64) (s : State) : Result := .next (s.onHw fun h => wakeLate h link.val)

/-! ### LINK.* commands (R450, R451) -/

/-- LINK.ENABLE enables or disables links; one that failed self-test or is under it stays as it is (R565, R567). -/
def execLinkEnable (m : Fin 16) (s : State) : Result :=
  .next (runHw s m.val 0xA01 [.f 64, .f 1] false fun q h =>
    let ls := bitsOf 64 (q.p 0)
    if q.p 1 == 1 && ls.any (fun n => bistHolds h (5 * 64 + n)) then (h, some (Reply.busy rState))
    else if q.p 1 == 1 then (forAll ls (fun n h => if h.pwr.state == 2 then h else linkEnable h n) h, some (Reply.ok))
    else (forAll ls (fun n h => linkDisable h n) h, some (Reply.ok)))

/-- LINK.CONFIG sets WIDTH_MAX of a disabled link. -/
def execLinkConfig (m : Fin 16) (s : State) : Result :=
  .next (runHw s m.val 0xA02 [.f 6, .f 3] false fun q h =>
    if !(q.p 1 == 1 || q.p 1 == 2 || q.p 1 == 4) then (h, some (Reply.denied rRange))
    else if (h.link (q.p 0)).state != 0 then (h, some (Reply.busy rClassI))
    else (modLink h (q.p 0) fun l => { l with widthMax := q.p 1 }, some (Reply.ok)))

/-- LINK.TUNE sets REPLAY_LIMIT, REPLAY_TIMER (class L) and WIDTH_AUTO of the named links. -/
def execLinkTune (m : Fin 16) (s : State) : Result :=
  .next (runHw s m.val 0xA03 [.f 64, .f 4, .f 32, .f 1] false fun q h =>
    if q.p 1 == 0 || q.p 2 < 500 || 100000 < q.p 2 then (h, some (Reply.denied rRange))
    else (forAll (bitsOf 64 (q.p 0)) (fun n h => modLink h n fun l =>
      { l with replayLimit := q.p 1, replayTimerNext := q.p 2, widthAuto := q.p 3 == 1,
               replayTimer := if l.state == 3 then l.replayTimer else q.p 2 }) h, some (Reply.ok)))

/-- LINK.RETRAIN asks for a retrain, or starts a rate training or a restart, and answers when the link is ACTIVE again or DOWN; a restart while
CLK_LOSS keeps the link DOWN answers at once. -/
def linkRetrain (q : Req) (h : Hw) : Hw × Option Reply :=
  let n := q.p 0
  let l := h.link n
  if q.p 1 == 3 then (h, some (Reply.denied rRange))
  else if l.state == 0 || (q.p 1 != 2 && l.state != 3 && l.state != 4 && l.state != 5) then (h, some (Reply.denied rState))
  else if l.state == 4 || l.state == 5 || l.tr.phase != 0 || (q.p 1 != 2 && l.tx.ctrl.isSome) then (h, some (Reply.busy rState))
  else if q.p 1 == 0 then (requestRetrain (setWork h q.m 0xA04 [] [n]) n, none)
  else if q.p 1 == 1 then (enterRateTrain (sendCtrl (setWork h q.m 0xA04 [] [n]) n 5 0 0) n, none)
  else
    let h := enterDetect (linkDown h n) n
    if (h.link n).state == 6 then (h, some (Reply.ok (rateWidth (h.link n)))) else (setWork h q.m 0xA04 [] [n], none)
def execLinkRetrain (m : Fin 16) (s : State) : Result :=
  .next (runHw s m.val 0xA04 [.f 6, .f 2] false fun q h => linkRetrain q h)

/-- LINK.WIDTH requests a lane set and answers after the change. -/
def linkWidth (q : Req) (h : Hw) : Hw × Option Reply :=
  let n := q.p 0
  let l := h.link n
  if !permittedSets.contains (q.p 1) || l.widthMax < laneCount (q.p 1) then (h, some (Reply.denied rRange))
  else if l.state != 3 || l.rate == 3 then (h, some (Reply.denied rState))
  else if l.tr.phase != 0 || l.tx.ctrl.isSome then (h, some (Reply.busy rState))
  else if q.p 1 == l.lanes then (h, some (Reply.ok))
  else (requestWidth (setWork h q.m 0xA05 [] [n]) n (q.p 1), none)
def execLinkWidth (m : Fin 16) (s : State) : Result :=
  .next (runHw s m.val 0xA05 [.f 6, .f 4] false fun q h => linkWidth q h)

/-- STATE of R451: 7 = DOWN and held. -/
def Link.code (l : Link) : Nat := if l.state == 6 && l.held then 7 else l.state

/-- The 64-byte record of LINK.QUERY (R451). -/
def linkRecord (l : Link) : List Byte :=
  recordBytes 64 ([(3, l.code), (2, l.rate), (4, l.lanes), (1, b2n l.rx.recover), (12, l.partner), (10, 0), (32, l.rttNs)]
    ++ (List.range 11).map (fun i => (32, KMap.get l.counts i)))

/-- LINK.QUERY returns one link's record and, with CLEAR, clears its counts. -/
def linkQuery (q : Req) (h : Hw) : Hw × Option Reply :=
  let n := q.p 0
  let r := linkRecord (h.link n)
  if 63 < n then (h, some (Reply.denied rRange))
  else if q.p 1 == 1 then
    (modLink h n fun l => { l with counts := l.counts.filter (fun p => 11 ≤ p.1) }, some (Reply.ok r))
  else (h, some (Reply.ok r))
def execLinkQuery (m : Fin 16) (s : State) : Result :=
  .next (runHw s m.val 0xA06 [.f 8, .f 1] false fun q h => linkQuery q h)

end Sys2Proof.Machine
end

