-- ==== Sys2Proof/Machine/Router.lean ====
section
/-!
DEFINITION. Routing and scheduling (chapter 15, R452–R474, R481–R484): arrival of packets, policing, egress scheduling,
Horizon lists, epochs and salvage, and the ROUTE.*, QOS.* and HORIZON.* commands.
-/
namespace Sys2Proof.Machine
open Sys2Proof

/-! ### Arrival (R430, R454–R456, R470) -/

/-- A refusal of a coherence request: DENY in RSP with the request's address and TID (R117, R118). -/
def denyPacket (h : Hw) (p : Packet) : Packet :=
  mkPacket 0x25 2 p.sclass p.src p.dst p.tid (cohControl (Packet.addr p) 0 0 (pepochOf h p.dst) false false 0)

/-- The answer of the policer to a packet that it drops (R470): STATUS POLICED. -/
def policedAnswer (p : Packet) : Option Packet :=
  let c := pack [(60, Packet.addr p), (4, 0), (13, Packet.cf p 64 13), (3, 0), (4, stPoliced)]
  if p.opcode == 0x40 then some (mkPacket 0x42 3 p.sclass p.src p.dst p.tid (leBytes 16 c))
  else if p.opcode == 0x41 then some (mkPacket 0x43 2 p.sclass p.src p.dst p.tid (leBytes 16 c))
  else if p.opcode == 0x61 then some (mkPacket 0x63 2 p.sclass p.src p.dst p.tid (leBytes 16 c))
  else none

/-- Whether the ingress policer of a link port drops a packet; a packet that conforms takes its tokens (R470). -/
def police (h : Hw) (port : Nat) (p : Packet) : Bool × Hw :=
  let q := h.qos port
  let b := q.policer
  if port < 64 && p.vc == 4 && b.rate != 0 then
    if Packet.size p ≤ b.tokens then (false, h.setQos port { q with policer := { b with tokens := b.tokens - Packet.size p } })
    else (true, h)
  else (false, h)

/-- The packet leaves the receive buffer of its link port, and its credits are freed (R440). -/
def leaveBuffer (h : Hw) (port : Nat) (p : Packet) : Hw :=
  match h.router.arrived.span (fun a => !(a.port == port && a.packet == p)) with
  | (l, _ :: r) =>
    let h := { h with router := { h.router with arrived := l ++ r } }
    modLink h port fun k => { k with rx := { k.rx with cum := KMap.mod k.rx.cum p.vc (fun c => (c + creditsOf p) % 4096) } }
  | _ => h

/-- The table that routes a packet that arrived on a port, and the packet with its epoch as R456 leaves it. -/
def epochOf (h : Hw) (port : Nat) (p : Packet) : Nat × Packet :=
  let e := h.router.epoch
  let own := if p.repoch then 1 else 0
  if port < 64 && tbit h.router.roles port then (e, { p with repoch := e == 1 })
  else if own == e then (e, p)
  else if h.router.holding then (own, p)
  else (e, { p with repoch := e == 1 })

/-- A packet for a service that this module is standby for is held; one that came over a link stays in its receive buffer, so its credits stay
taken, and it is held once (R441, R504). -/
def holdPacket (h : Hw) (port : Nat) (p : Packet) : Hw :=
  let a : Arrived := { port := port, packet := p }
  let n := h.router.arrived.count a
  if n != 0 && n ≤ h.pair.heldPackets.count a then h else { h with pair := { h.pair with heldPackets := h.pair.heldPackets ++ [a] } }

/-- A packet that has arrived on a port is policed, checked, decoded for this module or forwarded (R430, R454–R456, R470). A
mirror link brings no Idzar packet (R492). What is malformed is discarded, but for an opcode that REQ does not carry, which draws DENY (R118). -/
def routePacket (h : Hw) (port : Nat) (p : Packet) : Hw :=
  if !h.sys.routerOn || (port < 64 && tbit (mirrorLinks h) port) then h
  else
    let hold := heldService h p.dst && !malformed p
    let h := if port < 64 && !hold then leaveBuffer h port p else h
    let (drop, h) := police h port p
    let h := if port < 64 && hold && drop then leaveBuffer h port p else h
    if drop then
      let h := routerCount h (16 + port)
      match policedAnswer p with
      | some a => send h a
      | none => h
    else if malformed p then
      let h := logMalformed h
      if isOwn h p.dst && p.vc == 0 && opcodeVc p.opcode != 0 && p.opcode != 0x60 && p.opcode != 0x61 then send h (denyPacket h p) else h
    else if hold then holdPacket h port p
    else if isOwn h p.dst then queueAt h (destPort p) false p
    else if p.vc == 7 then h
    else if p.ttl == 0 then logOpen (routerCount h 1) 160 2 0x52 none none
    else
      let (t, p) := epochOf h port p
      routeBy h t { p with ttl := p.ttl - 1 }

def execPacketRoute (port : Fin 98) (p : Packet) (s : State) : Result := .next (s.onHw fun h => routePacket h port.val p)

/-! ### Horizon gates (R471, R472, R474) -/

def Hw.horizon (h : Hw) (port : Nat) : Horizon := KMap.get h.router.horizons port
def Hw.setHorizon (h : Hw) (port : Nat) (x : Horizon) : Hw :=
  { h with router := { h.router with horizons := KMap.set h.router.horizons port x } }

/-- Cycle length of a list in ps. -/
def cycleLength (es : List (Nat × Nat)) : Nat := 1000 * (es.map Prod.fst).sum

/-- Fabric time that the gates may follow (R474). -/
def timeGates (h : Hw) : Bool := h.time.state == 4 || h.time.state == 2 || h.time.state == 3

/-- Megabits per second of a rate code (R386). -/
def rateMbps (r : Nat) : Nat := [224000, 112000, 56000, 53125].getD r 53125

/-- Time in ps to send a packet of `bytes` on a link at its rate and width; a link without lanes counts as one lane at the
Dawn rate. -/
def sendTime (l : Link) (bytes : Nat) : Nat :=
  let w := if l.lanes == 0 then 53125 else laneCount l.lanes * rateMbps l.rate
  ((bytes + 171) / 172 * 1536000000 + w - 1) / w

/-- Length in ps of the window of VC `v` that begins with entry `i`: consecutive entries in which it is open, wrap included. -/
def windowFrom (es : List (Nat × Nat)) (v i : Nat) : Nat :=
  let n := es.length
  let seq := (List.range n).map (fun k => es.getD ((i + k) % n) (0, 0))
  1000 * ((seq.takeWhile (fun e => tbit e.2 v)).map Prod.fst).sum

/-- Time in ps left of the entry in force, by the fabric time. -/
def entryLeft (h : Hw) (x : Horizon) : Nat :=
  let c := cycleLength x.entries
  let pos := if c == 0 || h.time.now < x.base then 0 else (h.time.now - x.base) % c
  let start := 1000 * ((x.entries.take x.entry).map Prod.fst).sum
  let dur := 1000 * (x.entries.getD x.entry (0, 0)).1
  if start ≤ pos && pos < start + dur then start + dur - pos else dur

/-- Whether the gate lets a packet start (R472). -/
def gateOpen (h : Hw) (port : Nat) (p : Packet) : Bool :=
  let x := h.horizon port
  if x.entries.isEmpty || !x.running || !timeGates h || p.vc == 7 then true
  else
    let e := x.entries.getD x.entry (0, 0)
    let all := x.entries.all (fun e => tbit e.2 p.vc)
    let rest := windowFrom x.entries p.vc ((x.entry + 1) % x.entries.length)
    tbit e.2 p.vc && (all || sendTime (h.link port) (Packet.size p) ≤ entryLeft h x + rest)

/-- HORIZON_UNLOCKED is ACTIVE while a list exists that the fabric time cannot drive; the lists stop until their next cycle
start (R474). -/
def settleHorizon (h : Hw) : Hw :=
  let ports := (h.router.horizons.filter (fun p => !p.2.entries.isEmpty)).map Prod.fst
  let bad := !ports.isEmpty && !timeGates h
  if bad == h.router.unlocked then h
  else
    let h := { h with router := { h.router with unlocked := bad } }
    let h := if bad then forAll ports (fun n h => h.setHorizon n { h.horizon n with running := false }) h else h
    setLevel h 0x316 bad (ports.headD 0)

/-- The fabric time from which a list loaded now is in force (R473): the first of its own cycle starts at or after the next cycle
start of the list that it replaces, or at or after now where it replaces none. -/
def takesForce (now : Nat) (old : Horizon) (base : Nat) (es : List (Nat × Nat)) : Nat :=
  let from' := if old.entries.isEmpty then now
    else if now < old.base then old.base else old.base + ((now - old.base) / cycleLength old.entries + 1) * cycleLength old.entries
  if es.isEmpty then from' else if from' ≤ base then base
  else base + (from' - base + cycleLength es - 1) / cycleLength es * cycleLength es

/-- A list begins a cycle: a latched list whose time has come takes the place of the one in force (R473). -/
def cycleStart (h : Hw) (port : Nat) : Hw :=
  let x := h.horizon port
  match x.next with
  | some (b, es) =>
    if h.time.now < x.due then (if x.entries.isEmpty then h else h.setHorizon port { x with entry := 0, running := timeGates h })
    else h.setHorizon port { base := b, entries := es, next := none, entry := 0, running := timeGates h && !es.isEmpty }
  | none => if x.entries.isEmpty then h else h.setHorizon port { x with entry := 0, running := timeGates h }
def execHorizonCycleStart (port : Fin 64) (s : State) : Result := .next (s.onHw fun h => settleHorizon (cycleStart h port.val))

/-- The next entry of a running list comes into force (R471). -/
def entryBoundary (h : Hw) (port : Nat) : Hw :=
  let x := h.horizon port
  if x.running && x.entry + 1 < x.entries.length then h.setHorizon port { x with entry := x.entry + 1 } else h
def execHorizonEntryBoundary (port : Fin 64) (s : State) : Result := .next (s.onHw fun h => entryBoundary h port.val)

/-! ### Egress scheduling (R464–R467) -/

/-- A packet that draws a response goes to node `n` and its response has not come, from before serial number `k`: a tile's request,
or a snoop of an open transaction (R461). -/
def unanswered (h : Hw) (n k : Nat) : Bool :=
  h.outs.any (fun o => o.2.packet.dst == n && o.2.serial < k)
    || h.dirs.any (fun d => d.2.txns.any fun x =>
      x.2.serial < k && (x.2.waits.contains n || (x.2.state == 4 && x.2.owner == n)))

/-- A packet to node `n` that stands before `p`, or in a throttle, or that its link has not acknowledged (R462). -/
def unacknowledged (h : Hw) (p : Packet) : Bool :=
  (h.router.egress.takeWhile (fun q => q.packet != p)).any (fun q => q.port < 64 && q.packet.dst == p.dst)
    || h.router.throttled.any (fun q => q.packet.dst == p.dst && !(q.packet.vc == p.vc && q.packet.sclass == p.sclass))
    || h.links.any (fun l => l.2.tx.buffer.any fun f => match f.ends with | some q => q.dst == p.dst | none => false)

/-- Whether one of the module's own packets with FENCE set may go (R461, R462). -/
def fenceOpen (h : Hw) (p : Packet) : Bool :=
  if p.vc == 2 || p.vc == 3 || p.vc == 5 || p.vc == 7 then
    !h.router.holding && !h.router.salvage.any (fun q => q.dst == p.dst) && !unacknowledged h p
  else
    match KMap.find? h.outs p.tid with
    | some o => !unanswered h p.dst o.serial
    | none => true

/-- Whether a queued packet may start on its port (R464): credits, room in the replay buffer, gate, shaper, and its fence. -/
def eligible (h : Hw) (port : Nat) (p : Packet) : Bool :=
  if 64 ≤ port then true
  else
    let l := h.link port
    let b := KMap.get (h.qos port).shapers p.vc
    l.state == 3 && !tbit (mirrorLinks h) port && l.tx.sleep == 1 && creditsOf p ≤ KMap.get l.tx.credits p.vc && l.tx.buffer.length + flitsOf p ≤ 512
      && (!p.fence || !isOwn h p.src || fenceOpen h p) && gateOpen h port p && (b.rate == 0 || p.vc == 7 || Packet.size p ≤ b.tokens)

/-- The head of a (VC, class) queue of a port. -/
def queueHead (h : Hw) (port vc c : Nat) : Option Queued :=
  h.router.egress.find? (fun q => q.port == port && q.packet.vc == vc && q.packet.sclass == c)

/-- The class that a VC serves (R466): one with an eligible head not chosen in the last 15 starts, else the lowest. -/
def chooseClass (h : Hw) (port vc : Nat) : Option Queued :=
  let heads := (List.range 4).filterMap (fun c => queueHead h port vc c)
  let ok := heads.filter (fun q => eligible h port q.packet)
  match ok.find? (fun q => 15 ≤ KMap.get (h.qos port).since (4 * vc + q.packet.sclass)) with
  | some q => some q
  | none => ok.head?

/-- Weights in force on a port; tile, management and sequencer ports keep the defaults. -/
def weightOf (h : Hw) (port vc : Nat) : Nat :=
  ((if port < 64 then (h.qos port).weights else ({} : PortQos).weights)).getD vc 32

/-- Give the tag of R465 to the packet that a VC would start and that has none. -/
def tagHead (h : Hw) (port vc : Nat) : Hw :=
  match chooseClass h port vc with
  | some q =>
    match q.tag with
    | some _ => h
    | none =>
      let k := h.qos port
      let w := weightOf h port vc
      let t := Nat.max k.v (KMap.get k.f vc) + (256 * Packet.size q.packet + w - 1) / w
      let h := h.setQos port { k with f := KMap.set k.f vc t }
      { h with router := { h.router with egress := match h.router.egress.span (fun x => x != q) with
        | (l, x :: r) => l ++ { x with tag := some t } :: r
        | (l, []) => l } }
  | none => h

/-- The packet that starts on a port (R464, R465): an eligible TIME packet, else the eligible head with the smallest tag. -/
def nextStart (h : Hw) (port : Nat) : Option Queued :=
  match chooseClass h port 7 with
  | some q => some q
  | none =>
    ((List.range 7).filterMap (fun v => chooseClass h port v)).foldl (fun best q =>
      match best with
      | none => some q
      | some b => if q.tag.getD 0 < b.tag.getD 0 then some q else some b) none

/-- The timestamp that the link layer writes as the message leaves (R476): T1 of a SYNC, T3 of a DELAY_RESP; the send time of a
DELAY_REQ is kept. -/
def stampTime (h : Hw) (p : Packet) : Packet × Hw :=
  if p.opcode == 0x70 then ({ p with data := leBytes 8 h.time.now ++ p.data.drop 8 }, h)
  else if p.opcode == 0x72 then ({ p with data := p.data.take 16 ++ leBytes 8 h.time.now ++ p.data.drop 24 }, h)
  else if p.opcode == 0x71 then
    (p, { h with time := { h.time with request := some (fld (leNat (p.data.drop 24)) 0 16, h.time.now) } })
  else (p, h)

/-- A packet leaves its queue for its port: it takes shaper tokens, V and the class counts move, and the sources that waited for room
go on. When every queue of the port is empty the tags return to 0 and latched weights apply (R464–R467). -/
def leaveQueue (h : Hw) (port : Nat) (q : Queued) : Hw :=
  let p := q.packet
  let h := { h with router := { h.router with egress := match h.router.egress.span (fun x => x != q) with
    | (l, _ :: r) => l ++ r
    | (l, []) => l } }
  let k := h.qos port
  let since := (List.range 4).foldl (fun m c => KMap.mod m (4 * p.vc + c) (fun n => if c == p.sclass then 0 else n + 1)) k.since
  let b := KMap.get k.shapers p.vc
  let shapers := if b.rate == 0 || p.vc == 7 then k.shapers else KMap.set k.shapers p.vc { b with tokens := b.tokens - Packet.size p }
  let h := portEmptied (h.setQos port { k with since := since, shapers := shapers, v := if p.vc == 7 then k.v else q.tag.getD k.v }) port
  resumeQueue h (queueId port p.vc p.sclass)

/-- A response that no part of this module awaits breaks a rule of its own fields (R59, R313, R429, R687). -/
def badStray (p : Packet) : Bool :=
  if p.opcode == 0x63 then p.data.length != 16 || Packet.cf p 60 4 != 0 || Packet.cf p 77 3 != 0 || Packet.cf p 85 43 != 0
  else if p.opcode == 0x65 then p.data.length != 8 || Packet.cf p 52 12 != 0
  else if 0x50 ≤ p.opcode && p.opcode ≤ 0x53 then
    let nak := Packet.cf p 80 4
    p.data.length < 16 || Packet.cf p 10 6 != 0 || Packet.cf p 78 2 != 0 || Packet.cf p 84 12 != 0
      || (p.opcode != 0x51 && (Packet.cf p 64 14 != 0 || (nak != 1 && Packet.cf p 48 16 != 0)))
      || (if p.opcode == 0x53 then p.data.length != 16 || nak == 0 || 5 < nak || (nak != 1 && Packet.cf p 96 32 != 0) else nak != 0 || Packet.cf p 96 32 != 0)
      || (p.opcode == 0x52 && p.data.length != 80)
  else badAnswer p
/-- Responses to requests that this module never sends: grants, write and eviction answers, CW_DONE, XLT_INV_ACK, and what a group
sends its members. They are malformed, or discarded and, of a coherent line, counted late (R123, R430, R460, R687). -/
def isStray (op : Nat) : Bool :=
  op == 0x20 || (0x22 ≤ op && op ≤ 0x24) || (0x30 ≤ op && op ≤ 0x32) || (0x51 ≤ op && op ≤ 0x53) || op == 0x63 || op == 0x65
def takeStray (h : Hw) (p : Packet) : Hw :=
  if badStray p then logMalformed h else if p.opcode < 0x40 then late h p else h
/-- A packet for this module reaches the block of its port. -/
def deliver (h : Hw) (port : Nat) (p : Packet) : Hw :=
  if isStray p.opcode && isOwn h p.dst then takeStray h p
  else { h with router := { h.router with inbox := h.router.inbox ++ [{ port := port, packet := p }] } }

/-- A flit slot that no packet starts in is counted where the replay buffer has no room for a packet that waits (R439), or one lacks
its credits (R451). -/
def countStall (h : Hw) (port : Nat) : Hw :=
  let l := h.link port
  let ps := (h.router.egress.filter (fun q => q.port == port)).map (·.packet)
  if ps.any (fun p => 512 < l.tx.buffer.length + flitsOf p) then modLink h port fun l => l.count 9
  else if ps.any (fun p => KMap.get l.tx.credits p.vc < creditsOf p) then modLink h port fun l => l.count 10
  else h

/-- A packet starts on an egress port (R464): it goes to the link as flits, or to the block of its port. With none eligible on an
ACTIVE link port whose direction is awake, the slot is counted and carries an IDLE flit (R399, R439, R451). -/
def egressStart (h : Hw) (port : Nat) : Hw :=
  let h := forBelow 7 (fun v h => tagHead h port v) h
  match nextStart h port with
  | none =>
    if port < 64 && (h.link port).state == 3 && (h.link port).tx.sleep == 1 then modLink (countStall h port) port sendIdle else h
  | some q =>
    let h := leaveQueue h port q
    if port < 64 then
      let (p, h) := stampTime h q.packet
      modLink h port fun l => sendPacket l p
    else deliver h port q.packet

def execEgressPacketStart (port : Fin 98) (s : State) : Result := .next (s.onHw fun h => egressStart h port.val)

/-- A bucket at its refill: latched RATE and BURST apply, RATE tokens are added up to the cap; a bucket that begins to shape
starts full (R467, R470). -/
def Bucket.refill (b : Bucket) : Bucket :=
  let cap := b.burstNext * 64
  let t := if b.rate == 0 then cap else Nat.min cap (b.tokens + b.rateNext)
  { b with rate := b.rateNext, burst := b.burstNext, tokens := t }

/-- Every 512 ns each shaper and policer is refilled. -/
def shaperRefill (h : Hw) : Hw :=
  { h with router := { h.router with qos := h.router.qos.map fun p =>
      (p.1, { p.2 with shapers := p.2.shapers.map (fun q => (q.1, q.2.refill)), policer := p.2.policer.refill }) } }
def execShaperRefill (s : State) : Result := .next (s.onHw shaperRefill)

/-! ### Epochs and salvage (R457–R459) -/

def execFlipHoldExpiry (s : State) : Result := .next (s.onHw fun h => { h with router := { h.router with holding := false } })

/-- The oldest salvaged packet has been held longer than SALVAGE_HOLD: discarded and counted. -/
def salvageExpire (h : Hw) : Hw :=
  match h.router.salvage with
  | [] => h
  | _ :: r => routerCount { h with router := { h.router with salvage := r } } 2
def execSalvageHoldExpiry (s : State) : Result := .next (s.onHw salvageExpire)

/-- ROUTE.FLIP swaps the active table, starts FLIP_HOLD, and routes every salvaged packet again in the new epoch. -/
def routeFlip (h : Hw) : Hw :=
  let e := 1 - h.router.epoch
  let ps := h.router.salvage
  let h := { h with router := { h.router with epoch := e, holding := true, salvage := [] } }
  ps.foldl (fun h p => routeSalvaged h { p with repoch := e == 1 }) h

/-! ### Commands (R483, R484) -/

/-- ROUTE.CONFIG. -/
def execRouteConfig (m : Fin 16) (s : State) : Result :=
  .next (runHw s m.val 0xB01 [.f 8, .f 32, .f 32, .f 64] false fun q h =>
    let changed := nxor (q.p 3) h.router.roles
    if q.p 0 == 0 || q.p 1 < 10 || 100000 < q.p 1 || q.p 2 < 100 || 1000000 < q.p 2 then (h, some (Reply.denied rRange))
    else if (bitsOf 64 changed).any (fun n => (h.link n).state != 0) then (h, some (Reply.busy rClassI))
    else ({ h with router := { h.router with ttlInit := q.p 0, flipHold := q.p 1, salvageHold := q.p 2, roles := q.p 3 } }, some (Reply.ok)))

/-- Whether a routing-table entry keeps the layout of R453. -/
def entryLegal (e : Nat) : Bool :=
  (List.range 4).all (fun i => !tbit e (8 * i + 7)) && fld e 32 2 < 2 && fld e 34 30 == 0

/-- ROUTE.LOAD writes entries into the inactive table (R457). -/
def routeLoad (q : Req) (h : Hw) : Hw × Option Reply :=
  let n := q.p 1
  let es := (List.range n).map (fun i => fld (q.p 2) (64 * i) 64)
  if n == 0 || 128 < n || 4096 < q.p 0 + n || !es.all entryLegal then (h, some (Reply.denied rRange))
  else if h.router.holding then (h, some (Reply.busy rState))
  else
    let put := fun (t : KMap Nat) => (es.zipIdx).foldl (fun t e => KMap.set t (q.p 0 + e.2) e.1) t
    if h.router.epoch == 0 then ({ h with router := { h.router with tableB := put h.router.tableB } }, some (Reply.ok))
    else ({ h with router := { h.router with tableA := put h.router.tableA } }, some (Reply.ok))
def execRouteLoad (m : Fin 16) (s : State) : Result :=
  .next (runHw s m.val 0xB02 [.f 12, .f 8, .arr 1 8] false fun q h => routeLoad q h)

def execRouteFlip (m : Fin 16) (s : State) : Result :=
  .next (runHw s m.val 0xB03 [] false fun _ h => (routeFlip h, some (Reply.ok)))

/-- ROUTE.QUERY (R484); the time left in FLIP_HOLD is measured, so free (log entry 16). -/
def routeQuery (h : Hw) : Hw × Option Reply :=
  let (left, h) := if h.router.holding then freshBits 32 h else (0, h)
  let c := fun i => Item.f 32 (KMap.get h.router.counts i)
  (h, some (Reply.ok (items ([.f 1 h.router.epoch, .f 32 left, .f 32 (salvageBytes h), c 0, c 1, c 2, c 3, c 4]
    ++ (List.range 96).map (fun i => c (16 + i))))))
def execRouteQuery (m : Fin 16) (s : State) : Result := .next (runHw s m.val 0xB04 [] false fun _ h => routeQuery h)

/-- QOS.MODE. -/
def execQosMode (m : Fin 16) (s : State) : Result :=
  .next (runHw s m.val 0xB05 [.f 4, .f 20, .f 20] false fun q h =>
    if q.p 1 ≤ q.p 2 || 16384 < q.p 1 then (h, some (Reply.denied rRange))
    else (resumeQueues { h with router := { h.router with modes := q.p 0, thrHigh := q.p 1, thrLow := q.p 2 } }, some (Reply.ok)))

/-- QOS.PORT latches weights and, for a link port, shapers. -/
def qosPort (q : Req) (h : Hw) : Hw × Option Reply :=
  let port := q.p 0
  let ws := (List.range 7).map (fun v => fld (q.p 1) (8 * v) 8)
  let rate := fun v => fld (q.p 2) (32 * v) 16
  let burst := fun v => fld (q.p 2) (32 * v + 16) 16
  if 97 < port || ws.any (fun w => w == 0) then (h, some (Reply.denied rRange))
  else if 64 ≤ port && q.p 2 != 0 then (h, some (Reply.denied rRange))
  else if port < 64 && (List.range 7).any (fun v => burst v * 64 < 4256) then (h, some (Reply.denied rRange))
  else
    let k := h.qos port
    let idle := !h.router.egress.any (fun x => x.port == port)
    let shapers := if port < 64 then (List.range 7).foldl (fun m v =>
        KMap.set m v { KMap.get m v with rateNext := rate v, burstNext := burst v }) k.shapers else k.shapers
    (h.setQos port { k with weightsNext := ws, weights := if idle then ws else k.weights, shapers := shapers }, some (Reply.ok))
def execQosPort (m : Fin 16) (s : State) : Result :=
  .next (runHw s m.val 0xB06 [.f 7, .blk 7, .blk 28] false fun q h => qosPort q h)

/-- QOS.POLICE latches the BULK policer of a link port. -/
def execQosPolice (m : Fin 16) (s : State) : Result :=
  .next (runHw s m.val 0xB07 [.f 6, .f 16, .f 16] false fun q h =>
    let k := h.qos (q.p 0)
    (h.setQos (q.p 0) { k with policer := { k.policer with rateNext := q.p 1, burstNext := q.p 2 } }, some (Reply.ok)))

/-- HORIZON.LOAD validates a list and latches it; COUNT 0 removes the list (R471–R473, R483). -/
def horizonLoad (q : Req) (h : Hw) : Hw × Option Reply :=
  let port := q.p 0
  let n := q.p 2
  let words := (List.range n).map (fun i => fld (q.p 3) (32 * i) 32)
  let es := words.map (fun w => (fld w 0 16, fld w 16 7))
  let opens := fun v => es.any (fun e => tbit e.2 v)
  let short := fun v => opens v && !es.all (fun e => tbit e.2 v)
    && (List.range n).all (fun i => windowFrom es v i < sendTime (h.link port) 4256)
  if 256 < n || words.any (fun w => fld w 23 9 != 0) then (h, some (Reply.denied (if 256 < n then rRange else rReserved)))
  else if es.any (fun e => e.1 == 0) then (h, some (Reply.denied rRange))
  else if n != 0 && (!opens 2 || !opens 3 || (List.range 7).any short) then (h, some (Reply.denied rRange))
  else
    let x := h.horizon port
    if n == 0 && x.entries.isEmpty then (h.setHorizon port {}, some (Reply.ok))
    else (h.setHorizon port { x with next := some (q.p 1, es), due := takesForce h.time.now x (q.p 1) es }, some (Reply.ok))
def execHorizonLoad (m : Fin 16) (s : State) : Result :=
  .next (runHw s m.val 0xB08 [.f 6, .f 64, .f 9, .arr 2 4] false fun q h => horizonLoad q h)

end Sys2Proof.Machine
end

