-- ==== Sys2Proof/Machine/Time.lean ====
section
/-!
DEFINITION. Fabric time (chapter 15, R475–R480, R483, R484): the count and its servo, the time messages, and the TIME.*
commands.
-/
namespace Sys2Proof.Machine
open Sys2Proof

def Hw.modTime (h : Hw) (f : FabricTime → FabricTime) : Hw := settleHorizon { h with time := f h.time }

/-- ASYM ÷ 2 of the parent link (R477). -/
def halfAsym (t : FabricTime) : Int := KMap.getD t.asym t.parent 0 / 2

/-- One cycle of CLK_FAB (R475, R478, R584): 500 ps, or 2,000 ps without a servo while CLK_LOSS; a slew changes the rate by at
most 100 ppm, so it removes at most one twentieth of a ps in a cycle. -/
def tickTime (loss : Bool) (t : FabricTime) : FabricTime :=
  if loss then { t with now := (t.now + 2000) % 2 ^ 64 }
  else if t.slew == 0 then { t with now := (t.now + 500) % 2 ^ 64, frac := 0, ratePpb := 0 }
  else
    let t := { t with ratePpb := if 0 < t.slew then -100000 else 100000 }
    if t.frac < 19 then { t with now := (t.now + 500) % 2 ^ 64, frac := t.frac + 1 }
    else if 0 < t.slew then { t with now := (t.now + 499) % 2 ^ 64, slew := t.slew - 1, frac := 0 }
    else { t with now := (t.now + 501) % 2 ^ 64, slew := t.slew + 1, frac := 0 }

/-- Body field of a time message (R476). -/
def tf (p : Packet) (lo len : Nat) : Nat := fld (leNat p.data) lo len

/-- A time message (R476): across one link, TTL 1. -/
def timePacket (h : Hw) (op port t1 t2 t3 seq root steps : Nat) : Packet :=
  { mkPacket op 7 0 (h.link port).partner h.sys.moduleId 0
      (leBytes 32 (pack [(64, t1), (64, t2), (64, t3), (16, seq), (12, root), (8, steps)])) with ttl := 1 }

/-- Whether a message is one of the fabric time messages in its form (R476, R687). -/
def timeLegal (p : Packet) (op : Nat) : Bool := !malformed p && p.opcode == op && p.len == 12 && tf p 228 28 == 0

/-- Consecutive SYNCs and the state (R478): sixteen within 1 ns lock; four beyond 100 ns leave LOCKED. -/
def syncState (t : FabricTime) (theta : Int) : FabricTime :=
  let good := if theta.natAbs ≤ 1000 then t.good + 1 else 0
  let bad := if 100000 < theta.natAbs then t.bad + 1 else 0
  let t := { t with good := good, bad := bad, theta := theta }
  if t.state == 2 then (if 4 ≤ bad then { t with state := 1, good := 0, bad := 0 } else t)
  else if 16 ≤ good then { t with state := 2, bad := 0 } else t

/-- A child takes a SYNC on its parent port that arrived at fabric time `arrival` (R478). -/
def takeSync (t : FabricTime) (p : Packet) (arrival : Nat) : FabricTime :=
  let ref : Int := tf p 0 64 + t.delay + halfAsym t
  let theta : Int := arrival - ref
  let t := if t.state == 3 then { t with state := 1, good := 0, bad := 0 } else t
  let t := if t.state != 2 && 1000000 < theta.natAbs then
      { t with now := (((t.now : Int) - theta) % 2 ^ 64).toNat, slew := 0, frac := 0 }
    else { t with slew := theta }
  syncState { t with root := tf p 208 12, steps := (tf p 220 8 + 1) % 256 } theta

/-- The message leaves the port's receive buffer, or the inbox where the router has handed it on. -/
def dropTime (h : Hw) (port : Nat) (p : Packet) : Hw := takeInbox (leaveBuffer h port p) p
/-- A time message is for this module's end of a link that is no mirror link: it is never forwarded (R476, R492). -/
def timeHere (h : Hw) (port : Nat) (p : Packet) : Bool := isOwn h p.dst && !tbit (mirrorLinks h) port

def onSync (h : Hw) (port : Nat) (p : Packet) (arrival : Nat) : Hw :=
  let h := dropTime h port p
  if !timeLegal p 0x70 then logMalformed h
  else if timeHere h port p && h.time.role == 2 && port == h.time.parent && !h.clk.loss then h.modTime fun t => takeSync t p arrival
  else h
def execSync (port : Fin 64) (p : Packet) (arrival : Nat) (s : State) : Result := .next (s.onHw fun h => onSync h port.val p arrival)

/-- Every DELAY_REQ on an ACTIVE link is answered (R477). -/
def onDelayReq (h : Hw) (port : Nat) (p : Packet) (arrival : Nat) : Hw :=
  let h := dropTime h port p
  if !timeLegal p 0x71 then logMalformed h
  else if timeHere h port p && (h.link port).state == 3 then
    sendOn h port (timePacket h 0x72 port (tf p 0 64) arrival 0 (tf p 192 16) 0 0)
  else h
def execDelayReq (port : Fin 64) (p : Packet) (arrival : Nat) (s : State) : Result := .next (s.onHw fun h => onDelayReq h port.val p arrival)

/-- A child takes the answer to its request: D = ((t4 − t1) − (t3 − t2)) ÷ 2 (R477). -/
def onDelayResp (h : Hw) (port : Nat) (p : Packet) (arrival : Nat) : Hw :=
  let h := dropTime h port p
  if !timeLegal p 0x72 then logMalformed h
  else
    match h.time.request with
    | some (seq, t1) =>
      if timeHere h port p && h.time.role == 2 && port == h.time.parent && seq == tf p 192 16 then
        let d : Int := (((arrival : Int) - t1) - ((tf p 128 64 : Int) - tf p 64 64)) / 2
        h.modTime fun t => { t with delay := d, request := none }
      else h
    | none => h
def execDelayResp (port : Fin 64) (p : Packet) (arrival : Nat) (s : State) : Result := .next (s.onHw fun h => onDelayResp h port.val p arrival)

/-- ANNOUNCE on the parent port gives the root and the hops to it (R476, R478). -/
def onAnnounce (h : Hw) (port : Nat) (p : Packet) : Hw :=
  let h := dropTime h port p
  if !timeLegal p 0x73 then logMalformed h
  else if timeHere h port p && h.time.role == 2 && port == h.time.parent then
    h.modTime fun t => { t with root := tf p 208 12, steps := (tf p 220 8 + 1) % 256 }
  else h
def execAnnounce (port : Fin 64) (p : Packet) (_arrival : Nat) (s : State) : Result := .next (s.onHw fun h => onAnnounce h port.val p)

/-- Each SYNC_INTERVAL a ROOT, or a LOCKED or HOLDOVER module, sends SYNC and ANNOUNCE on its SYNC_OUT links (R478). -/
def syncTimer (h : Hw) : Hw :=
  let t := h.time
  if t.state == 4 || t.state == 2 || t.state == 3 then
    let h := forAll ((bitsOf 64 t.syncOut).filter (fun n => liveLink h n)) (fun n h =>
      let h := sendOn h n (timePacket h 0x70 n 0 0 0 t.seq t.root t.steps)
      sendOn h n (timePacket h 0x73 n 0 0 0 t.seq t.root t.steps)) h
    { h with time := { h.time with seq := (t.seq + 1) % 2 ^ 16, syncInterval := t.syncNext } }
  else h
def execSyncIntervalTimer (s : State) : Result := .next (s.onHw syncTimer)

/-- Each DELAY_INTERVAL a CHILD sends DELAY_REQ on its parent port (R477). -/
def delayTimer (h : Hw) : Hw :=
  let t := h.time
  if t.role == 2 && liveLink h t.parent then
    let h := sendOn h t.parent (timePacket h 0x71 t.parent 0 0 0 t.seq 0 0)
    { h with time := { h.time with seq := (t.seq + 1) % 2 ^ 16, delayInterval := t.delayNext } }
  else h
def execDelayIntervalTimer (s : State) : Result := .next (s.onHw delayTimer)

/-- A child that loses its SYNCs or its parent link enters HOLDOVER and keeps its rate (R479). -/
def syncLoss (h : Hw) : Hw :=
  if h.time.role == 2 && (h.time.state == 1 || h.time.state == 2) then h.modTime fun t => { t with state := 3, good := 0, bad := 0 } else h
def execSyncLoss (s : State) : Result := .next (s.onHw syncLoss)

/-- Enter FREE and raise TIME_LOST (R479, R584). -/
def timeFree (h : Hw) : Hw :=
  raise (h.modTime fun t => { t with state := 0, root := 0, steps := 0, slew := 0, good := 0, bad := 0 }) 0x317 0

/-- HOLDOVER_LIMIT after entering HOLDOVER the module enters FREE (R479). -/
def holdoverLimit (h : Hw) : Hw := if h.time.state == 3 then timeFree h else h
def execHoldoverLimitExpiry (s : State) : Result := .next (s.onHw holdoverLimit)

/-! ### Commands -/

/-- The time state that a role begins with: ROOT is its own root; OFF is FREE; a CHILD that was ROOT acquires. -/
def applyRole (h : Hw) (role parent : Nat) (t : FabricTime) : FabricTime :=
  let t := { t with role := role, parent := parent }
  if role == 1 then { t with state := 4, root := h.sys.moduleId, steps := 0, slew := 0 }
  else if role == 0 then { t with state := 0, root := 0, steps := 0, slew := 0 }
  else if t.state == 4 then { t with state := 1, good := 0, bad := 0 } else t

/-- TIME.CONFIG. -/
def execTimeConfig (m : Fin 16) (s : State) : Result :=
  .next (runHw s m.val 0xB09 [.f 2, .f 6, .f 16, .f 16, .f 32] false fun q h =>
    if q.p 0 == 3 || q.p 2 == 0 || 1000 < q.p 2 || q.p 3 < 10 || 60000 < q.p 3 || q.p 4 < 100 || 10000000 < q.p 4 then
      (h, some (Reply.denied rRange))
    else if q.p 0 == 2 && (h.link (q.p 1)).state != 3 then (h, some (Reply.denied rState))
    else (h.modTime fun t => { applyRole h (q.p 0) (q.p 1) t with syncNext := q.p 2, delayNext := q.p 3, holdoverLimit := q.p 4 }, some (Reply.ok)))

/-- TIME.LINK sets ASYM and SYNC_OUT of one link. -/
def execTimeLink (m : Fin 16) (s : State) : Result :=
  .next (runHw s m.val 0xB0A [.f 6, .f 32, .f 1] false fun q h =>
    let n := q.p 0
    let out := if q.p 2 == 1 then Nat.lor h.time.syncOut (2 ^ n) else h.time.syncOut - Nat.land h.time.syncOut (2 ^ n)
    ({ h with time := { h.time with asym := KMap.setD h.time.asym n (toInt 32 (q.p 1)) 0, syncOut := out } }, some (Reply.ok)))

/-- TIME.SET steps the fabric time of a ROOT. -/
def execTimeSet (m : Fin 16) (s : State) : Result :=
  .next (runHw s m.val 0xB0B [.f 64] false fun q h =>
    if h.time.role != 1 then (h, some (Reply.denied rState))
    else ({ h with time := { h.time with now := q.p 0, slew := 0, frac := 0 } }, some (Reply.ok)))

/-- TIME.QUERY (R484). -/
def timeItems (t : FabricTime) : List Byte :=
  items [.f 3 t.state, .f 64 t.now, .f 12 t.root, .f 8 t.steps, .f 64 (ofInt 64 t.theta), .f 64 (ofInt 64 t.delay), .f 32 (ofInt 32 t.ratePpb)]
def execTimeQuery (m : Fin 16) (s : State) : Result :=
  .next (runHw s m.val 0xB0C [] false fun _ h => (h, some (Reply.ok (timeItems h.time))))

end Sys2Proof.Machine
end

