-- ==== Sys2Proof/Machine/Clocks.lean ====
section
/-!
DEFINITION. The clock block (chapter 19): sources and domains (R576–R582), the reference monitor, loss and return
(R583–R586), gates (R587–R591), the observation output (R592), crossings (R597, R598) and CLK.QUERY (R599).
-/
namespace Sys2Proof.Machine
open Sys2Proof

/-- Change the clock block. -/
def Hw.onClk (h : Hw) (f : Clocks → Clocks) : Hw := { h with clk := f h.clk }

/-- Count one in the counts of R599 (from 0) and R628 (from 64). -/
def countClk (h : Hw) (i : Nat) : Hw := { h with always := { h.always with counts := KMap.mod h.always.counts i (satInc 32) } }

/-! ### Sources and domains -/

/-- READY of a source: 0 PLL, 1 BYPASS, 2 RING (R576). -/
def sourceReady (h : Hw) (src : Nat) : Bool :=
  match src with
  | 0 => h.clk.pllState == 2
  | 1 => h.clk.refOk
  | 2 => h.clk.ringReady
  | _ => false

/-- Nominal frequency of a source in kHz (R576). -/
def sourceKhz (h : Hw) (src : Nat) : Nat :=
  match src with
  | 0 => if h.clk.pllState == 3 then 1500000 else 6000000
  | 1 => 100000
  | 2 => 400000
  | _ => 0

/-- FREQ_KHZ of a domain (R580). -/
def domainKhz (h : Hw) (d : Nat) : Nat :=
  let x := h.domain d
  if x.source == 3 || x.divider == 0 then 0 else sourceKhz h x.source / x.divider

/-- Full-service divider of a domain on the PLL (R577). -/
def fullDivider (d : Nat) : Nat := [4, 3, 3, 6, 60].getD d 1

/-- INFO of CLK_SWITCH (R581). -/
def switchInfo (d src div : Nat) : Nat := pack [(3, d), (1, 0), (2, src), (2, 0), (8, div)]

/-- A switch that has ended raises CLK_SWITCH and is counted (R581, R599). -/
def switchEnded (h : Hw) (d : Nat) : Hw :=
  let x := h.domain d
  raise (countClk h (3 + d)) 0x327 (switchInfo d x.source x.divider)

/-- The refusal of R581 step 1. -/
def switchRefuse (h : Hw) (d src div : Nat) : Hw :=
  let h := countClk (h.onClk fun c => { c with switchRefused := satInc 16 c.switchRefused }) 8
  logOpen h 163 0 0x62 (some (switchInfo d src div)) (some 0)

/-- Move a domain to a source at `start` and ramp to `div` (R581 steps 2, 3). -/
def moveDomain (h : Hw) (d src start div : Nat) : Hw :=
  if start ≤ div then switchEnded (h.setDomain d { source := src, ramping := false, divider := div, target := div }) d
  else (countClk h 9).setDomain d { source := src, ramping := true, divider := start, target := div }

/-- Switch a running domain (R581): at once when it slows, else first to the smallest divider that is no faster than now. -/
def switchDomain (h : Hw) (d src div : Nat) : Hw :=
  if !sourceReady h src then switchRefuse h d src div
  else
    let now := domainKhz h d
    let f := sourceKhz h src
    if f / div ≤ now || now == 0 then moveDomain h d src div div
    else moveDomain h d src ((f + now - 1) / now) div

/-- CLK_TILE runs at the larger of the limiter's divider and the one last set (R618). -/
def tileDivider (h : Hw) : Nat := Nat.max h.pwr.limitDiv h.clk.tileSwitched

/-- A change of CLK_TILE's divider by the limiter goes through R581. -/
def settleTile (h : Hw) : Hw :=
  let x := h.domain 0
  if x.source == 3 || h.clk.loss || h.clk.returning || x.target == tileDivider h then h
  else switchDomain h 0 x.source (tileDivider h)

/-- CLK_TILE, CLK_FAB and CLK_MEM start at full service when Gokomos first enables a block in them (R577). -/
def startDomain (h : Hw) (d : Nat) : Hw :=
  if (h.domain d).source != 3 then h
  else
    let div := if d == 0 then tileDivider h else fullDivider d
    h.setDomain d { source := 0, ramping := false, divider := div, target := div }

/-! ### Self-refresh and the links, as clock and power states use them -/

/-- Each serving pseudo-channel enters self-refresh (R347, R584, R614): an all-bank refresh clears what its banks owe. -/
def selfRefresh (h : Hw) : Hw :=
  forBelow 32 (fun t h => forBelow 16 (fun k h =>
    let p := (h.slice t).pc k
    if p.serves || p.state == 4 then
      modPc h t k fun p => { startRetrain p with state := 6, back := if p.state == 4 then p.back else p.state }
    else h) h) h

/-- Each pseudo-channel leaves self-refresh; with `retrain` it runs a QUICK retrain first (R585). -/
def leaveSelfRefresh (h : Hw) (retrain : Bool) : Hw :=
  forBelow 32 (fun t h => forBelow 16 (fun k h =>
    let p := (h.slice t).pc k
    if p.state == 6 then modPc h t k fun p => { p with state := if retrain then 4 else p.back } else h) h) h

/-- Every link that is up goes DOWN (R584). -/
def allLinksDown (h : Hw) : Hw := forBelow 64 (fun n h => linkDown h n) h

/-! ### Loss and return (R583–R586) -/

/-- CLK_LOSS with the consequences of R584. -/
def clockLoss (h : Hw) : Hw :=
  if h.clk.loss then h
  else
    let h := countClk (h.onClk fun c => { c with loss := true, losses := satInc 16 c.losses }) 0
    let n := h.clk.losses
    let h := logOpen h 163 2 0x60 (some n) (some 0)
    let h := setLevel h 0x326 true n
    let h := allLinksDown h
    selfRefresh (timeFree h)

/-- Dividers of the return sequence (R585): on RING, then on PLL before the ramp. -/
def ringDivider (d : Nat) : Nat := [2, 1, 1, 2, 16].getD d 1
def pllStart (d : Nat) : Nat := [16, 12, 12, 24, 240].getD d 1
/-- The divider at which the return's ramp ends. -/
def pllEnd (h : Hw) (d : Nat) : Nat := if d == 0 then tileDivider h else fullDivider d

/-- Each domain on PLL goes to RING (R585 step 1, R586). -/
def toRing (h : Hw) : Hw :=
  forBelow 5 (fun d h => if (h.domain d).source == 0 then switchDomain h d 2 (ringDivider d) else h) h

/-- The return sequence begins: domains on RING, the PLL relocks (R585 steps 1, 2). -/
def startReturn (h : Hw) : Hw := (toRing (h.onClk fun c => { c with returning := true })).onClk fun c => { c with pllState := 1 }

/-- The root PLL is locked at boot: the ROM takes CLK_MGT and CLK_AUX to full service, and step 1 ends (R550, R577). -/
def bootLocked (h : Hw) : Hw :=
  if h.sys.step == 0 && h.sys.fusesSensed then
    let h := if (h.domain 3).source == 0 then h else switchDomain h 3 0 6
    let h := if (h.domain 4).source == 0 then h else switchDomain h 4 0 60
    { h with sys := { h.sys with step := 1 }, pcie := if h.pcie.perstLow then h.pcie else { h.pcie with link := 1 } }
  else h

/-- The return sequence ends when every ramp has (R585 steps 4–6). The time since CLK_LOSS is measured, so it is free. -/
def returnDone (h : Hw) : Hw :=
  if h.clk.returning && h.clk.pllState == 2 && (List.range 5).all (fun d => !(h.domain d).ramping) then
    let (us, h) := freshBits 32 h
    let h := h.onClk fun c => { c with loss := false, returning := false }
    let h := setLevel h 0x326 false 0
    let h := countClk (logOpen h 163 0 0x61 (some us) (some 0)) 1
    let h := if h.pwr.state == 0 then leaveSelfRefresh h true else h
    bootLocked (forBelow 64 (fun n h => if (h.link n).state == 6 && !(h.link n).held then enterDetect h n else h) h)
  else h

/-- Bring-up begins when RESET_N is high, nothing holds the module in reset, and REFCLK and a feed are within limits
(R550, R595, R609, R612, R623): fuses are sensed, fused repairs applied, the regulators run and the PLL locks. -/
def tryStart (h : Hw) : Hw :=
  if h.sys.resetLow || h.sys.heldInReset || h.sys.fusesSensed || h.pwr.feedReset || h.pwr.thermTrip || !h.pwr.alwaysOn then h
  else if h.clk.refOk && (h.pwr.aGood || h.pwr.bGood) then
    let h := { h with sys := { h.sys with waiting := false, fusesSensed := true } }
    let h := { h with bist := { h.bist with repairs := h.fuses.repairs ++ h.fuses.hardPpr } }
    let h := { h with pwr := { h.pwr with railsOn := 0xFFF } }
    let h := setLevel (setLevel h 0x328 (!h.pwr.aGood) h.pwr.sample.feedA.1) 0x329 (!h.pwr.bGood) h.pwr.sample.feedB.1
    let h := settleFatal h 163
    if h.clk.pllState == 2 then bootLocked h else h.onClk fun c => { c with pllState := 1 }
  else { h with sys := { h.sys with waiting := true } }

/-- A window of the reference monitor (R583). Before the root PLL first locks, in step 1, a loss of REFCLK sets no CLK_LOSS (R681). -/
def monitorWindow (h : Hw) (edges : Nat) : Hw :=
  let good := 80 ≤ edges && edges ≤ 120
  let bad' := if good then 0 else h.always.badRun + 1
  let good' := if good then h.always.goodRun + 1 else 0
  let h := { h with always := { h.always with badRun := Nat.min bad' 2, goodRun := Nat.min good' 1000 } }
  let h := h.onClk fun c => { c with ringReady := true }
  if h.clk.refOk && 2 ≤ bad' then
    let h := h.onClk fun c => { c with refOk := false }
    if h.clk.pllState == 2 || (h.clk.pllState == 1 && h.clk.loss) then
      clockLoss (h.onClk fun c => { c with pllState := 3, returning := false })
    else h
  else if !h.clk.refOk && 1000 ≤ good' then
    let h := h.onClk fun c => { c with refOk := true }
    tryStart (if h.clk.loss then startReturn h else h)
  else h
def execClkMonitorWindow (edges : Nat) (s : State) : Result := .next (s.onHw fun h => monitorWindow h edges)

/-- The root PLL locks, on return (R585 step 3) or at boot (R550). -/
def pllLocked (h : Hw) : Hw :=
  if h.clk.pllState != 1 || !h.clk.refOk then h
  else
    let h := h.onClk fun c => { c with pllState := 2 }
    if h.clk.returning then
      returnDone (forBelow 5 (fun d h =>
        if (h.domain d).source == 2 then moveDomain h d 0 (pllStart d) (pllEnd h d) else h) h)
    else bootLocked h
def execPllLockDone (s : State) : Result := .next (s.onHw pllLocked)

/-- The PLL has not locked within 1 ms, or at a retry, while REF_OK holds (R585): UE 0x63; it goes on trying. -/
def pllTimeout (h : Hw) : Hw :=
  if h.clk.pllState == 1 && h.clk.refOk then countClk (logOpen h 163 2 0x63 (some 1) (some 0)) 2 else h
def execPllLockTimeout (s : State) : Result := .next (s.onHw pllTimeout)

/-- The PLL loses lock with REFCLK present (R586). -/
def pllLost (h : Hw) : Hw :=
  if h.clk.pllState == 2 && h.clk.refOk then
    let h := countClk (logOpen h 163 2 0x63 (some 2) (some 0)) 2
    let h := clockLoss (h.onClk fun c => { c with pllState := 1 })
    toRing (h.onClk fun c => { c with returning := true })
  else h
def execPllLossOfLock (s : State) : Result := .next (s.onHw pllLost)

/-- CLK.SWITCH of a domain answers OK once its ramp has ended (R582). -/
def settleSwitch (h : Hw) (d : Nat) : Hw :=
  if (h.domain d).ramping then h
  else
    forAll (workers h 0xE02) (fun m h =>
      match workOf h m 0xE02 with
      | some w => if w.waits == [d] then answer h m (Reply.ok) else h
      | none => h) h

/-- 64 cycles of a ramping domain (R581 step 3). A domain on a PLL that coasts keeps its divider (R584). -/
def rampStep (h : Hw) (d : Nat) : Hw :=
  let x := h.domain d
  if !x.ramping || (x.source == 0 && h.clk.pllState != 2) then h
  else if x.divider ≤ x.target + 1 then
    let h := switchEnded (h.setDomain d { x with divider := x.target, ramping := false }) d
    returnDone (settleSwitch h d)
  else h.setDomain d { x with divider := x.divider - 1 }
def execRampStep (domain : Fin 5) (s : State) : Result := .next (s.onHw fun h => rampStep h domain.val)

/-- Whether a block in a domain is enabled (R582). -/
def domainInUse (h : Hw) (d : Nat) : Bool :=
  if d == 1 then h.sys.routerOn || h.links.any (fun l => l.2.state != 0) || h.mems.slices.any (fun x => x.2.enabled)
  else if d == 2 then h.mems.slices.any (fun x => x.2.enabled)
  else false

/-- CLK.SWITCH (R582). -/
def clkSwitch (q : Req) (h : Hw) : Hw × Option Reply :=
  let (d, src, div) := (q.p 0, q.p 1, q.p 2)
  let f := sourceKhz h src
  if 4 < d || src == 3 || div == 0 then (h, some (Reply.denied rRange))
  else if 6000000 / fullDivider d * div < f then (h, some (Reply.denied rRange))
  else if d == 4 && f != 100000 * div then (h, some (Reply.denied rRange))
  else if domainInUse h d then (h, some (Reply.denied rState))
  else if h.clk.loss || h.clk.returning then (h, some (Reply.busy rState))
  else if d == 0 && h.pwr.state != 0 then (h, some (Reply.busy rState))
  else if !sourceReady h src then (switchRefuse h d src div, some (Reply.denied rState))
  else
    let h := if d == 0 then h.onClk fun c => { c with tileSwitched := div } else h
    let h := switchDomain h d src (if d == 0 then tileDivider h else div)
    if (h.domain d).ramping then (setWork h q.m 0xE02 [d] [], none) else (h, some (Reply.ok))
def execClkSwitch (m : Fin 16) (s : State) : Result :=
  .next (runHw s m.val 0xE02 [.f 3, .f 2, .f 8] false clkSwitch)

/-! ### Gates (R587–R591) -/

/-- A gate's bit in its register; the sequencer's is SEQ_GATED. -/
def gateClosed (h : Hw) (unit index : Nat) : Bool :=
  match unit with
  | 0 => tbit h.clk.gateTile index
  | 1 => tbit h.clk.gateLink index
  | _ => h.clk.seqGated
/-- `m` with bit `i` as `b`. -/
def putBit (m i : Nat) (b : Bool) : Nat := m - b2n (tbit m i) * 2 ^ i + b2n b * 2 ^ i
/-- Open or close a gate, counted in R599's closes (10–12) or opens (13–15). -/
def moveGate (h : Hw) (unit index : Nat) (closed : Bool) : Hw :=
  let h := countClk h ((if closed then 10 else 13) + unit)
  h.onClk fun c =>
    match unit with
    | 0 => { c with gateTile := putBit c.gateTile index closed }
    | 1 => { c with gateLink := putBit c.gateLink index closed }
    | _ => { c with seqGated := closed }

/-- Whether a unit is quiescent (R588). -/
def quiescent (h : Hw) (unit index : Nat) : Bool :=
  match unit with
  | 0 => !tileBusy h index
  | 1 => (h.link index).state == 0 && !h.router.egress.any (fun q => q.port == index) && !h.router.arrived.any (fun a => a.port == index)
  | _ => !groupActive h

/-- CLK.GATE (R590): a CLOSE waits for the 256-cycle window of R588. -/
def clkGate (q : Req) (h : Hw) : Hw × Option Reply :=
  let (unit, index, close) := (q.p 0, q.p 1, q.p 2 == 1)
  if unit == 3 || (unit == 0 && 31 < index) || (unit == 2 && index != 0) then (h, some (Reply.denied rRange))
  else if unit == 0 && h.pwr.state != 0 then (h, some (Reply.busy rState))
  else if close && unit == 0 && groupActive h then (h, some (Reply.busy rState))
  else if !close && ((unit == 0 && isolated h index) || (unit == 1 && isolated h (5 * 64 + index))
      || (unit == 2 && isolated h (6 * 64))) then (h, some (Reply.busy rState))
  else if gateClosed h unit index == close then (h, some (Reply.ok))
  else if close then
    (setWork (h.onClk fun c => { c with gateRequests := c.gateRequests ++ [{ unit := unit, index := index, mailbox := q.m }] }) q.m 0xE01 [unit, index] [], none)
  else
    let h := startDomain (moveGate h unit index false) (if unit == 0 then 0 else 1)
    (h, some (Reply.ok))
def execClkGate (m : Fin 16) (s : State) : Result :=
  .next (runHw s m.val 0xE01 [.f 2, .f 6, .f 1] false clkGate)

/-- The 256 cycles of a close have passed (R588): a quiescent unit's gate closes, another's stays open and the request is
refused. -/
def gateWindowEnd (h : Hw) (unit index : Nat) : Hw :=
  match h.clk.gateRequests.find? (fun r => r.unit == unit && r.index == index) with
  | none => h
  | some r =>
    let h := h.onClk fun c => { c with gateRequests := c.gateRequests.filter (fun x => x != r) }
    let mine := (workOf h r.mailbox 0xE01).isSome
    if quiescent h unit index then
      let h := moveGate h unit index true
      if mine then answer h r.mailbox (Reply.ok) else h
    else
      let h := countClk (h.onClk fun c => { c with gateRefused := satInc 16 c.gateRefused }) 16
      if mine then answer h r.mailbox (Reply.busy rState) else h
def execGateQuiesceWindowEnd (unit : Fin 3) (index : Nat) (s : State) : Result :=
  .next (s.onHw fun h => gateWindowEnd h unit.val index)

/-! ### Registers and CLK.QUERY (R579, R580, R591, R592, R596, R599) -/

def clkStatus (h : Hw) : Nat :=
  let c := h.clk
  pack [(1, b2n c.refOk), (1, b2n c.loss), (2, c.pllState), (1, b2n (sourceReady h 0)), (1, b2n c.refOk), (1, b2n c.ringReady),
    (1, b2n c.returning), (1, b2n c.seqGated), (7, 0), (16, c.losses), (16, c.switchRefused), (16, c.gateRefused)]
def clkDom (h : Hw) (d : Nat) : Nat :=
  let x := h.domain d
  pack [(2, x.source), (1, b2n x.ramping), (1, 0), (8, x.divider), (8, x.target), (12, 0), (32, domainKhz h d)]
def clkObs (h : Hw) : Nat :=
  pack [(1, b2n h.clk.obsEnable), (4, h.clk.obsSel), (4, h.clk.obsDiv), (1, b2n h.clk.obsIgnored)]
def rstCause (h : Hw) : Nat :=
  let a := h.always
  pack [(1, b2n a.por), (1, b2n a.pin), (1, b2n a.thermal), (1, b2n a.feed), (1, b2n a.zenith), (1, b2n a.pcie), (10, 0), (16, a.pinCount)]
/-- A write of CLK_RST_CAUSE clears the bits written as 1 (R596). -/
def writeRstCause (h : Hw) (v : Nat) : Hw :=
  let a := h.always
  { h with always := { a with por := a.por && !tbit v 0, pin := a.pin && !tbit v 1, thermal := a.thermal && !tbit v 2,
                              feed := a.feed && !tbit v 3, zenith := a.zenith && !tbit v 4, pcie := a.pcie && !tbit v 5 } }

/-- A write of CLK_OBS (R592, R12): SEL and DIV take only while the output was disabled; otherwise a change of them is ignored
and noted; CFG_IGNORED clears where bit 9 is 1. -/
def writeObs (c : Clocks) (v : Nat) : Clocks :=
  let (sel, div) := (fld v 1 4, fld v 5 4)
  let cleared := c.obsIgnored && !tbit v 9
  if !c.obsEnable then { c with obsEnable := tbit v 0, obsSel := sel, obsDiv := div, obsIgnored := cleared }
  else { c with obsEnable := tbit v 0, obsIgnored := cleared || sel != c.obsSel || div != c.obsDiv }
def execClkObsWrite (value : Word) (s : State) : Result := .next (s.onHw fun h => h.onClk fun c => writeObs c value.toNat)

/-- CLKOBS (R593): the signal selected and the power of two that divides it; none while the pin stays low. -/
def clkObsOutput (c : Clocks) : Option (Nat × Nat) :=
  if !c.obsEnable || 9 ≤ c.obsSel then none
  else if c.obsSel == 8 then some (8, 0)
  else some (c.obsSel, Nat.max c.obsDiv ([0, 0, 3, 4, 4, 3, 0, 1].getD c.obsSel 0))

/-- CLK.QUERY (R599); each crossing takes OPEN, PEER_IN_RESET and its generation, a byte each (log entry 20). -/
def clkItems (h : Hw) : List Byte :=
  items ([.f 64 (clkStatus h)] ++ (List.range 5).map (fun d => .f 64 (clkDom h d)) ++ [.f 64 (rstCause h)]
    ++ (List.range 5).flatMap (fun i =>
        let x := KMap.get h.always.crossings i
        [Item.f 1 (b2n x.isOpen), Item.f 1 (b2n x.peerInReset), Item.f 2 x.generation])
    ++ (List.range 17).map (fun i => .f 32 (KMap.get h.always.counts i)))
def execClkQuery (m : Fin 16) (s : State) : Result :=
  .next (runHw s m.val 0xE03 [] false fun _ h => (h, some (Reply.ok (clkItems h))))

/-! ### Crossings (R597, R598) -/

/-- One side of a crossing is reset: the crossing closes and its generation advances. -/
def shutCrossing (h : Hw) (i : Nat) : Hw :=
  { h with always := { h.always with crossings := KMap.mod h.always.crossings i fun x =>
      { isOpen := false, peerInReset := true, generation := (x.generation + 1) % 4 } } }

/-- The OPEN tokens have crossed (R597): bring-up has begun, and for the endpoint PERST_N is high. -/
def openCrossing (h : Hw) (i : Nat) : Hw :=
  if h.sys.fusesSensed && !(i == 0 && h.pcie.perstLow) then
    { h with always := { h.always with crossings := KMap.mod h.always.crossings i fun x => { x with isOpen := true, peerInReset := false } } }
  else h
def execCrossingOpen (crossing : Fin 5) (s : State) : Result := .next (s.onHw fun h => openCrossing h crossing.val)

end Sys2Proof.Machine
end

