-- ==== Sys2Proof/Machine/Resets.lean ====
section
/-!
DEFINITION. Resets (R544, R545, R594–R598): the reset of the PCIE domain, of MODULE and ZENITH, the RESET_N pin, the restart of
the Zenith core (R523) and its poisoned fetches (R377), and the TAP's own reset.
-/
namespace Sys2Proof.Machine
open Sys2Proof

/-- A reset of the PCIE domain (R594, R598): configuration space and the MSI-X table return to reset; held messages stay held. -/
def pcieReset (h : Hw) : Hw :=
  let h := { h with pcie := { perstLow := h.pcie.perstLow, mastered := h.pcie.mastered, completion := h.pcie.completion } }
  let h := forBelow 64 (fun v h => h.setVector v { h.vector v with msixAddr := 0, msixData := 0, msixMask := true }) h
  shutCrossing h 0

/-- A PCIE-domain reset by its own source sets PCIE in CLK_RST_CAUSE. -/
def pcieDomainReset (h : Hw) : Hw := pcieReset { h with always := { h.always with pcie := true } }

/-- A reset of the TAP domain (R594, R643, R645): IDCODE is selected, the challenge discarded, EXT_REFUSED cleared; the unlock and
its failures stand. -/
def tapReset (t : Tap) : Tap := { instruction := 1, unlock := t.unlock, fails := t.fails }
def execTapReset (s : State) : Result := .next (s.onHw fun h => { h with tap := tapReset h.tap })

/-- A reset of MODULE and ZENITH (R544, R545, R594). It leaves the fuses, the flash, ALWAYS_ON with its log 163, the feeds and
the supervisors, the SMBus target and the TAP; the debug unlock ends (R571). CLK_STATUS is in ALWAYS_ON, so the root PLL and a
loss of the reference stay as they are (R653). -/
def moduleReset (h : Hw) : Hw :=
  let p := h.pwr
  let log := h.log 163
  let h : Hw := {
    freeCount := h.freeCount, fuses := h.fuses, fw := { flash := h.fw.flash }, always := h.always, smb := h.smb, pcie := h.pcie
    tap := { h.tap with nonce := none, unlock := 0 }
    clk := { refOk := h.clk.refOk, loss := h.clk.loss, pllState := h.clk.pllState, ringReady := h.clk.ringReady
             returning := h.clk.returning, losses := h.clk.losses, switchRefused := h.clk.switchRefused
             gateRefused := h.clk.gateRefused }
    sys := { resetLow := h.sys.resetLow, heldInReset := h.sys.heldInReset }
    pwr := { aGood := p.aGood, bGood := p.bGood, aOv := p.aOv, bOv := p.bOv, holdup := p.holdup, sample := p.sample,
             railsOn := p.railsOn, thermTrip := p.thermTrip, tripResetSeen := p.tripResetSeen, feedReset := p.feedReset,
             alwaysOn := p.alwaysOn } }
  let h := forAll [1, 2, 3, 4] (fun i h => shutCrossing h i) h
  settleFatal ((setLevel h 0x326 h.clk.loss h.clk.losses).setLog 163 log) 163

/-- A reset of MODULE, ZENITH and PCIE. -/
def fullReset (h : Hw) : Hw := pcieReset (moduleReset h)

/-- RESET_N held low for 1 µs (R594–R596): the reset ends a regulator's hold, and a thermal trip notes it (R612, R623). -/
def resetLow (h : Hw) : Hw :=
  let h := { h with always := { h.always with pin := true, pinCount := satInc 16 h.always.pinCount } }
  let h := { h with sys := { h.sys with resetLow := true, heldInReset := false } }
  let h := { h with pwr := { h.pwr with tripResetSeen := h.pwr.thermTrip } }
  fullReset h
def execResetN (s : State) : Result := .next (s.onHw resetLow)

/-- The boundary instructions that need RESET_N low (R643). -/
def extInstruction (i : Nat) : Bool := 3 ≤ i && i ≤ 7

/-- RESET_N rises (R595, R643): an EXTEST-like instruction ends first; then bring-up begins or waits. -/
def resetRelease (h : Hw) : Hw :=
  if !h.sys.resetLow then h
  else
    let h := if extInstruction h.tap.instruction then { h with tap := tapReset h.tap } else h
    tryStart { h with sys := { h.sys with resetLow := false } }
def execResetNRelease (s : State) : Result := .next (s.onHw resetRelease)

/-! ### The Zenith core (R377, R523) -/

/-- The restart of the Zenith core (R523, R563, R594, R598): after RELOAD from the slot that was not running, on trial; every BUSY
mailbox is answered ABORTED with REASON RESTART. -/
def zenithRestart (h : Hw) : Hw :=
  if !(h.fw.restart || h.fw.reload) then h
  else
    let h := { h with always := { h.always with zenith := true } }
    let h := shutCrossing h 1
    let h := if h.fw.reload then writeSysFw h (1 - h.sys.slot) true else h
    let h := { h with fw := { h.fw with restart := false, reload := false, update := none } }
    let h := { h with changes := h.changes.map (fun c => { c with answers := false })
                      switching := h.switching.map (fun w => { w with answers := false }) }
    forBelow 16 (fun m h =>
      if (h.mailbox m).state == 1 then answer h m { status := stAborted, reason := rRestart } else h) h
def execZenithRestart (s : State) : Result := .next (s.onHw zenithRestart)

end Sys2Proof.Machine
end

