-- ==== Sys2Proof/Machine/Power.lean ====
section
/-!
DEFINITION. Feeds, rails, power states, the power limit and heat (chapter 20).
-/
namespace Sys2Proof.Machine
open Sys2Proof

/-- Change the power block. -/
def Hw.onPwr (h : Hw) (f : Power → Power) : Hw := { h with pwr := f h.pwr }

/-! ### Feeds, hold-up and feed resets (R603–R609) -/

/-- PWR_FEED_A or PWR_FEED_B follows its feed (R627). -/
def feedLevel (h : Hw) (feedB : Bool) : Hw :=
  if feedB then setLevel h 0x329 (!h.pwr.bGood) h.pwr.sample.feedB.1 else setLevel h 0x328 (!h.pwr.aGood) h.pwr.sample.feedA.1

/-- A feed becomes good (R603–R605, R608, R609): hold-up ends, and a feed reset ends at step 1 of bring-up. -/
def feedGood (h : Hw) (feedB : Bool) : Hw :=
  let h := h.onPwr fun p => if feedB then { p with bGood := true } else { p with aGood := true }
  let h := feedLevel h feedB
  let h := if h.pwr.holdup then
      let h := if h.pwr.feedReset then h else countClk h 68
      h.onPwr fun p => { p with holdup := false }
    else h
  if h.pwr.alwaysOn then tryStart (h.onPwr fun p => { p with feedReset := false }) else h
def execFeedGood (feedB : Bool) (s : State) : Result := .next (s.onHw fun h => feedGood h feedB)

/-- A feed is lost (R603, R604, R607, R629): by overvoltage when its last sample lies above 30 V. With the other feed good it is a
CE; with none left, hold-up begins and the bus voltage, measured then, is free. -/
def feedLost (h : Hw) (feedB : Bool) : Hw :=
  if !(if feedB then h.pwr.bGood else h.pwr.aGood) then h
  else
    let ov := 3000 < (if feedB then h.pwr.sample.feedB.1 else h.pwr.sample.feedA.1)
    let h := h.onPwr fun p => if feedB then { p with bGood := false, bOv := ov } else { p with aGood := false, aOv := ov }
    let h := feedLevel (countClk h (64 + b2n feedB)) feedB
    let h := if ov then countClk h 66 else h
    if h.pwr.aGood || h.pwr.bGood then logOpen h 163 0 0x64 (some (b2n feedB + 256 * b2n ov)) (some 0)
    else
      let (mv, h) := freshBits 32 h
      countClk (logOpen (h.onPwr fun p => { p with holdup := true }) 163 2 0x65 (some mv) (some 0)) 67
def execFeedLost (feedB : Bool) (s : State) : Result := .next (s.onHw fun h => feedLost h feedB)

/-- The bus falls below 12.5 V (R609): a feed reset; only the rail of ALWAYS_ON stays on. -/
def busUndervoltage (h : Hw) : Hw :=
  if !h.pwr.holdup then h
  else
    let h := fullReset (h.onPwr fun p => { p with feedReset := true, railsOn := 2 ^ 11 })
    { h with always := { h.always with feed := true } }
def execBusUndervoltage (s : State) : Result := .next (s.onHw busUndervoltage)

/-- The bus falls below 6.0 V (R609, R623): ALWAYS_ON stops, and with it the thermal trip. -/
def alwaysOnLoss (h : Hw) : Hw :=
  if !h.pwr.feedReset then h
  else h.onPwr fun p => { p with alwaysOn := false, thermTrip := false, tripResetSeen := false, railsOn := 0 }
def execAlwaysOnLoss (s : State) : Result := .next (s.onHw alwaysOnLoss)

/-- The power-on reset after a loss of every feed (R594, R596, R605, R639): every domain is reset, POR alone is set, and the
address straps are sampled, at the levels the board gives them (log entry 16). -/
def powerOnReset (h : Hw) : Hw :=
  if h.pwr.alwaysOn || !(h.pwr.aGood || h.pwr.bGood) then h
  else
    let (straps, h) := freshBits 2 h
    let p := h.pwr
    let h : Hw := {
      freeCount := h.freeCount, fuses := h.fuses, fw := { flash := h.fw.flash }
      sys := { resetLow := h.sys.resetLow }, smb := { straps := straps }, pcie := { perstLow := h.pcie.perstLow }
      pwr := { aGood := p.aGood, bGood := p.bGood, sample := p.sample } }
    tryStart h
def execPowerOnReset (s : State) : Result := .next (s.onHw powerOnReset)

/-! ### Rails and telemetry (R610–R612) -/

/-- Nominal voltage in mV and largest current in mA of a PAGE (R610); the input pages have no nominal of their own. -/
def railLimits (p : Nat) : Nat × Nat :=
  [(0, 60000), (0, 60000), (750, 700000), (750, 320000), (1050, 120000), (700, 180000), (900, 110000), (1200, 40000),
   (1800, 40000), (3300, 12000), (1800, 4000), (3300, 2000)].getD p (0, 0)

/-- A PAGE's sample: mV, mA, °C; pages 0 and 1 report the input side of their stage (R610, R611). -/
def railSample (t : Telemetry) (p : Nat) : Nat × Nat × Nat :=
  let r := t.rails.getD p (0, 0, 0)
  if p == 0 then (10 * t.feedA.1, 50 * t.feedA.2, r.2.2)
  else if p == 1 then (10 * t.feedB.1, 50 * t.feedB.2, r.2.2)
  else r

/-- The warnings that a sample shows (R612): CAUSE 1 voltage, 2 current, 3 temperature. -/
def warnings (p : Nat) (r : Nat × Nat × Nat) : List Nat :=
  let (v, i) := railLimits p
  (if v != 0 && (100 * r.1 < 97 * v || 103 * v < 100 * r.1) then [1] else [])
    ++ (if 95 * i < 100 * r.2.1 then [2] else []) ++ (if 110 < r.2.2 then [3] else [])

/-- The PMBus status bit of a warning (PMBus 1.4, log entry 22), as a change of the page's status. -/
def warnBit (p cause : Nat) (high : Bool) (x : PmbusStatus) : PmbusStatus :=
  match cause with
  | 1 => { x with vout := Nat.lor x.vout (if high then 0x40 else 0x20) }
  | 2 => if p < 2 then { x with input := Nat.lor x.input 0x02 } else { x with iout := Nat.lor x.iout 0x20 }
  | _ => { x with temperature := Nat.lor x.temperature 0x40 }

/-- A rail's warnings at one sample: a bit that sets logs CE 0x68 and raises PWR_REGULATOR. -/
def railWarnings (h : Hw) (p : Nat) : Hw :=
  let r := railSample h.pwr.sample p
  forAll (if tbit h.pwr.railsOn p then warnings p r else []) (fun cause h =>
    let x := KMap.get h.smb.pages p
    let y := warnBit p cause ((railLimits p).1 < r.1) x
    if x == y then h
    else
      let h := { h with smb := { h.smb with pages := KMap.set h.smb.pages p y } }
      raise (countClk (logOpen h 163 0 0x68 (some (p * 256 + cause)) (some 0)) 71) 0x32B (p * 256 + cause)) h

/-- A telemetry update (R611, R612, R642): the rails' warnings, and the temperature of each optical engine, sensors 48–59 (R410,
R417, R621). -/
def telemetrySample (h : Hw) (t : Telemetry) : Hw :=
  let h := forBelow 12 (fun p h => railWarnings h p) (h.onPwr fun p => { p with sample := t })
  forBelow 12 (fun e h => match t.temps[48 + e]? with
    | some c => h.setEngine e { h.engine e with temp := Nat.min 255 c }
    | none => h) h
def execTelemetrySample (t : Telemetry) (s : State) : Result := .next (s.onHw fun h => telemetrySample h t)

/-- CAUSE of a regulator fault from the last sample (R612); where the sample shows none, one of the three, free. -/
def faultCause (h : Hw) (p : Nat) : Nat × Hw :=
  let r := railSample h.pwr.sample p
  let (v, i) := railLimits p
  if v != 0 && (100 * r.1 < 92 * v || 108 * v < 100 * r.1) then (4, h)
  else if 110 * i < 100 * r.2.1 then (5, h)
  else if 125 < r.2.2 then (6, h)
  else let (x, h) := fresh h; (4 + x % 3, h)

/-- A rail beyond its fault limit (R612): it is turned off but for PAGE 11, MODULE is reset with cause FEED and held until
RESET_N is cycled; the FE entry stays in log 163. -/
def regulatorFault (h : Hw) (p : Nat) : Hw :=
  let (c, h) := faultCause h p
  let bit : PmbusStatus → PmbusStatus := fun x =>
    if c == 4 then { x with vout := Nat.lor x.vout (if (railLimits p).1 < (railSample h.pwr.sample p).1 then 0x80 else 0x10) }
    else if c == 5 then (if p < 2 then { x with input := Nat.lor x.input 0x04 } else { x with iout := Nat.lor x.iout 0x80 })
    else { x with temperature := Nat.lor x.temperature 0x80 }
  let h := { h with smb := { h.smb with pages := KMap.mod h.smb.pages p bit } }
  let h := h.onPwr fun w => if p == 11 then w else { w with railsOn := putBit w.railsOn p false }
  let h := logOpen h 163 3 0x67 (some (p * 256 + c)) (some 0)
  let h := { h with always := { h.always with feed := true }, sys := { h.sys with heldInReset := true } }
  raise (moduleReset h) 0x32B (p * 256 + c)
def execRegulatorFault (rail : Fin 12) (s : State) : Result := .next (s.onHw fun h => regulatorFault h rail.val)

/-! ### Power states (R613–R617) -/

/-- HOLD or OFFLINE closes every tile gate that is open, remembering which (R614 step 1). -/
def closeTiles (h : Hw) : Hw :=
  let open' := 0xFFFFFFFF - h.clk.gateTile
  let h := h.onPwr fun p => { p with closedGates := open' }
  forAll (bitsOf 32 open') (fun t h => moveGate h 0 t true) h

/-- A gate of the entry is not quiescent (R614 step 1, R588): those before it close and open again, and its refusal is counted. -/
def refuseEntry (h : Hw) : Hw :=
  let closed := ((List.range 32).filter fun t => !tbit h.clk.gateTile t).takeWhile fun t => !tileBusy h t
  let h := forAll closed (fun t h => moveGate h 0 t false) (forAll closed (fun t h => moveGate h 0 t true) h)
  countClk (h.onClk fun c => { c with gateRefused := satInc 16 c.gateRefused }) 16

/-- The tile gates that the entry closed open again. -/
def reopenTiles (h : Hw) : Hw :=
  let h := forAll (bitsOf 32 h.pwr.closedGates) (fun t h => moveGate h 0 t false) h
  h.onPwr fun p => { p with closedGates := 0 }

/-- A wake from HOLD (R614). -/
def wakeHold (h : Hw) : Hw :=
  if h.pwr.state == 1 && h.pwr.wake then
    let h := countClk (h.onPwr fun p => { p with state := 0, wake := false, wakes := satInc 16 p.wakes }) 72
    reopenTiles (leaveSelfRefresh h false)
  else h

/-- A request that needs the pool while the module is in HOLD asks for the wake (R614). -/
def askWake (h : Hw) : Hw := if h.pwr.state == 1 then h.onPwr fun p => { p with wake := true } else h

/-- Enter HOLD (R614). -/
def enterHold (h : Hw) : Hw := selfRefresh ((closeTiles h).onPwr fun p => { p with state := 1, wake := false })

/-- What OFFLINE records: links enabled, engines ON, optical gates (R615). -/
def offlineRecord (h : Hw) : OfflineRecord :=
  { links := packBits ((List.range 64).map fun n => (h.link n).state != 0)
    engines := packBits ((List.range 12).map fun e => (h.engine e).on)
    gates := (List.range 64).filterMap fun n => if (h.link n).gate == 0 then none else some (n, (h.link n).gate) }

/-- Enter OFFLINE (R615). -/
def enterOffline (h : Hw) : Hw :=
  let h := h.onPwr fun p => { p with offline := offlineRecord h }
  let h := forBelow 12 (fun e h => closeGates h e) h
  let h := forBelow 64 (fun n h => linkDisable h n) h
  let h := forBelow 12 (fun e h => h.setEngine e { h.engine e with on := false }) h
  let h := closeTiles h
  selfRefresh (({ h with sys := { h.sys with routerOn := false } }).onPwr fun p => { p with state := 2 })

/-- Return from OFFLINE (R615): stacks, engines, gates, links. -/
def leaveOffline (h : Hw) : Hw :=
  let r := h.pwr.offline
  let h := leaveSelfRefresh h false
  let h := reopenTiles { h with sys := { h.sys with routerOn := !h.bist.failed.contains (4 * 64) } }
  let h := forAll (bitsOf 12 r.engines) (fun e h => h.setEngine e { h.engine e with on := true }) h
  let h := r.gates.foldl (fun h g => setGate h g.1 g.2) h
  let h := forAll (bitsOf 64 r.links) (fun n h => linkEnable h n) h
  h.onPwr fun p => { p with state := 0, offline := {} }

/-- PWR.STATE (R617). From OFFLINE to HOLD the module goes through RUN (log entry 32). -/
def pwrState (q : Req) (h : Hw) : Hw × Option Reply :=
  let x := q.p 0
  if x == 3 then (h, some (Reply.denied rRange))
  else if x == h.pwr.state then (h, some (Reply.ok))
  else if !poolOpen h then (h, some (Reply.busy rNotReady))
  else if x != 0 && (h.pair.state == 2 || h.pair.state == 1) then (h, some (Reply.denied rPair))
  else if x == 1 && (descriptorExecuting h || instanceOpen h || !h.bist.running.isEmpty) then (h, some (Reply.busy rState))
  else if x == 2 && (contextBound h || queueExists h || groupActive h) then (h, some (Reply.busy rState))
  else if h.pwr.state == 1 && x == 2 then (h, some (Reply.busy rState))
  else if x != 0 && (List.range 32).any (fun t => !tbit h.clk.gateTile t && tileBusy h t) then (refuseEntry h, some (Reply.busy rState))
  else
    let h := match x with
      | 0 => if h.pwr.state == 1 then reopenTiles (leaveSelfRefresh (h.onPwr fun p => { p with state := 0, wake := false }) false)
             else leaveOffline h
      | 1 => enterHold (if h.pwr.state == 2 then leaveOffline h else h)
      | _ => enterOffline h
    (h, some (Reply.ok))

/-! ### The limiter and heat (R618–R623) -/

/-- Threshold of the throttle for a temperature sensor (R621): die, then stacks; an engine's is R410's. -/
def throttleAt (sensor : Nat) : Nat := if sensor < 40 then 100 else if sensor < 48 then 95 else 256

/-- Whether some die or stack sensor of the last sample is at or above its throttle temperature. -/
def hot (h : Hw) : Bool := (List.range 48).any (fun i => throttleAt i ≤ h.pwr.sample.temps.getD i 0)

/-- The end of a 1 ms period of the limiter (R618, R619, R622). -/
def limiterPeriod (h : Hw) (watts : Nat) : Hw :=
  let p := h.pwr
  let above := p.limitW < watts
  let step := if above then Nat.min 16 (p.limitDiv + 1)
    else if 100 * watts < 95 * p.limitW then Nat.max 4 (p.limitDiv - 1) else p.limitDiv
  let div := if p.throttle then Nat.max 8 (if hot h then Nat.min 16 (p.limitDiv + 1) else step) else step
  let periods := if above && p.limitDiv == 16 then Nat.min 10 (p.overPeriods + 1) else 0
  let h := if above then countClk h 69 else h
  let h := if periods == 10 && p.overPeriods != 10 then logOpen h 163 0 0x69 (some watts) (some 0) else h
  settleTile (h.onPwr fun p => { p with
    powerW := Nat.min 4095 watts, limitDiv := div, overPeriods := periods, limitW := p.limitNext
    limitMiss := if periods == 10 then true else if watts < p.limitW then false else p.limitMiss })
def execLimiterPeriod (watts : Nat) (s : State) : Result := .next (s.onHw fun h => limiterPeriod h watts)

/-- PWR.LIMIT, a class L setting (R619). -/
def execPwrLimit (m : Fin 16) (s : State) : Result :=
  .next (runHw s m.val 0xF02 [.f 12] false fun q h =>
    if q.p 0 < 300 || 1200 < q.p 0 then (h, some (Reply.denied rRange))
    else (h.onPwr fun p => { p with limitNext := q.p 0 }, some (Reply.ok)))

/-- The hottest of some readings, and its position. -/
def hottest (l : List Nat) : Nat × Nat :=
  l.zipIdx.foldl (fun (best : Nat × Nat) x => if best.1 < x.1 then x else best) (0, 0)

/-- PWR_TEMP (R626). -/
def pwrTemp (h : Hw) : Nat :=
  let t := h.pwr.sample
  let (j, i) := hottest (t.temps.take 40)
  pack [(8, j), (8, (hottest ((t.temps.drop 40).take 8)).1), (8, (hottest ((t.temps.drop 48).take 12)).1),
    (8, (hottest (t.rails.map (fun r => r.2.2))).1), (6, i)]

/-- INFO of PWR_THERMAL for the sensor that starts the throttle (R627). -/
def thermalInfo (h : Hw) (sensor : Nat) : Nat :=
  if sensor < 40 then fld (pwrTemp h) 32 6 * 256 + fld (pwrTemp h) 0 8 else 0x100 + (sensor - 40)

/-- A die or stack sensor reaches its throttle temperature (R622): the limiter's divider is at least 8 at once. -/
def throttleStart (h : Hw) (sensor : Nat) : Hw :=
  if h.pwr.throttle || 48 ≤ sensor then h
  else
    let info := thermalInfo h sensor
    let h := h.onPwr fun p => { p with throttle := true, limitDiv := Nat.max 8 p.limitDiv }
    let h := logOpen (setLevel h 0x32A true info) 163 0 0x66 (some info) (some 0)
    settleTile (countClk h 70)
def execThermalThrottle (sensor : Nat) (s : State) : Result := .next (s.onHw fun h => throttleStart h sensor)

/-- Every sensor is 5 °C below its throttle temperature (R622). -/
def throttleEnd (h : Hw) : Hw := setLevel (h.onPwr fun p => { p with throttle := false }) 0x32A false 0
def execThermalThrottleEnd (_sensor : Nat) (s : State) : Result := .next (s.onHw throttleEnd)

/-- A sensor reaches its trip temperature (R623). -/
def thermalTrip (h : Hw) : Hw :=
  let h := fullReset (h.onPwr fun p => { p with thermTrip := true, tripResetSeen := false, railsOn := 2 ^ 11 })
  { h with always := { h.always with thermal := true } }
def execThermalTrip (_sensor : Nat) (s : State) : Result := .next (s.onHw thermalTrip)

/-- Every sensor has fallen below 80 °C: with RESET_N held low since the trip, the trip ends (R623). -/
def tripRelease (h : Hw) : Hw :=
  if h.pwr.thermTrip && h.pwr.tripResetSeen then
    tryStart (h.onPwr fun p => { p with thermTrip := false, tripResetSeen := false })
  else h
def execThermtripRelease (s : State) : Result := .next (s.onHw tripRelease)

/-! ### Registers and PWR.QUERY (R624, R625, R628) -/

def pwrFeed (h : Hw) : Nat :=
  let p := h.pwr
  pack [(1, b2n p.aGood), (1, b2n p.bGood), (1, b2n p.aOv), (1, b2n p.bOv), (1, b2n p.holdup), (11, 0), (12, p.sample.feedA.1),
    (12, p.sample.feedB.1), (12, p.sample.feedA.2), (12, p.sample.feedB.2)]
def pwrStateReg (h : Hw) : Nat :=
  let p := h.pwr
  pack [(2, p.state), (1, b2n p.changing), (1, b2n (h.clk.tileSwitched < p.limitDiv)), (1, b2n p.limitMiss), (1, b2n p.throttle),
    (10, 0), (12, p.powerW), (12, p.limitW), (8, p.limitDiv), (16, p.wakes)]
def pwrItems (h : Hw) : List Byte :=
  items ([.f 64 (pwrFeed h), .f 64 (pwrStateReg h), .f 64 (pwrTemp h)]
    ++ (List.range 12).flatMap (fun p => let r := railSample h.pwr.sample p; [Item.f 32 r.1, Item.f 32 r.2.1, Item.f 32 r.2.2])
    ++ (List.range 60).map (fun i => .f 8 (h.pwr.sample.temps.getD i 0))
    ++ (List.range 9).map (fun i => .f 32 (KMap.get h.always.counts (64 + i))))
def execPwrQuery (m : Fin 16) (s : State) : Result :=
  .next (runHw s m.val 0xF03 [] false fun _ h => (h, some (Reply.ok (pwrItems h))))

end Sys2Proof.Machine
end

