-- ==== Sys2Proof/Machine/CoherenceOps.lean ====
section
/-!
DEFINITION. The home of coherent lines (chapter 04): messages, transactions, the transitions of R121 and R122, what reads
and writes do at the MCS, atomics, BULK accesses served line by line (R429), the replay filter (R482).
-/
namespace Sys2Proof.Machine
open Sys2Proof

/-! ### Messages (R117) -/

def Packet.peer (p : Packet) : Nat := Packet.cf p 64 12
def Packet.htid (p : Packet) : Nat := Packet.cf p 80 16
def Packet.poisonBit (p : Packet) : Bool := Packet.cf p 104 1 == 1
def Packet.agentState (p : Packet) : Nat := Packet.cf p 106 2
def Packet.openBit (p : Packet) : Bool := Packet.cf p 108 1 == 1

/-- A coherence message of the home `src`. -/
def cohPacket (h : Hw) (op sclass src dst tid addr peer htid : Nat) (poison resv : Bool) (body : List Byte) : Packet :=
  mkPacket op (opcodeVc op) sclass dst src tid (cohControl addr peer htid (pepochOf h src) poison resv 0 ++ body)

/-- The rules of an ATOMIC body (R130, R131). -/
def atomicBad (body : List Byte) (addr : Nat) : Bool :=
  let b := leNat body
  let aop := fld b 0 8
  let opa := fld b 64 128
  let opb := fld b 192 128
  body.length != 48 || aop == 0 || 9 < aop || fld b 8 56 != 0 || fld b 320 64 != 0 || addr % atomicSize aop != 0
    || (aop != 8 && 2 ^ (8 * atomicSize aop) ≤ opa) || (aop != 7 && aop != 8 && opb != 0) || (aop == 7 && 2 ^ 64 ≤ opb)

/-- Body bytes of each REQ opcode. -/
def requestBody (op : Nat) : Nat := if op == 5 then 128 else if op == 6 then 144 else if op == 7 then 48 else 0

/-- A request whose control part or body breaks a rule of its own fields (R687). -/
def badRequest (p : Packet) : Bool :=
  Packet.cf p 60 4 != 0 || Packet.cf p 76 4 != 0 || Packet.cf p 105 1 != 0 || (Packet.peer p) != 0 || (Packet.htid p) != 0
    || (if p.opcode == 7 then atomicBad (Packet.body p) (Packet.addr p) else (Packet.addr p) % 128 != 0 || (Packet.body p).length != requestBody p.opcode)
    || p.data.length < 16

/-- The right that a request needs (R90); an EVICT needs none. -/
def rightOf (op : Nat) : Right :=
  if op == 1 || op == 4 || op == 0x40 then .read else if op == 7 then .atomic else if op == 8 then .none else .write

/-! ### Replay filter (R482) -/

/-- Opcodes that the filter enters. -/
def filtered (op : Nat) : Bool := op == 1 || op == 2 || op == 3 || op == 5 || op == 6 || op == 7 || op == 0x41
def FilterEntry.matchesPacket (e : FilterEntry) (p : Packet) : Bool :=
  e.src == p.src && e.tid == p.tid && e.opcode == p.opcode && e.addr == (Packet.addr p)
/-- Whether a new entry finds room: fewer than 4,096, or one whose transaction has ended. -/
def filterRoom (h : Hw) (t : Nat) : Bool := (h.dir t).filter.length < 4096 || (h.dir t).filter.any (fun e => e.outcome != 0)
/-- Enter an accepted request; the entry that ended earliest makes room. -/
def filterAdd (h : Hw) (t : Nat) (p : Packet) : Hw :=
  if !filtered p.opcode then h
  else
    let d := h.dir t
    let (l, h) := if d.filter.length < 4096 then (d.filter, h)
      else (match d.filter.span (fun e => e.outcome == 0) with | (a, _ :: b) => a ++ b | (a, []) => a, routerCount h (96 + t))
    h.modDir t fun d => { d with filter := l ++ [{ src := p.src, tid := p.tid, opcode := p.opcode, addr := (Packet.addr p) }] }
/-- Add the outcome of a request, whose entry moves behind those that ended before; a result is mirrored before its answer leaves
(R137). -/
def filterEnd (h : Hw) (t : Nat) (p : Packet) (outcome : Nat) (answer : Option Packet) : Hw :=
  match (h.dir t).filter.span (fun e => !(e.outcome == 0 && e.matchesPacket p)) with
  | (a, e :: b) =>
    let e := { e with outcome := outcome, answer := answer }
    let h := h.modDir t fun d => { d with filter := a ++ b ++ [e] }
    if outcome == 1 then emit h (mirrorHead h) (.executed t e) else h
  | _ => h
/-- Forget an entry: its request was answered RETRY. -/
def filterForget (h : Hw) (t : Nat) (p : Packet) : Hw :=
  h.modDir t fun d => { d with filter := d.filter.filter (fun e => !(e.outcome == 0 && e.matchesPacket p)) }

/-! ### Requests for lines -/

/-- The line request of a message. -/
def messageReq (region serial loc : Nat) (p : Packet) : LineReq :=
  { serves := .message p, region := region, serial := serial, home := p.dst, requester := p.src, tid := p.tid, opcode := p.opcode,
    sclass := p.sclass, loc := loc }

/-- Bytes of the next piece of a BULK access: to the end of its line, or the rest where no directory is consulted. -/
def BulkOp.pieceLen (b : BulkOp) : Nat :=
  if b.kind == 0 then Nat.min (b.bytes - b.done) (128 - (b.loc + b.done) % 128) else b.bytes - b.done

/-- The line request of the next piece of a BULK access. -/
def bulkReq (h : Hw) (id : Nat) (b : BulkOp) : LineReq :=
  let home := speaksAs h (h.region b.region).service
  { serves := .bulk id, region := b.region, serial := id, home := home, requester := home,
    opcode := if b.op == 0 then 4 else if b.op == 2 then 7 else if b.pieceLen == 128 then 5 else 6,
    sclass := b.packet.sclass, loc := b.loc + b.done }

/-- A piece of a BULK read has its bytes. -/
def bulkGot (h : Hw) (id : Nat) (bs : List Byte) (pz : List Bool) : Hw :=
  { h with bulk := KMap.upd h.bulk id fun b =>
      { b with data := b.data ++ bs, pz := b.pz ++ pz, done := b.done + bs.length, waiting := false } }
/-- A piece of a BULK write is stored. -/
def bulkStored (h : Hw) (id n : Nat) : Hw :=
  { h with bulk := KMap.upd h.bulk id fun b => { b with done := b.done + n, waiting := false } }
/-- A poison flag for each byte from a flag for each word touched. -/
def byteFlags (a n : Nat) (ws : List Bool) : List Bool := (List.range n).map (fun i => ws.getD ((a + i) / 8 - a / 8) false)

/-- Keep what the home still does until its MCS serves, and wake the module (R353, R584, R614). -/
def park (s : State) (x : Parked) : State := s.onHw fun h => askWake { h with parked := h.parked ++ [x] }

/-- The home performs a request that changes no holder, at the MCS, and answers it (R121, R686). A read without a transaction of
another kind of region grants as R686 says. -/
def performNow (s : State) (t : Nat) (r : LineReq) : State :=
  match r.serves with
  | .recall => s
  | .message p =>
    if r.opcode == 1 || r.opcode == 2 || r.opcode == 3 then
      let (bs, pz, s) := load s r.sclass r.loc 128
      s.onHw fun h => send (filterEnd h t p 3 none)
        (cohPacket h (if r.opcode == 1 then 0x30 else 0x32) p.sclass p.dst p.src p.tid (Packet.addr p) 0 0 pz false bs)
    else if r.opcode == 4 then
      let (bs, pz, s) := load s r.sclass r.loc 128
      s.onHw fun h => send h (cohPacket h 0x33 p.sclass p.dst p.src p.tid (Packet.addr p) 0 r.htid pz false bs)
    else if r.opcode == 7 then
      let (old, pz, s) := atomicAt s r.sclass r.loc (Packet.body p)
      let a := cohPacket s.hw 0x36 p.sclass p.dst p.src p.tid (Packet.addr p) 0 r.htid pz false (leBytes 16 old)
      let s := mirrorLines s r.region r.loc 16
      s.onHw fun h => sendPerformed (filterEnd h t p 1 (some a)) r.region a
    else
      let s := if r.opcode == 5 then store s false r.sclass r.loc (Packet.body p) (Packet.poisonBit p)
        else storePart s r.sclass r.loc (leNat ((Packet.body p).take 16)) ((Packet.body p).drop 16) (Packet.poisonBit p)
      let a := cohPacket s.hw 0x22 p.sclass p.dst p.src p.tid (Packet.addr p) 0 r.htid false false []
      let s := mirrorLines s r.region r.loc 128
      s.onHw fun h => sendPerformed (filterEnd h t p 1 (some a)) r.region a
  | .bulk id =>
    match KMap.find? s.hw.bulk id with
    | none => s
    | some b =>
      let n := b.pieceLen
      if b.op == 0 then
        let (bs, ws, s) := loadFlagged s r.sclass r.loc n
        s.onHw fun h => bulkGot h id bs (byteFlags r.loc n ws)
      else if b.op == 2 then
        let (old, pz, s) := atomicAt s r.sclass r.loc b.data
        let s := mirrorLines s r.region r.loc 16
        s.onHw fun h => { h with bulk := KMap.upd h.bulk id fun b =>
          { b with data := leBytes 16 old, pz := List.replicate 16 pz, done := b.bytes, waiting := false } }
      else
        let bs := (b.data.drop b.done).take n
        let pz := (b.pz.drop b.done).take n
        let s := storeFlagged s false r.sclass r.loc bs fun w =>
          (List.range n).any fun i => (r.loc + i) / 8 == w && pz.getD i false
        let s := mirrorLines s r.region r.loc n
        s.onHw fun h => bulkStored h id n

/-- Bytes that a request reads or writes at the MCS: within one line, or a whole piece of a BULK access. -/
def LineReq.span (h : Hw) (r : LineReq) : Nat := match r.serves with | .bulk id => (KMap.get h.bulk id).pieceLen | _ => 1

/-- A write of the module's own that a takeover holds back for 2 µs (R501 step 4); messages are held as they arrive. -/
def LineReq.held (h : Hw) (r : LineReq) : Bool := h.pair.writeHold && (match r.serves with | .bulk _ => r.opcode != 4 | _ => false)

/-- Perform a request at the MCS, at once or when it serves. -/
def perform (s : State) (t : Nat) (r : LineReq) : State :=
  if mcsServesAll s.hw r.loc (r.span s.hw) && !r.held s.hw then performNow s t r
  else
    park (s.onHw fun h => match r.serves with
      | .bulk id => { h with bulk := KMap.upd h.bulk id fun b => { b with waiting := true } }
      | _ => h) (.perform t r)

/-- The home writes a line poisoned (R133, R135), at once or when its MCS serves. -/
def poisonLine (s : State) (line : Nat) : State :=
  if mcsStores s.hw (line * 128) then poisonNow s line else park s (.poison line)

/-! ### Directory entries and transactions -/

/-- The open transaction of a line: its slot and itself. -/
def DirSlice.txnOf (d : DirSlice) (line : Nat) : Option (Nat × Txn) := List.find? (fun p : Nat × Txn => p.2.line == line) d.txns
/-- HTID of a slot (R115). -/
def DirSlice.htidOf (d : DirSlice) (t slot : Nat) : Nat := pack [(8, slot), (5, t), (3, KMap.get d.gens slot)]
/-- The lines that take a way of the set of `line`. -/
def DirSlice.setLines (d : DirSlice) (line : Nat) : List Nat :=
  ((KMap.keys d.entries ++ d.txns.map (fun p => p.2.line)).eraseDups).filter
    (fun l => Config.directorySet l == Config.directorySet line)
/-- The transient ways of a line's set. -/
def DirSlice.transientWays (d : DirSlice) (line : Nat) : Nat :=
  ((d.setLines line).filter (fun l => (d.txnOf l).isSome)).length
/-- Put an entry, as the most recently used. -/
def putEntry (h : Hw) (t line : Nat) (e : DirEntry) : Hw :=
  let (n, h) := nextSerial h
  h.modDir t fun d => { d with entries := KMap.ins d.entries line { e with used := n } }
def dropEntry (h : Hw) (t line : Nat) : Hw := h.modDir t fun d => { d with entries := KMap.erase d.entries line }
/-- Add a sharer: a fifth holder turns the entry into a group vector (R114). -/
def DirEntry.addSharer (e : DirEntry) (n : Nat) : DirEntry :=
  let groupBit := 2 ^ (n / 64)
  if e.vector then { e with owned := false, groups := Nat.lor e.groups groupBit }
  else if e.ptrs.contains n then { e with owned := false }
  else if e.ptrs.length < 4 then { e with owned := false, ptrs := e.ptrs ++ [n] }
  else { e with owned := false, vector := true, ptrs := [], groups := (e.ptrs ++ [n]).foldl (fun g k => Nat.lor g (2 ^ (k / 64))) 0 }
/-- The holders that a snoop can reach (R121, R135): pointers, or the nodes of a vector's ranges that the active routing table
maps to a port; not this module's own IDs, and no dead agent. -/
def reachable (h : Hw) (e : DirEntry) : List Nat :=
  (if e.vector then (List.range 4096).filter (fun n =>
      tbit e.groups (n / 64) && !isOwn h n && !(candidates (routeEntry h h.router.epoch n)).isEmpty)
    else e.ptrs).filter (fun n => !isDead h n)

/-- Take the slot given, or the first free one, for a transaction. -/
def takeSlot (h : Hw) (t : Nat) (slot : Option Nat) (x : Txn) : Option (Nat × Hw) :=
  match slot with
  | some k => some (k, h.modDir t fun d => { d with txns := KMap.ins d.txns k x })
  | none =>
    match KMap.firstFree (h.dir t).txns 256 with
    | some k => some (k, h.modDir t fun d => { d with txns := KMap.ins d.txns k x })
    | none => none
/-- End a transaction: its slot is free, and its next use has the next generation. -/
def endTxn (h : Hw) (t slot : Nat) : Hw :=
  h.modDir t fun d => { d with txns := KMap.erase d.txns slot, gens := KMap.mod d.gens slot (fun g => (g + 1) % 8) }
def endSlot (h : Hw) (t : Nat) (slot : Option Nat) : Hw := match slot with | some k => endTxn h t k | none => h
/-- FPA of a line as the home names it. -/
def lineFpa (home line : Nat) : Nat := home * 2 ^ 48 + line * 128

/-- A TID for a transaction that the home opens itself: none of its slice's open transactions has it (R117, log entry 8). -/
def homeTid (h : Hw) (t : Nat) : Nat × Hw :=
  let start := h.router.nextTid
  let k := ((List.range 2048).find? (fun i => !(h.dir t).txns.any (fun p => p.2.tid == (start + i) % 2048 * 32 + t))).getD 0
  ((start + k) % 2048 * 32 + t, { h with router := { h.router with nextTid := (start + k + 1) % 2048 } })

/-- The transaction of a request in a state. -/
def txnFor (r : LineReq) (state : Nat) : Txn :=
  { line := r.loc / 128, state := state, serves := r.serves, region := r.region, serial := r.serial, home := r.home,
    requester := r.requester, tid := r.tid, opcode := r.opcode, sclass := r.sclass }

/-- The grant of a transaction leaves, with the line's data unless it is GNT_M. -/
def grantNow (s : State) (t : Nat) (r : LineReq) (slot op : Nat) : State :=
  let line := r.loc / 128
  let (bs, pz, s) := if op == 0x20 then ([], false, s) else load s r.sclass (line * 128) 128
  s.onHw fun h => send h (cohPacket h op r.sclass r.home r.requester r.tid (lineFpa r.home line) 0 ((h.dir t).htidOf t slot) pz false bs)

/-- Grant: the entry becomes `e`, the transaction waits for CMP_ACK, and the grant leaves, once the MCS serves its data. -/
def grantLine (s : State) (t : Nat) (r : LineReq) (slot : Nat) (op : Nat) (e : DirEntry) : State :=
  let line := r.loc / 128
  let s := s.onHw fun h => putEntry (h.modDir t fun d => { d with txns := KMap.ins d.txns slot (txnFor r 6) }) t line e
  if op == 0x20 || mcsServes s.hw r.loc then grantNow s t r slot op else park s (.grant t r slot op)

/-- Send one snoop to each of `l`. -/
def sendSnoops (h : Hw) (t : Nat) (r : LineReq) (slot op : Nat) (l : List Nat) : Hw :=
  forAll l (fun n h => send h (cohPacket h op r.sclass r.home n r.tid (lineFpa r.home (r.loc / 128)) r.requester
    ((h.dir t).htidOf t slot) false false [])) h

/-- Recall a line from all its holders (R126, R99): SNP_INV to sharers, SNP_RECALL to the owner; the entry empties. A dead owner's
line is poisoned at once (R135). With no free slot nothing happens. -/
def recallLine (s : State) (t line region : Nat) (victim : Bool) : State :=
  match KMap.find? (s.hw.dir t).entries line with
  | none => s
  | some e =>
    let l := reachable s.hw e
    if l.isEmpty then
      let s := if e.owned then poisonLine s line else s
      s.onHw fun h => dropEntry h t line
    else
      let home := speaksAs s.hw (s.hw.region region).service
      let (tid, h) := homeTid s.hw t
      let r : LineReq := { region := region, serial := s.hw.stamp, home := home, requester := home, tid := tid, loc := line * 128 }
      let x := { txnFor r (if e.owned then 4 else 3) with
        waits := if e.owned then [] else l, owner := if e.owned then e.ptrs.headD 0 else 0,
        snoop := if e.owned then 0x13 else 0x12, victim := victim }
      match takeSlot h t none x with
      | none => s
      | some (k, h) =>
        let h := if e.owned then h else dropEntry h t line
        let h := if victim then dirCount h t 3 else h
        { s with hw := sendSnoops h t r k (if e.owned then 0x13 else 0x12) l }

/-- A way for a new entry (R126): one is free, or the least recently used one that is not transient is recalled. A request picks one
victim: while its line already waits for a recall that it asked for, none more is picked (log entry 24). -/
def wayFree (d : DirSlice) (line : Nat) : Bool :=
  KMap.has d.entries line || (d.txnOf line).isSome || (d.setLines line).length < 16
def recallVictim (s : State) (t line : Nat) : State :=
  let d := s.hw.dir t
  let set := d.setLines line
  let asked := (set.filter (fun l => match d.txnOf l with | some (_, x) => x.victim | none => false)).length
  let others := (d.overflow.filter (fun w => set.contains (fpaOffset (Packet.addr w.packet) / 128) == false
    && Config.directorySet (fpaOffset (Packet.addr w.packet) / 128) == Config.directorySet line
    && fpaOffset (Packet.addr w.packet) / 128 != line)).map (fun w => fpaOffset (Packet.addr w.packet) / 128)
  if others.eraseDups.length < asked then s
  else
    let stable := d.entries.filter (fun p => set.contains p.1 && (d.txnOf p.1).isNone)
    match stable.foldl (fun (m : Option (Nat × DirEntry)) p =>
        match m with | none => some p | some q => if p.2.used < q.2.used then some p else some q) none with
    | some (l, _) => recallLine s t l ((regionAt s.hw (granuleOf (l * 128))).getD 0) true
    | none => s

/-- Serve a request as from U, in the slot of its transaction if it has one (R121): whether it was served. Where no way is free, the
recall of a victim starts here, also for a request that is then answered RETRY (R127 is silent on that: DESIGN CHOICE, log entry 24); a
victim without a reachable holder frees its way at once, and the request goes on (R126). -/
def serveU (s : State) (t : Nat) (r : LineReq) (slot : Option Nat) : State × Bool :=
  let line := r.loc / 128
  if r.opcode == 1 || r.opcode == 2 || r.opcode == 3 then
    let s := if wayFree (s.hw.dir t) line then s else recallVictim s t line
    if !wayFree (s.hw.dir t) line then (s, false)
    else
      match takeSlot s.hw t slot (txnFor r 6) with
      | none => (s, false)
      | some (k, h) =>
        (grantLine { s with hw := h } t r k (if r.opcode == 1 then 0x31 else 0x32) { owned := true, ptrs := [r.requester] }, true)
  else
    let r := { r with htid := match slot with | some k => (s.hw.dir t).htidOf t k | none => 0 }
    (perform (s.onHw fun h => dropEntry (endSlot h t slot) t line) t r, true)

/-- Begin a transaction with its snoops; a BULK access waits for it, under a TID of the home's own. -/
def openSnoop (s : State) (t : Nat) (r : LineReq) (x : Txn) (op : Nat) (l : List Nat) : State × Bool :=
  let (r, h) := match r.serves with
    | .bulk _ => ({ r with tid := (homeTid s.hw t).1 }, (homeTid s.hw t).2)
    | _ => (r, s.hw)
  match takeSlot h t none { x with snoop := op, tid := r.tid } with
  | none => (s, false)
  | some (k, h) =>
    let h := match r.serves with
      | .bulk id => { h with bulk := KMap.upd h.bulk id fun b => { b with waiting := true } }
      | _ => h
    ({ s with hw := sendSnoops h t r k op l }, true)

/-- A line in S whose sharers are all gone: ownership, or execution (R121). -/
def afterSharers (s : State) (t : Nat) (r : LineReq) (slot : Option Nat) (wasSharer : Bool) : State × Bool :=
  if r.opcode == 2 || r.opcode == 3 then
    match takeSlot s.hw t slot (txnFor r 6) with
    | none => (s, false)
    | some (k, h) =>
      (grantLine { s with hw := h } t r k (if r.opcode == 3 && wasSharer then 0x20 else 0x32)
        { owned := true, ptrs := [r.requester] }, true)
  else serveU s t r slot

/-- Serve a request at a line in a stable state (R121): whether it was served, or its transaction opened. -/
def startLine (s : State) (t : Nat) (r : LineReq) : State × Bool :=
  let line := r.loc / 128
  let d := s.hw.dir t
  if (d.txnOf line).isSome || d.broken.contains line then (s, false)
  else
    match KMap.find? d.entries line with
    | none => serveU s t r none
    | some e =>
      let fromMessage := match r.serves with | .message _ => true | _ => false
      let s := s.onHw fun h => putEntry h t line e
      if e.owned then
        let o := e.ptrs.headD 0
        if o == r.requester && fromMessage then serveU (s.onHw fun h => dropEntry h t line) t r none
        else if isDead s.hw o then serveU ((poisonLine s line).onHw fun h => dropEntry h t line) t r none
        else
          let op := if r.opcode == 1 then 0x10 else if r.opcode == 4 then 0x14
            else if r.opcode == 2 || r.opcode == 3 then 0x11 else 0x13
          openSnoop s t r { txnFor r 4 with owner := o } op [o]
      else if r.opcode == 4 then (perform s t r, true)
      else if r.opcode == 1 then
        match takeSlot s.hw t none (txnFor r 6) with
        | none => (s, false)
        | some (k, h) => (grantLine { s with hw := h } t r k 0x30 (e.addSharer r.requester), true)
      else
        let own := r.opcode == 2 || r.opcode == 3
        let was := own && !e.vector && e.ptrs.contains r.requester
        let l := (reachable s.hw e).filter (fun n => !(own && n == r.requester))
        if l.isEmpty then afterSharers s t r none was
        else openSnoop s t r { txnFor r 3 with waits := l, wasSharer := was } 0x12 l

/-! ### BULK and tile accesses (R116, R429) -/

/-- The control part of a BULK answer (R429). -/
def bulkControl (p : Packet) (status : Nat) (poison : Bool) : List Byte :=
  leBytes 16 (pack [(60, (Packet.addr p)), (4, 0), (13, Packet.cf p 64 13), (3, 0), (4, status), (1, b2n poison)])
/-- BRD_DATA or BDONE. -/
def bulkAnswer (p : Packet) (status : Nat) (poison : Bool) (data : List Byte) : Packet :=
  if p.opcode == 0x40 then mkPacket 0x42 3 p.sclass p.src p.dst p.tid (bulkControl p status poison ++ data)
  else mkPacket 0x43 2 p.sclass p.src p.dst p.tid (bulkControl p status false)

/-- A BULK or tile access has ended: it is answered, or its answer is kept for the tile. -/
def bulkFinish (h : Hw) (id : Nat) (b : BulkOp) (status : Nat) : Hw :=
  let h := { h with bulk := KMap.erase h.bulk id }
  if b.quiet then
    match b.notify with
    | some c => if status == stOK then h else ctxCount h c 5
    | none => h
  else if b.isLocal then
    keepAnswer h (if b.op == 0 then none else some b.region) id
      { status := status, data := if b.op == 1 then [] else b.data, pz := if b.op == 1 then [] else b.pz }
  else
    let a := bulkAnswer b.packet status (b.pz.any (fun z => z)) (if status == stOK then b.data else [])
    if b.op == 0 then send h a else sendPerformed (filterEnd h b.tile b.packet 1 (some a)) b.region a

/-- Find the location of an access to a SNAPSHOT region (R162, R164): refused with no shard free (R171), or waiting for a copy. -/
def placeBulk (h : Hw) (id : Nat) (b : BulkOp) : Bool × Hw :=
  match place h b.region b.slot b.addr (b.op != 0) with
  | (.ok _ _ loc _ _, h) => (true, { h with bulk := KMap.upd h.bulk id fun b => { b with loc := loc, pend := false } })
  | (.denied, h) => (false, bulkFinish h id b stDenied)
  | (_, h) => (false, h)

/-- Serve the pieces of a BULK access in order, until one has to wait (R429). -/
def pumpBulk : Nat → State → Nat → State
  | 0, s, _ => s
  | f + 1, s, id =>
    match KMap.find? s.hw.bulk id with
    | none => s
    | some b =>
      if b.waiting then s
      else if b.pend then
        match placeBulk s.hw id b with
        | (true, h) => pumpBulk f { s with hw := h } id
        | (false, h) => { s with hw := h }
      else if b.bytes ≤ b.done then s.onHw fun h => bulkFinish h id b stOK
      else if b.kind != 0 then pumpBulk f (perform s b.tile (bulkReq s.hw id b)) id
      else
        match startLine s b.tile (bulkReq s.hw id b) with
        | (s, true) => pumpBulk f s id
        | (s, false) => s

/-- Begin a BULK or tile access that has passed its check, and serve what can be served. -/
def beginBulk (s : State) (id : Nat) (b : BulkOp) : State :=
  let s := s.onHw fun h => { h with bulk := KMap.ins h.bulk id b }
  pumpBulk 40 s id

/-- After a transaction of a BULK access, go on with it. -/
def resumeServed (s : State) (v : Serves) : State := match v with | .bulk id => pumpBulk 40 s id | _ => s

end Sys2Proof.Machine
end

