-- ==== Sys2Proof/Machine/Coherence.lean ====
section
/-!
DEFINITION. The coherence and BULK messages at the home (R121–R142, R429, R482, R686, R687) and the COH.* commands.
-/
namespace Sys2Proof.Machine
open Sys2Proof

/-! ### Requests -/

/-- Log UE 0x51, unassigned offset (R20). -/
def logUnassigned (h : Hw) : Hw := logOpen h 160 2 0x51 none none

/-- Whether an offset lies in the control window (R19). -/
def inWindow (a : Nat) : Bool := 0xFF0000000000 ≤ a && a < 0xFF0001000000

/-- Answer DENY (R118); the refusal is kept for a repeat (R482). -/
def denyRequest (h : Hw) (t : Nat) (p : Packet) : Hw :=
  let a := cohPacket h 0x25 p.sclass p.dst p.src p.tid (Packet.addr p) 0 0 false false []
  send (filterEnd h t p 1 (some a)) a

/-- What the packet's ADDR is refused for before any check of a region: nothing, or its log entry. -/
def addressFault (h : Hw) (p : Packet) : Option Hw :=
  if fpaNode (Packet.addr p) != p.dst then some (logMalformed h)
  else if inPool h (Packet.addr p) then none
  else if inWindow (fpaOffset (Packet.addr p)) then some h
  else some (logUnassigned h)

/-- The writes, grants and atomics that a new active holds back for 2 µs (R501): an RD_SHARED only where it would grant E. -/
def heldByTakeover (h : Hw) (p : Packet) : Bool :=
  h.pair.writeHold && !(p.opcode == 4 || p.opcode == 8 || p.opcode == 0x40)
    && !(p.opcode == 1 && (match KMap.find? (h.dir (tileOf (fpaOffset (Packet.addr p)))).entries (fpaOffset (Packet.addr p) / 128) with
      | some e => !e.owned
      | none => false))

/-- A request goes to the overflow queue, or is answered RETRY when its 8 slots are taken (R127, R128). -/
def toOverflow (h : Hw) (t : Nat) (r : LineReq) (p : Packet) : Hw :=
  let d := h.dir t
  let mine := d.reserved == some (p.src, p.tid)
  let n := d.overflow.length
  if n + (if d.reserved.isSome && !mine then 1 else 0) < 8 then
    h.modDir t fun d => { d with
      overflow := d.overflow ++ [{ serial := r.serial, region := r.region, packet := p }]
      reserved := if mine then none else d.reserved
      counts := KMap.mod d.counts 2 (fun m => Nat.max m (n + 1)) }
  else
    let resv := d.reserved.isNone
    let h := filterForget h t p
    let h := dirCount h t (if resv then 0 else 1)
    let h := if resv then h.modDir t fun d => { d with reserved := some (p.src, p.tid) } else h
    send h (cohPacket h 0x21 p.sclass p.dst p.src p.tid (Packet.addr p) 0 0 false resv [])

/-- EVICT at a line in a stable state: a pointer that names the sender goes; EVICT_ACK (R121). -/
def evictLine (h : Hw) (t : Nat) (p : Packet) : Hw :=
  let line := fpaOffset (Packet.addr p) / 128
  let h := match KMap.find? (h.dir t).entries line with
    | none => h
    | some e =>
      if e.vector || !e.ptrs.contains p.src then h
      else
        let l := e.ptrs.filter (fun n => n != p.src)
        if l.isEmpty then dropEntry h t line else h.modDir t fun d => { d with entries := KMap.ins d.entries line { e with ptrs := l } }
  send h (cohPacket h 0x23 p.sclass p.dst p.src p.tid (Packet.addr p) 0 0 false false [])

/-- Serve a message at a line in a stable state: whether it was served. -/
def serveMessage (s : State) (t : Nat) (r : LineReq) (p : Packet) : State × Bool :=
  if p.opcode == 8 then
    if ((s.hw.dir t).txnOf (r.loc / 128)).isSome then (s, false) else (s.onHw fun h => evictLine h t p, true)
  else startLine s t r

/-- A checked request to a COHERENT region: behind an earlier one for its line (R124, R142), else served, else held or RETRY. -/
def coherentRequest (s : State) (t : Nat) (r : LineReq) (p : Packet) : State :=
  if (s.hw.dir t).overflow.any (fun w => fpaOffset (Packet.addr w.packet) / 128 == r.loc / 128) then s.onHw fun h => toOverflow h t r p
  else
    match serveMessage s t r p with
    | (s, true) => s.onHw fun h => h.modDir t fun d => { d with reserved := if d.reserved == some (p.src, p.tid) then none else d.reserved }
    | (s, false) => s.onHw fun h => toOverflow h t r p

/-- A checked request to a region of another kind is answered at once (R686). -/
def plainRequest (s : State) (t : Nat) (r : LineReq) (p : Packet) : State :=
  if p.opcode == 8 then s.onHw fun h => send h (cohPacket h 0x23 p.sclass p.dst p.src p.tid (Packet.addr p) 0 0 false false [])
  else perform s t r

/-- A repeat of a request in the filter (R482): what is done with it, unless it is served as new. -/
def replayed (h : Hw) (t : Nat) (p : Packet) : Option Hw :=
  match (h.dir t).filter.find? (fun e => e.matchesPacket p) with
  | none => none
  | some e =>
    if !filtered p.opcode || e.outcome == 3 then none
    else match e.answer with
      | some a => some (send h a)
      | none => some h

/-- Forget ended entries of a request that is served as new (R482). -/
def forgetEnded (h : Hw) (t : Nat) (p : Packet) : Hw :=
  h.modDir t fun d => { d with filter := d.filter.filter (fun e => !(e.outcome == 3 && e.matchesPacket p)) }

/-- A coherence request of opcode `op` arrives at its home (R30, R121, R686, R687): well formed, from a live agent, not a repeat,
allowed by the region, then the directory, then the MCS. While its shard is copied it waits, as one that has passed its check. -/
def requestArrives (op : Nat) (p : Packet) (s : State) : State :=
  if p.opcode != op || !isOwn s.hw p.dst then s
  else
    let t := tileOf (fpaOffset (Packet.addr p))
    let s := s.onHw fun h => takeInbox h p
    if badRequest p then s.onHw fun h => denyRequest (logMalformed h) t p
    else
      match addressFault s.hw p with
      | some h => { s with hw := denyRequest h t p }
      | none =>
        if isDead s.hw p.src then s.onHw fun h => denyRequest h t p
        else if heldByTakeover s.hw p then s.onHw fun h => waitInbox h p
        else
          match replayed s.hw t p with
          | some h => { s with hw := h }
          | none =>
            if filtered p.opcode && !filterRoom s.hw t then s.onHw fun h => waitInbox h p
            else
              match locate s.hw p.src p.dst (fpaOffset (Packet.addr p)) (rightOf op) with
              | (.denied, h) => { s with hw := denyRequest (filterAdd (forgetEnded h t p) t p) t p }
              | (.held, h) => { s with hw := send (dirCount h t 1) (cohPacket h 0x21 p.sclass p.dst p.src p.tid (Packet.addr p) 0 0 false false []) }
              | (.copying region slot _, h) =>
                let (n, h) := nextSerial (filterAdd (forgetEnded h t p) t p)
                park { s with hw := h } (.shard region slot n p)
              | (.ok region kind loc _ _, h) =>
                let h := filterAdd (forgetEnded h t p) t p
                let (n, h) := nextSerial h
                let r := messageReq region n loc p
                if kind == 0 then coherentRequest { s with hw := h } t r p else plainRequest { s with hw := h } t r p

def execRdShared (p : Packet) (s : State) : Result := commit (requestArrives 1 p) s
def execRdOwn (p : Packet) (s : State) : Result := commit (requestArrives 2 p) s
def execUpgrade (p : Packet) (s : State) : Result := commit (requestArrives 3 p) s
def execRdOnce (p : Packet) (s : State) : Result := commit (requestArrives 4 p) s
def execWrLine (p : Packet) (s : State) : Result := commit (requestArrives 5 p) s
def execWrPart (p : Packet) (s : State) : Result := commit (requestArrives 6 p) s
def execAtomic (p : Packet) (s : State) : Result := commit (requestArrives 7 p) s
def execEvict (p : Packet) (s : State) : Result := commit (requestArrives 8 p) s

/-- The first held request that can be served (R124, R127): its line is stable, no earlier one waits for it, and a way and a slot
are free. -/
def serveOverflow (t : Nat) : List Waiting → List Waiting → State → State
  | _, [], s => s
  | done, w :: r, s =>
    let line := fpaOffset (Packet.addr w.packet) / 128
    if heldByTakeover s.hw w.packet || done.any (fun x => fpaOffset (Packet.addr x.packet) / 128 == line) then serveOverflow t (done ++ [w]) r s
    else
      match serveMessage s t (messageReq w.region w.serial (line * 128 + fpaOffset (Packet.addr w.packet) % 128) w.packet) w.packet with
      | (s, true) => s.onHw fun h => h.modDir t fun d => { d with overflow := done ++ r }
      | (s, false) => serveOverflow t (done ++ [w]) r s
def execOverflowRequestServed (tile : Fin 32) (s : State) : Result :=
  commit (fun s => serveOverflow tile.val [] (s.hw.dir tile.val).overflow s) s

/-- A reservation not used within 20 µs ends (R128). -/
def execResvExpiry (tile : Fin 32) (s : State) : Result :=
  commit (fun s => s.onHw fun h => h.modDir tile.val fun d => { d with reserved := none }) s

/-! ### Answers (R122, R123, R125) -/

/-- The open transaction that a message matches by HTID and ADDR (R123). -/
def matched (h : Hw) (p : Packet) : Option (Nat × Nat × Txn) :=
  let t := tileOf (fpaOffset (Packet.addr p))
  match (h.dir t).txnOf (fpaOffset (Packet.addr p) / 128) with
  | some (k, x) => if coherentAddr h p && (h.dir t).htidOf t k == Packet.htid p then some (t, k, x) else none
  | none => none

/-- The line request that a transaction serves. -/
def txnReq (h : Hw) (x : Txn) : LineReq :=
  match x.serves with
  | .bulk id => bulkReq h id (KMap.get h.bulk id)
  | .message p => messageReq x.region x.serial (x.line * 128 + fpaOffset (Packet.addr p) % 128) p
  | .recall => { region := x.region, serial := x.serial, home := x.home, requester := x.requester, loc := x.line * 128 }

/-- The owner is gone: a recall ends, another request is served as from U (R122). -/
def ownerGone (s : State) (t k : Nat) (x : Txn) : State :=
  match x.serves with
  | .recall => s.onHw fun h => dropEntry (endTxn h t k) t x.line
  | v => resumeServed (serveU s t (txnReq s.hw x) (some k)).1 v

/-- Every sharer has answered (R121, R122). -/
def sharersGone (s : State) (t k : Nat) (x : Txn) : State :=
  match x.serves with
  | .recall => s.onHw fun h => endTxn h t k
  | v => resumeServed (afterSharers s t (txnReq s.hw x) (some k) x.wasSharer).1 v

/-- Change an open transaction. -/
def Hw.modTxn (h : Hw) (t k : Nat) (f : Txn → Txn) : Hw := h.modDir t fun d => { d with txns := KMap.upd d.txns k f }

/-- A sharer's answer in TS (R122). -/
def sharerAnswer (s : State) (t k : Nat) (x : Txn) (n : Nat) : State :=
  let l := x.waits.filter (fun m => m != n)
  let s := s.onHw fun h => h.modTxn t k fun x => { x with waits := l }
  if l.isEmpty then sharersGone s t k x else s

/-- WB_ACK to a node (R122, R125), with the HTID of the transaction that it belongs to, 0 for none (R117). -/
def sendWbAck (h : Hw) (home n tid sclass addr htid : Nat) : Hw := send h (cohPacket h 0x24 sclass home n tid addr 0 htid false false [])

/-- Whether the open transaction of its line awaits a write-back of node `n` (R123): as the owner, as the requester in TA, and in TP as
either, for a requester returns forwarded data with LATE (R139, R140). -/
def awaitsWriteBack (x : Txn) (n : Nat) : Bool :=
  ((x.state == 4 || x.state == 5) && x.owner == n) || (x.state == 6 && x.requester == n)
    || (x.state == 7 && x.hadOwner && (x.owner == n || x.requester == n))

/-- The slot of the open transaction that a message is taken for (R123). -/
def takenFor (h : Hw) (p : Packet) : Option (Nat × Nat) :=
  if p.opcode == 0x34 then
    let t := tileOf (fpaOffset (Packet.addr p))
    match (h.dir t).txnOf (fpaOffset (Packet.addr p) / 128) with
    | some (k, x) => if coherentAddr h p && awaitsWriteBack x p.src then some (t, k) else none
    | none => none
  else (matched h p).map fun m => (m.1, m.2.1)

/-- SNPRSP_I (R122). -/
def takeSnprspI (p : Packet) (s : State) : State :=
  match matched s.hw p with
  | some (t, k, x) =>
    if x.state == 3 && x.waits.contains p.src then sharerAnswer s t k x p.src
    else if x.state == 4 && x.owner == p.src then ownerGone s t k x
    else s.onHw fun h => late h p
  | none => s.onHw fun h => late h p

/-- The owner has sent its copy to the requester (R122). -/
def forwardTaken (s : State) (t k : Nat) (x : Txn) : State :=
  let e := KMap.get (s.hw.dir t).entries x.line
  if x.opcode == 1 then
    s.onHw fun h => (putEntry h t x.line ((({ ptrs := [x.owner] } : DirEntry)).addSharer x.requester)).modTxn t k fun x => { x with state := 6 }
  else if x.opcode == 2 || x.opcode == 3 then
    s.onHw fun h => (putEntry h t x.line { e with owned := true, vector := false, ptrs := [x.requester] }).modTxn t k fun x => { x with state := 6 }
  else s.onHw fun h => endTxn h t k

/-- The bytes of an owner's line that a BULK read asked for (R429). -/
def bulkFromOwner (s : State) (t k : Nat) (x : Txn) (d : List Byte) (pz : Bool) : State :=
  match x.serves with
  | .bulk id =>
    let b : BulkOp := KMap.get s.hw.bulk id
    let n := b.pieceLen
    let bs := (d.drop ((b.loc + b.done) % 128)).take n
    resumeServed (s.onHw fun h => bulkGot (endTxn h t k) id bs (List.replicate n pz)) x.serves
  | _ => s

/-- SNPRSP_FWD (R122); a BULK read ends when the home also holds the DATA_ONCE (R429). -/
def takeSnprspFwd (p : Packet) (s : State) : State :=
  match matched s.hw p with
  | some (t, k, x) =>
    if x.state == 4 && x.owner == p.src && (x.snoop == 0x10 || x.snoop == 0x11 || x.snoop == 0x14) then
      match x.serves, x.forwarded with
      | .bulk _, some (d, pz) => bulkFromOwner s t k x d pz
      | .bulk _, none => s.onHw fun h => h.modTxn t k fun x => { x with answered := true }
      | _, _ => forwardTaken s t k x
    else s.onHw fun h => late h p
  | none => s.onHw fun h => late h p

/-- DATA_ONCE that an owner sends to the home (R429). -/
def takeDataOnce (p : Packet) (s : State) : State :=
  match matched s.hw p with
  | some (t, k, x) =>
    if x.state == 4 && x.owner == p.src && x.snoop == 0x14 && (match x.serves with | .bulk _ => true | _ => false) then
      if x.answered then bulkFromOwner s t k x (Packet.body p) (Packet.poisonBit p)
      else s.onHw fun h => h.modTxn t k fun x => { x with forwarded := some (Packet.body p, Packet.poisonBit p) }
    else s.onHw fun h => late h p
  | none => s.onHw fun h => late h p

/-- SNPRSP_WBIF (R122, R125). -/
def takeSnprspWbif (p : Packet) (s : State) : State :=
  match matched s.hw p with
  | some (t, k, x) =>
    if x.state == 3 && x.waits.contains p.src then sharerAnswer s t k x p.src
    else if x.state == 4 && x.owner == p.src then
      if x.data then
        ownerGone (s.onHw fun h => sendWbAck h x.home p.src x.wbTid p.sclass (Packet.addr p) ((h.dir t).htidOf t k)) t k x
      else s.onHw fun h => h.modTxn t k fun x => { x with state := 5 }
    else s.onHw fun h => late h p
  | none => s.onHw fun h => late h p

/-- A dead agent's line is poisoned if it owned it, and its pointer goes (R105). -/
def buryHolder (n t line : Nat) (e : DirEntry) (s : State) : State :=
  if e.vector || !e.ptrs.contains n || ((s.hw.dir t).txnOf line).isSome then s
  else if e.owned then (poisonLine s line).onHw fun h => dropEntry h t line
  else
    let l := e.ptrs.filter (fun k => k != n)
    s.onHw fun h => if l.isEmpty then dropEntry h t line else putEntry h t line { e with ptrs := l }

/-- CMP_ACK ends a transaction in TA (R122): the line is as its entry says, or U if the requester has written it back. A requester that
has been declared dead meanwhile loses the line (R105). -/
def endGrant (s : State) (t k : Nat) (x : Txn) (outcome : Nat) : State :=
  let s := s.onHw fun h =>
    let h := if x.data then dropEntry h t x.line else h
    let h := match x.serves with | .message p => filterEnd h t p outcome none | _ => h
    endTxn h t k
  if isDead s.hw x.requester then
    match KMap.find? (s.hw.dir t).entries x.line with
    | some e => buryHolder x.requester t x.line e s
    | none => s
  else s
def takeCmpAck (p : Packet) (s : State) : State :=
  match matched s.hw p with
  | some (t, k, x) => if x.state == 6 && x.requester == p.src then endGrant s t k x 2 else s.onHw fun h => late h p
  | none => s.onHw fun h => late h p

/-- Store the data of a message over its line (R367), mirror it, and answer WB_ACK once it is performed if `ack`. -/
def storeNow (s : State) (region loc : Nat) (p : Packet) (ack : Bool) : State :=
  let s := mirrorLines (store s true p.sclass loc (Packet.body p) (Packet.poisonBit p)) region loc 128
  if ack then s.onHw fun h => sendPerformed h region (cohPacket h 0x24 p.sclass p.dst p.src p.tid (Packet.addr p) 0 0 false false []) else s
/-- The same at once, or when the MCS serves. -/
def storeLine (s : State) (region loc : Nat) (p : Packet) (ack : Bool := false) : State :=
  if mcsStores s.hw loc then storeNow s region loc p ack else park s (.store region loc p ack)

/-- SNP_DATA (R122). -/
def takeSnpData (p : Packet) (s : State) : State :=
  match matched s.hw p with
  | some (t, k, x) =>
    if x.state == 4 && x.owner == p.src && Packet.agentState p == 1 && x.opcode == 1 then
      forwardTaken (storeLine s x.region (x.line * 128) p) t k x
    else if x.state == 4 && x.owner == p.src && Packet.agentState p == 0 then ownerGone (storeLine s x.region (x.line * 128) p) t k x
    else s.onHw fun h => late h p
  | none => s.onHw fun h => late h p

/-- A refused write-back is answered DENY with its ADDR and TID (R123). -/
def denyWriteBack (h : Hw) (p : Packet) : Hw := send h (cohPacket h 0x25 p.sclass p.dst p.src p.tid (Packet.addr p) 0 0 false false [])
def ackWriteBack (h : Hw) (p : Packet) (htid : Nat) : Hw := sendWbAck h p.dst p.src p.tid p.sclass (Packet.addr p) htid

/-- A write-back that no transaction awaits (R123, R686). It waits for no snapshot command (R26): the command holds requests; while its shard is copied it stands as
one that has passed its check. -/
def plainWriteBack (p : Packet) (s : State) : State :=
  let t := tileOf (fpaOffset (Packet.addr p))
  let line := fpaOffset (Packet.addr p) / 128
  match locateNow s.hw p.src p.dst (fpaOffset (Packet.addr p)) .write with
  | (.denied, h) | (.held, h) => { s with hw := denyWriteBack h p }
  | (.copying region slot _, h) =>
    let (n, h) := nextSerial h
    park { s with hw := h } (.shard region slot n p)
  | (.ok region kind loc _ _, h) =>
    let s := { s with hw := h }
    if kind != 0 then storeLine s region loc p true
    else
      match KMap.find? (s.hw.dir t).entries line with
      | some e =>
        if e.owned && e.ptrs.headD 0 == p.src && ((s.hw.dir t).txnOf line).isNone then
          storeLine (s.onHw fun h => dropEntry h t line) region loc p true
        else s.onHw fun h => ackWriteBack h p 0
      | none => s.onHw fun h => ackWriteBack h p 0

/-- WB_DATA (R122, R123, R125, R140, R686). -/
def takeWbData (p : Packet) (s : State) : State :=
  let t := tileOf (fpaOffset (Packet.addr p))
  match addressFault s.hw p with
  | some h => { s with hw := denyWriteBack h p }
  | none =>
    if isDead s.hw p.src then s.onHw fun h => denyWriteBack h p
    else
      match (s.hw.dir t).txnOf (fpaOffset (Packet.addr p) / 128) with
      | some (k, x) =>
        if awaitsWriteBack x p.src then
          let s := storeLine s x.region (x.line * 128) p
          if x.state == 4 then s.onHw fun h => h.modTxn t k fun x => { x with data := true, wbTid := p.tid }
          else if x.state == 5 then ownerGone (s.onHw fun h => ackWriteBack h p ((h.dir t).htidOf t k)) t k x
          else s.onHw fun h => ackWriteBack (h.modTxn t k fun x => { x with data := true }) p ((h.dir t).htidOf t k)
        else plainWriteBack p s
      | none => plainWriteBack p s

/-! ### Takeover probes (R138–R140) -/

/-- The probed line is rebuilt: its requester is served afresh if it reported OPEN, else its transaction is over (R140). -/
def settleRequester (s : State) (t k : Nat) (x : Txn) : State :=
  let s := s.onHw fun h => endTxn h t k
  match x.serves with
  | .message p =>
    if x.reopened && heldByTakeover s.hw p then
      s.onHw fun h => toOverflow h t (messageReq x.region x.serial (x.line * 128) p) p
    else if x.reopened then
      match serveMessage s t (messageReq x.region x.serial (x.line * 128 + fpaOffset (Packet.addr p) % 128) p) p with
      | (s, true) => s
      | (s, false) => s.onHw fun h => toOverflow h t (messageReq x.region x.serial (x.line * 128) p) p
    else s.onHw fun h => filterForget h t p
  | .bulk id => resumeServed (s.onHw fun h => { h with bulk := KMap.upd h.bulk id fun b => { b with waiting := false } }) x.serves
  | .recall => s

/-- The copy that a rebuilt line takes (R140): that of an owner in M, or of one sharer where no owner is found. -/
def probedCopy (x : Txn) : Option (Nat × Packet) :=
  match x.found.find? (fun f => f.2 == 2 || f.2 == 3) with
  | some (n, st) => if st == 3 then x.copied.find? (fun c => c.1 == n) else none
  | none => x.copied.find? (fun c => x.found.any (fun f => f.1 == c.1))

/-- Every probe is answered, and the copy that is to be written has come (R140). -/
def probesIn (x : Txn) : Bool :=
  x.waits.isEmpty && (x.found.isEmpty || x.found.any (fun f => f.2 == 2) || (probedCopy x).isSome)

/-- Rebuild the line from what the probes found (R140); a line whose owner was awaited first waits for its WB_DATA. -/
def rebuildLine (s : State) (t k : Nat) (x : Txn) (waited : Bool) : State :=
  let s := match probedCopy x with | some (_, p) => storeLine s x.region (x.line * 128) p | none => s
  let owner := x.found.find? (fun f => f.2 == 2 || f.2 == 3)
  let sharers := (x.found.filter (fun f => f.2 == 1)).map Prod.fst
  match owner with
  | some (n, _) => settleRequester (s.onHw fun h => putEntry h t x.line { owned := true, ptrs := [n] }) t k x
  | none =>
    if !sharers.isEmpty then
      settleRequester (s.onHw fun h => putEntry h t x.line (sharers.foldl DirEntry.addSharer {})) t k x
    else if x.hadOwner && !x.data && !waited then s
    else
      let s := if x.hadOwner && !x.data then poisonLine s x.line else s
      settleRequester (s.onHw fun h => dropEntry h t x.line) t k x

/-- A WB_DATA taken in TP settles a line whose probes are all in (R140). -/
def settleProbed (p : Packet) (s : State) : State :=
  let t := tileOf (fpaOffset (Packet.addr p))
  match (s.hw.dir t).txnOf (fpaOffset (Packet.addr p) / 128) with
  | some (k, x) => if x.state == 7 && probesIn x && x.data then rebuildLine s t k x false else s
  | none => s

/-- PROBE_RSP: what the agent holds, and whether it has a request open (R117, R140). A requester that reports OPEN with another TID than
the transaction's counts as one that reports OPEN clear (DESIGN CHOICE, log entry 24). -/
def takeProbeRsp (p : Packet) (s : State) : State :=
  match matched s.hw p with
  | some (t, k, x) =>
    if x.state == 7 && x.waits.contains p.src then
      let x' := { x with
        waits := x.waits.filter (fun n => n != p.src)
        found := if Packet.agentState p == 0 then x.found else x.found ++ [(p.src, Packet.agentState p)]
        reopened := x.reopened || (p.src == x.requester && Packet.openBit p && Packet.cf p 112 16 == x.tid) }
      let s := s.onHw fun h => h.modTxn t k fun _ => x'
      if probesIn x' then rebuildLine s t k x' false else s
    else s.onHw fun h => late h p
  | none => s.onHw fun h => late h p

/-- PROBE_DATA: a copy held, of which one is written to DRAM when the line is rebuilt (R140). -/
def takeProbeData (p : Packet) (s : State) : State :=
  match matched s.hw p with
  | some (t, k, x) =>
    if x.state == 7 && (x.waits.contains p.src || x.found.any (fun f => f.1 == p.src)) then
      let x' := { x with copied := x.copied ++ [(p.src, p)] }
      let s := s.onHw fun h => h.modTxn t k fun _ => x'
      if probesIn x' then rebuildLine s t k x' false else s
    else s.onHw fun h => late h p
  | none => s.onHw fun h => late h p

/-! ### Timeouts (R132, R133) -/

/-- A silent node is marked suspect, and COH_TIMEOUT raised for the slice (R133). -/
def suspect (h : Hw) (t n : Nat) : Hw :=
  raise { h with suspects := if h.suspects.contains n then h.suspects else h.suspects ++ [n] } (16 * t + 6) n

/-- A wait of the transaction in a slot reaches HOME_TIMEOUT (R133, R140). A dead owner's line is not poisoned where its write-back is
held (R108). The wait of R140 for a WB_DATA, for which R133 has no row, is counted in the row of TP and makes no node suspect (DESIGN
CHOICE, log entry 24). -/
def homeTimedOut (t k : Nat) (s : State) : State :=
  match KMap.find? (s.hw.dir t).txns k with
  | none => s
  | some x =>
    if x.state == 4 || x.state == 5 then
      let s := s.onHw fun h => suspect (dirCount h t 4) t x.owner
      let s := if x.data && isDead s.hw x.owner then s else poisonLine s x.line
      ownerGone (s.onHw fun h => dropEntry h t x.line) t k x
    else if x.state == 3 then
      let s := s.onHw fun h => forAll x.waits (fun n h => suspect h t n) (dirCount h t 5)
      sharersGone (s.onHw fun h => h.modTxn t k fun x => { x with waits := [] }) t k x
    else if x.state == 6 then endGrant (s.onHw fun h => suspect (dirCount h t 6) t x.requester) t k x 3
    else
      let s := s.onHw fun h => forAll x.waits (fun n h => suspect h t n) (dirCount h t 7)
      let x' := { x with waits := [] }
      rebuildLine (s.onHw fun h => h.modTxn t k fun _ => x') t k x' x.waits.isEmpty

/-! ### Lost entries (R377, R378) -/

/-- Begin to rebuild a line whose entry is lost, if it has a transient slot or finds one: every node is probed (R378). -/
def startRebuild (s : State) (line : Nat) : State :=
  let t := tileOf (line * 128)
  let d := s.hw.dir t
  let region := (regionAt s.hw (granuleOf (line * 128))).getD 0
  let home := speaksAs s.hw (s.hw.region region).service
  let (tid, h) := homeTid s.hw t
  let own : LineReq := { region := region, serial := s.hw.stamp, home := home, requester := home, tid := tid, loc := line * 128 }
  let l := (List.range 4096).filter fun n =>
    !isOwn s.hw n && !isDead s.hw n && !(candidates (routeEntry s.hw s.hw.router.epoch n)).isEmpty
  let x := { ((d.txnOf line).map Prod.snd).getD (txnFor own 7) with
    state := 7, waits := l, found := [], copied := [], snoop := 0x15, reopened := false }
  let r := { own with home := x.home, requester := x.requester, tid := x.tid, sclass := x.sclass }
  match takeSlot h t ((d.txnOf line).map Prod.fst) x with
  | none => s.onHw fun h => h.modDir t fun d => { d with broken := if d.broken.contains line then d.broken else d.broken ++ [line] }
  | some (k, h) =>
    let h := h.modDir t fun d => { d with broken := d.broken.filter (fun b => b != line) }
    let h := sendSnoops h t r k 0x15 l
    if l.isEmpty then rebuildLine { s with hw := h } t k x false else { s with hw := h }

/-- A directory or transient entry that cannot be corrected: UE 0x20, and the line is rebuilt (R377, R378). -/
def rebuildEntry (s : State) (line : Nat) : State :=
  let t := tileOf (line * 128)
  let d := s.hw.dir t
  if !KMap.has d.entries line && (d.txnOf line).isNone then s
  else startRebuild (s.onHw fun h => dropEntry (logOpen h (64 + t) 2 0x20 none none) t line) line

/-- Lines of a slice whose rebuild waited for a transient slot. -/
def retryRebuilds (t : Nat) (s : State) : State := (s.hw.dir t).broken.foldl startRebuild s

/-! ### The rows of RSP and DAT -/

/-- An answer message is taken: out of the inbox and dropped if malformed (R687); where a transaction awaits it, the standby learns of it
first (R137); then `f`. Rebuilds that waited for a slot go on. -/
def answerArrives (op : Nat) (p : Packet) (f : State → State) (s : State) : State :=
  if p.opcode != op || !isOwn s.hw p.dst then s
  else
    let s := s.onHw fun h => takeInbox h p
    if badAnswer p then s.onHw fun h => logMalformed h
    else
      let s := s.onHw fun h => match takenFor h p with
        | some (t, k) => emit h (mirrorHead h) (.message t k p)
        | none => h
      retryRebuilds (tileOf (fpaOffset (Packet.addr p))) (f s)

def execSnprspI (p : Packet) (s : State) : Result := commit (answerArrives 0x26 p (takeSnprspI p)) s
def execSnprspFwd (p : Packet) (s : State) : Result := commit (answerArrives 0x27 p (takeSnprspFwd p)) s
def execDataOnceAtHome (p : Packet) (s : State) : Result := commit (answerArrives 0x33 p (takeDataOnce p)) s
def execSnprspWbif (p : Packet) (s : State) : Result := commit (answerArrives 0x28 p (takeSnprspWbif p)) s
def execCmpAck (p : Packet) (s : State) : Result := commit (answerArrives 0x29 p (takeCmpAck p)) s
def execSnpData (p : Packet) (s : State) : Result := commit (answerArrives 0x35 p (takeSnpData p)) s
def execWbData (p : Packet) (s : State) : Result := commit (answerArrives 0x34 p (fun s => settleProbed p (takeWbData p s))) s
def execProbeRsp (p : Packet) (s : State) : Result := commit (answerArrives 0x2A p (takeProbeRsp p)) s
def execProbeData (p : Packet) (s : State) : Result := commit (answerArrives 0x37 p (takeProbeData p)) s

def execHomeTimeout (tile : Fin 32) (slot : Nat) (s : State) : Result :=
  commit (fun s => retryRebuilds tile.val (homeTimedOut tile.val slot s)) s

/-- A snoop that reaches the module as an agent is answered SNPRSP_I (R116); a malformed one is discarded and logged (R687). -/
def snoopedHere (p : Packet) (h : Hw) : Hw :=
  if p.opcode < 0x10 || 0x15 < p.opcode || !isOwn h p.dst then h
  else
    let h := takeInbox h p
    if badAnswer p then logMalformed h
    else send h (mkPacket 0x26 2 p.sclass p.src p.dst p.tid (cohControl (Packet.addr p) (Packet.peer p) (Packet.htid p) (Packet.cf p 96 8) false false 0))
def execSnoopAtModule (p : Packet) (s : State) : Result := .next (s.onHw (snoopedHere p))

/-! ### BULK (R429) -/

/-- A BRD or BWR that breaks a rule of its fields (R429, R687). -/
def badBulk (p : Packet) : Bool :=
  let n := Packet.cf p 64 13
  Packet.cf p 60 4 != 0 || Packet.cf p 77 7 != 0 || Packet.cf p 85 43 != 0 || n == 0 || 4096 < n || 4096 < Packet.addr p % 4096 + n
    || (if p.opcode == 0x40 then p.data.length != 16 || Packet.cf p 84 1 != 0 else p.data.length != 16 + alignUp 4 n)

/-- Refuse a BRD or BWR: STATUS DENIED, and no body (R429, R687). -/
def denyBulk (h : Hw) (t : Nat) (p : Packet) : Hw :=
  let a := bulkAnswer p stDenied false []
  send (filterEnd h t p 1 (some a)) a

/-- A checked BRD or BWR begins; `pend` says that its location waits for a copy (R164). -/
def bulkBegins (t : Nat) (p : Packet) (region kind slot loc : Nat) (pend : Bool) (s : State) : State :=
  let (n, h) := nextSerial (filterAdd (forgetEnded s.hw t p) t p)
  let len := Packet.cf p 64 13
  let rd := p.opcode == 0x40
  beginBulk { s with hw := h } n
    { packet := p, region := region, kind := kind, tile := t, op := if rd then 0 else 1, loc := loc, bytes := len,
      addr := fpaOffset (Packet.addr p), slot := slot, pend := pend, data := (Packet.body p).take (if rd then 0 else len),
      pz := if rd then [] else List.replicate len (Packet.cf p 84 1 == 1) }

/-- A BRD or BWR arrives at its home (R30, R429, R482, R687). It waits in the BULK input while a snapshot command holds its node
(R167), begins and waits there while its shard is copied (R164), and is never answered RETRY. -/
def bulkArrives (op : Nat) (p : Packet) (s : State) : State :=
  if p.opcode != op || !isOwn s.hw p.dst then s
  else
    let t := tileOf (fpaOffset (Packet.addr p))
    let s := s.onHw fun h => takeInbox h p
    if badBulk p then s.onHw fun h => denyBulk (logMalformed h) t p
    else
      match addressFault s.hw p with
      | some h => { s with hw := denyBulk h t p }
      | none =>
        if isDead s.hw p.src then s.onHw fun h => denyBulk h t p
        else if heldByTakeover s.hw p then s.onHw fun h => waitInbox h p
        else
          match replayed s.hw t p with
          | some h => { s with hw := h }
          | none =>
            if filtered p.opcode && !filterRoom s.hw t then s.onHw fun h => waitInbox h p
            else
              match locate s.hw p.src p.dst (fpaOffset (Packet.addr p)) (rightOf op) with
              | (.denied, h) => { s with hw := denyBulk (filterAdd (forgetEnded h t p) t p) t p }
              | (.held, h) => { s with hw := waitInbox h p }
              | (.copying region slot _, h) => bulkBegins t p region 3 slot 0 true { s with hw := askWake h }
              | (.ok region kind loc slot _, h) => bulkBegins t p region kind slot loc false { s with hw := h }
def execBrd (p : Packet) (s : State) : Result := commit (bulkArrives 0x40 p) s
def execBwr (p : Packet) (s : State) : Result := commit (bulkArrives 0x41 p) s

/-- The BULK accesses held at a tile go on where they can (R429). -/
def releaseBulk (t : Nat) (s : State) : State :=
  ((s.hw.bulk.filter (fun p => p.2.tile == t)).map Prod.fst).foldl (pumpBulk 40) s
def execBulkHeldReleased (tile : Fin 32) (s : State) : Result := commit (releaseBulk tile.val) s

/-- The entry that ended earliest is released (R482). -/
def filterRelease (t : Nat) (h : Hw) : Hw :=
  h.modDir t fun d => match d.filter.span (fun e => e.outcome == 0) with
    | (a, _ :: b) => { d with filter := a ++ b }
    | _ => d
def execFilterEntryRelease (tile : Fin 32) (s : State) : Result := .next (s.onHw (filterRelease tile.val))

/-! ### Commands -/

/-- COH.CONFIG sets HOME_TIMEOUT (R132). -/
def cohConfig (q : Req) (h : Hw) : Hw × Option Reply :=
  if q.p 0 < 10 || 1000000 < q.p 0 then (h, some (Reply.denied rRange)) else ({ h with homeTimeout := q.p 0 }, some (Reply.ok))
def execCohConfig (m : Fin 16) (s : State) : Result := .next (runHw s m.val 0x401 [.f 32] false cohConfig)

/-- COH.QUERY: the counts of each slice, 64 suspect node IDs oldest first, and whether more exist (R136). -/
def cohCounts (h : Hw) : List Byte :=
  items (((List.range 32).map (fun t => (List.range 10).map fun i => Item.f 32 (KMap.get (h.dir t).counts i))).flatten
    ++ (List.range 64).map (fun i => Item.f 12 (h.suspects.getD i 0)) ++ [.f 1 (b2n (64 < h.suspects.length))])
def execCohQuery (m : Fin 16) (s : State) : Result :=
  .next (runHw s m.val 0x402 [] false fun _ h => (h, some (Reply.ok (cohCounts h))))

/-- COH.LINE.QUERY: the record of R114. -/
def lineRecord (h : Hw) (t line : Nat) : List Byte :=
  let d := h.dir t
  let e : DirEntry := KMap.get d.entries line
  let (st, slot) := match d.txnOf line with
    | some (k, x) => (x.state, k)
    | none => (if KMap.has d.entries line then (if e.owned then 2 else 1) else 0, 0)
  recordBytes 16 [(3, st), (1, b2n e.vector), (3, if e.vector then 0 else e.ptrs.length), (1, 0), (8, slot),
    (4, Nat.min 15 (d.transientWays line)), (44, 0), (64, if e.vector then e.groups else pack (e.ptrs.map fun n => (12, n)))]
def cohLineQuery (q : Req) (h : Hw) : Hw × Option Reply :=
  let a := q.p 0
  let coherent := match regionAt h (granuleOf (fpaOffset a)) with | some g => (h.region g).kind == 0 && g != 0 | none => false
  if inPool h a && coherent then (h, some (Reply.ok (lineRecord h (tileOf (fpaOffset a)) (fpaOffset a / 128))))
  else (h, some (Reply.denied rRange))
def execCohLineQuery (m : Fin 16) (s : State) : Result := .next (runHw s m.val 0x403 [.f 60] false cohLineQuery)

/-- COH.SUSPECT.CLEAR clears a mark (R134). -/
def cohSuspectClear (q : Req) (h : Hw) : Hw × Option Reply :=
  ({ h with suspects := h.suspects.filter (fun n => n != q.p 0) }, some (Reply.ok))
def execCohSuspectClear (m : Fin 16) (s : State) : Result := .next (runHw s m.val 0x404 [.f 12] false cohSuspectClear)

end Sys2Proof.Machine
end

