-- ==== Sys2Proof/Machine/TileIo.lean ====
section
/-!
DEFINITION. How a tile reads and writes memory (R31, R37, R38, R116, R246): accesses to this module's pool, checked as the
context's AGENT and served at their home tile; requests to other nodes, their answers, RETRY, and the end-to-end timeout (R251).
-/
namespace Sys2Proof.Machine
open Sys2Proof

def Hw.tile (h : Hw) (t : Nat) : Tile := KMap.get h.tiles t
def Hw.setTile (h : Hw) (t : Nat) (x : Tile) : Hw := { h with tiles := KMap.set h.tiles t x }

/-! ### Checks (R38, R91) -/

/-- What the check of a chunk answers: refused, held for a snapshot command, or the region and slot of each granule. -/
inductive RangeCheck where
  | denied
  | held
  | ok (grants : List (Nat × Nat))
deriving DecidableEq, Repr

/-- Check the pool range `[a, a + n)` as a request of an agent (R91): every granule of it. -/
def permitRange (h : Hw) (agent dst a n : Nat) (need : Right) : RangeCheck × Hw :=
  (List.range ((a + Nat.max n 1 - 1) / 2097152 - a / 2097152 + 1)).foldl (fun acc i =>
    match acc with
    | (.ok gs, h) =>
      let b := Nat.max a ((a / 2097152 + i) * 2097152)
      match permit h agent dst b need with
      | (none, h) => (.denied, h)
      | (some (id, slot), h) =>
        if (h.region id).kind == 3 && heldForSwitch h id agent then (.held, h) else (.ok (gs ++ [(id, slot)]), h)
    | r => r) (.ok [], h)

/-- The region and slot that a chunk holds for a pool offset. -/
def grantAt (h : Hw) (grants : List (Nat × Nat)) (a : Nat) : Nat × Nat :=
  match regionAt h (granuleOf a) with
  | some g => (g, ((grants.find? (fun p => p.1 == g)).getD (g, 0)).2)
  | none => (0, 0)

/-! ### Accesses -/

/-- An access of a tile to this module's pool, within one 4 KiB unit: its serial number. `op` is 0 read, 1 write, 2 atomic; the home
refuses an atomic that breaks a rule of R131. With `notify` it is the notification of a context, of which only the loss is counted. -/
def localAccess (s : State) (op sclass a n : Nat) (grants : List (Nat × Nat)) (data : List Byte) (pz : List Bool)
    (notify : Option Nat := none) : Nat × State :=
  let (g, slot) := grantAt s.hw grants a
  let kind := (s.hw.region g).kind
  let (k, h) := nextSerial s.hw
  if op == 2 && atomicBad data a then (k, { s with hw := keepAnswer h none k { status := stDenied } })
  else (k, beginBulk { s with hw := h } k
    { packet := { sclass := sclass }, isLocal := true, region := g, kind := kind, tile := tileOf a, op := op, loc := a, addr := a,
      slot := slot, pend := kind == 3, bytes := n, data := data, pz := pz, quiet := notify.isSome, notify := notify })

/-- A TID that no outstanding request of the tile uses. -/
def freeTid (h : Hw) (t : Nat) : Nat × Hw :=
  let start := h.router.nextTid
  let k := ((List.range 2048).find? (fun i => !KMap.has h.outs ((start + i) % 2048 * 32 + t))).getD 0
  let tid := (start + k) % 2048 * 32 + t
  (tid, { h with router := { h.router with nextTid := (start + k + 1) % 2048 } })

/-- A request of tile `t` to another node: its serial number. -/
def remoteRequest (h : Hw) (t queue : Nat) (p : Packet) (notify : Option Nat) : Nat × Hw :=
  let (tid, h) := freeTid h t
  let (k, h) := nextSerial h
  let p := { p with tid := tid }
  (k, send { h with outs := KMap.ins h.outs tid { serial := k, packet := p, queue := queue, notify := notify } } p)

/-- A BRD or BWR packet. -/
def bulkRequest (write : Bool) (sclass src fpa n : Nat) (data : List Byte) (poison : Bool) : Packet :=
  mkPacket (if write then 0x41 else 0x40) 4 sclass (fpaNode fpa) src 0
    (leBytes 16 (pack [(60, fpa), (4, 0), (13, n), (3, 0), (4, 0), (1, b2n poison)]) ++ data)

/-- Whether an FPA names one of this module's own node IDs. -/
def ownFpa (h : Hw) (fpa : Nat) : Bool := fpaNode fpa == h.sys.moduleId || ownsPool h (fpaNode fpa)

/-- An access of a tile within one 4 KiB unit, on whatever node it lies (R37): its serial number. -/
def access (s : State) (t queue src : Nat) (op sclass fpa n : Nat) (grants : List (Nat × Nat)) (data : List Byte) (pz : List Bool)
    (fence : Bool := false) : Nat × State :=
  if inPool s.hw fpa then localAccess s op sclass (fpaOffset fpa) n grants data pz
  else if op == 2 then
    let (k, h) := remoteRequest s.hw t queue (mkPacket 0x07 0 sclass (fpaNode fpa) src 0 (cohControl fpa 0 0 0 false false 0 ++ data)) none
    (k, { s with hw := h })
  else
    let (k, h) := remoteRequest s.hw t queue { bulkRequest (op == 1) sclass src fpa n data (pz.any (fun z => z)) with fence := fence } none
    (k, { s with hw := h })

/-- The parts of an access, cut at 4 KiB units: offset and length. -/
def units (fpa n : Nat) : List (Nat × Nat) :=
  (List.range ((fpa + n + 4095) / 4096 - fpa / 4096)).map fun i =>
    let a := Nat.max fpa ((fpa / 4096 + i) * 4096)
    let b := Nat.min (fpa + n) ((fpa / 4096 + i + 1) * 4096)
    (a - fpa, b - a)

/-- Read `n` bytes at an FPA, unit by unit. -/
def readParts (s : State) (t queue src sclass fpa n : Nat) (grants : List (Nat × Nat)) : List Part × State :=
  (units fpa n).foldl (fun (acc : List Part × State) u =>
    let (k, s) := access acc.2 t queue src 0 sclass (fpa + u.1) u.2 grants [] []
    (acc.1 ++ [{ serial := k, off := u.1, len := u.2 }], s)) ([], s)

/-- Write bytes at an FPA, unit by unit, each byte with its poison flag. -/
def writeParts (s : State) (t queue src sclass fpa : Nat) (grants : List (Nat × Nat)) (data : List Byte) (pz : List Bool)
    (fence : Bool := false) : List Part × State :=
  (units fpa data.length).foldl (fun (acc : List Part × State) u =>
    let (k, s) := access acc.2 t queue src 1 sclass (fpa + u.1) u.2 grants ((data.drop u.1).take u.2) ((pz.drop u.1).take u.2) fence
    (acc.1 ++ [{ serial := k, off := u.1, len := u.2 }], s)) ([], s)

/-- All parts are answered. -/
def partsDone (h : Hw) (l : List Part) : Bool := l.all (fun p => KMap.has h.answers p.serial)
/-- The first code other than OK among the answers of the parts. -/
def partsCode (h : Hw) (l : List Part) : Nat :=
  ((l.map (fun p => (KMap.get h.answers p.serial).status)).find? (fun c => c != 0)).getD 0
/-- The bytes of a read, and their poison flags. -/
def partsData (h : Hw) (l : List Part) : List Byte × List Bool :=
  ((l.map (fun p => ((KMap.get h.answers p.serial).data).take p.len)).flatten,
   (l.map (fun p => ((KMap.get h.answers p.serial).pz).take p.len)).flatten)
/-- The answers of the parts are taken. -/
def dropParts (h : Hw) (l : List Part) : Hw :=
  { h with answers := h.answers.filter (fun a => !l.any (fun p => p.serial == a.1)) }
/-- Requests whose user has ended are forgotten; their answers are late and are discarded. -/
def abandonParts (h : Hw) (l : List Part) : Hw :=
  let h := dropParts h l
  { h with outs := h.outs.filter (fun o => !l.any (fun p => p.serial == o.2.serial))
           bulk := h.bulk.map (fun b => if l.any (fun p => p.serial == b.1) then (b.1, { b.2 with quiet := true }) else b) }

/-! ### Answers from other nodes (R251, R429, R687) -/

/-- The request of a tile that an answer names by its TID. -/
def outFor (h : Hw) (p : Packet) (ops : List Nat) : Option Out :=
  match KMap.find? h.outs p.tid with
  | some o => if o.packet.dst == p.src && ops.contains o.packet.opcode then some o else none
  | none => none

/-- A request of a tile has its answer; a fault notification only counts its loss (R72). -/
def takeAnswer (h : Hw) (tid : Nat) (o : Out) (a : Answer) : Hw :=
  let h := { h with outs := KMap.erase h.outs tid }
  match o.notify with
  | some c => if a.status == 0 then h else ctxCount h c 5
  | none => { h with answers := KMap.ins h.answers o.serial a }

/-- A message for a tile: out of the inbox, then `f` on the request that it answers; late ones are discarded. -/
def tileMessage (op : Nat) (bad : Bool) (reqs : List Nat) (p : Packet) (f : Out → Hw → Hw) (h : Hw) : Hw :=
  if p.opcode != op || !isOwn h p.dst then h
  else
    let h := takeInbox h p
    if bad then logMalformed h
    else match outFor h p reqs with
      | some o => f o h
      | none => h

/-- Reserved fields of a BULK answer (R429). -/
def badBulkAnswer (p : Packet) : Bool := p.data.length < 16 || Packet.cf p 60 4 != 0 || Packet.cf p 77 3 != 0 || Packet.cf p 85 43 != 0

/-- BRD_DATA. -/
def takeBrdData (p : Packet) (h : Hw) : Hw :=
  let st := Packet.cf p 80 4
  let n := Packet.cf p 64 13
  tileMessage 0x42 (badBulkAnswer p || p.data.length != (if st == 0 then 16 + alignUp 4 n else 16)) [0x40] p (fun o h =>
    takeAnswer h p.tid o { status := st, data := (Packet.body p).take n, pz := List.replicate n (Packet.cf p 84 1 == 1) }) h
def execBrdData (p : Packet) (s : State) : Result := commit (fun s => s.onHw (takeBrdData p)) s

/-- BDONE. -/
def takeBdone (p : Packet) (h : Hw) : Hw :=
  tileMessage 0x43 (badBulkAnswer p || p.data.length != 16) [0x41] p (fun o h =>
    takeAnswer h p.tid o { status := Packet.cf p 80 4 }) h
def execBdone (p : Packet) (s : State) : Result := commit (fun s => s.onHw (takeBdone p)) s

/-- ATOMIC_RET (R130, R131). -/
def takeAtomicRet (p : Packet) (h : Hw) : Hw :=
  tileMessage 0x36 (p.data.length != 32 || Packet.cf p 60 4 != 0) [0x07] p (fun o h =>
    takeAnswer h p.tid o { data := Packet.body p, pz := List.replicate 16 (Packet.poisonBit p) }) h
def execAtomicRet (p : Packet) (s : State) : Result := commit (fun s => s.onHw (takeAtomicRet p)) s

/-- DENY: the request is refused (R91). -/
def takeDeny (p : Packet) (h : Hw) : Hw :=
  tileMessage 0x25 (p.data.length != 16) [0x07] p (fun o h => takeAnswer h p.tid o { status := stDenied }) h
def execDeny (p : Packet) (s : State) : Result := commit (fun s => s.onHw (takeDeny p)) s

/-- RETRY: the request is to be reissued (R120). -/
def takeRetry (p : Packet) (h : Hw) : Hw :=
  tileMessage 0x21 (p.data.length != 16) [0x07] p (fun o h => { h with outs := KMap.ins h.outs p.tid { o with retry := true } }) h
def execRetry (p : Packet) (s : State) : Result := commit (fun s => s.onHw (takeRetry p)) s

/-- A request answered RETRY is sent again with the same TID (R120). -/
def reissue (tid : Nat) (h : Hw) : Hw :=
  match KMap.find? h.outs tid with
  | some o => if o.retry then send { h with outs := KMap.ins h.outs tid { o with retry := false } } o.packet else h
  | none => h
def execTileRetryReissue (tid : Nat) (s : State) : Result := commit (fun s => s.onHw (reissue tid)) s

/-- Count one in a queue's counts (R241). -/
def queueCount (h : Hw) (q i : Nat) : Hw :=
  { h with queues := KMap.upd h.queues q fun x => { x with counts := KMap.mod x.counts i (satInc 32) } }

/-- E2E_TIMEOUT without an answer: three reissues, then TIMEOUT (R251). -/
def e2eTimeout (tid : Nat) (h : Hw) : Hw :=
  match KMap.find? h.outs tid with
  | none => h
  | some o =>
    if o.tries < 3 then
      send (queueCount { h with outs := KMap.ins h.outs tid { o with tries := o.tries + 1, retry := false } } o.queue 14) o.packet
    else takeAnswer h tid o { status := stTimeout }
def execTileE2eTimeout (tid : Nat) (s : State) : Result := commit (fun s => s.onHw (e2eTimeout tid)) s

end Sys2Proof.Machine
end

