-- ==== Sys2Proof/Machine/Translate.lean ====
section
/-!
DEFINITION. Translation (chapter 02): page-table entries and walks (R44–R52), the pre-translation buffer (R55–R57), faults and
their records (R66–R72), and invalidations (R58–R65).
-/
namespace Sys2Proof.Machine
open Sys2Proof

/-! ### Entries and walks -/

/-- Causes of R66. -/
def cNotPresent : Nat := 1
def cRights : Nat := 2
def cFormat : Nat := 3
def cNoncanon : Nat := 4
def cTableDenied : Nat := 5

/-- FRAME of an entry as an FPA (R45). -/
def frameOf (e : Nat) : Nat := fld e 12 48 * 4096
def leafBit (e : Nat) : Bool := tbit e 4
def c64Bit (e : Nat) : Bool := tbit e 5
/-- Page size of a leaf (R44). -/
def leafSize (level e : Nat) : Nat := if level == 3 then 2 ^ 30 else if level == 2 then 2 ^ 21 else if c64Bit e then 65536 else 4096

/-- A valid entry at a level, of a context of a service, that breaks the format (R46, R487). -/
def badEntry (h : Hw) (service level e : Nat) : Bool :=
  fld e 6 6 != 0 || fld e 60 4 != 0 || (4 ≤ level && leafBit e) || (level == 1 && !leafBit e) || (level != 1 && c64Bit e)
    || (if leafBit e then frameOf e % leafSize level e != 0 else !inPoolFor h service (frameOf e))

/-- What a read of a table entry gives. -/
inductive TableRead where
  | value (v : Nat)
  | denied
  | poison
  /-- an owner holds the line: the read waits for it -/
  | wait
deriving DecidableEq, Repr

/-- A walk's state: the module, its reads that had to wait (FPA and serial number), and the service class of its descriptor (R246). -/
structure Walker where
  s : State
  reads : List (Nat × Nat)
  sclass : Nat := 0

/-- Keep a valid entry of levels 2–5 in the walk cache (R52, log entry 10). -/
def cacheEntry (h : Hw) (t ctx fpa v : Nat) : Hw :=
  let x := h.tile t
  h.setTile t { x with walks := ({ ctx := ctx, fpa := fpa, value := v } :: x.walks.filter (fun w => !(w.ctx == ctx && w.fpa == fpa))).take 64 }

/-- Read a table entry as the context's agent, with one coherent read (R50). -/
def readEntry (t ctx level fpa : Nat) (w : Walker) : TableRead × Walker :=
  let agent := (w.s.hw.ctx ctx).agent
  let hit := if level == 1 then none else (w.s.hw.tile t).walks.find? (fun e => e.ctx == ctx && e.fpa == fpa)
  let keep := fun (v : Nat) (w : Walker) =>
    if 2 ≤ level && tbit v 0 && !badEntry w.s.hw (w.s.hw.ctx ctx).service level v then { w with s := w.s.onHw fun h => cacheEntry h t ctx fpa v } else w
  match hit with
  | some e => (.value e.value, keep e.value w)
  | none =>
    match w.reads.find? (fun r => r.1 == fpa) with
    | some (_, k) =>
      match KMap.find? w.s.hw.answers k with
      | none => (.wait, w)
      | some a =>
        if a.status != 0 then (.denied, w)
        else if a.pz.any (fun z => z) then (.poison, w) else (.value (leNat a.data), keep (leNat a.data) w)
    | none =>
      match locate w.s.hw agent (fpaNode fpa) (fpaOffset fpa) .read with
      | (.denied, h) => (.denied, { w with s := { w.s with hw := h } })
      | (.ok region kind loc slot _, h) =>
        let line := loc / 128
        let d := h.dir (tileOf loc)
        let busy := kind == 0 && ((d.txnOf line).isSome || d.broken.contains line
          || (match KMap.find? d.entries line with | some e => e.owned | none => false))
        if busy || !mcsServes h loc then
          let (k, s) := localAccess { w.s with hw := h } 0 w.sclass (fpaOffset fpa) 8 [(region, slot)] [] []
          match KMap.find? s.hw.answers k with
          | some a =>
            let w := { w with s := s, reads := w.reads ++ [(fpa, k)] }
            if a.pz.any (fun z => z) then (.poison, w) else (.value (leNat a.data), keep (leNat a.data) w)
          | none => (.wait, { w with s := s, reads := w.reads ++ [(fpa, k)] })
        else
          let (bs, pz, s) := load { w.s with hw := h } w.sclass loc 8
          if pz then (.poison, { w with s := s }) else (.value (leNat bs), keep (leNat bs) { w with s := s })
      | (_, h) => (.wait, { w with s := { w.s with hw := h } })

/-- What a walk answers. -/
inductive WalkResult where
  | ok (e : Translation)
  | fault (cause level : Nat)
  | poison
  | wait
deriving DecidableEq, Repr

/-- Walk from the table at `fpa`, at a level, with the rights so far (R44–R49). Two points are the model's (DESIGN CHOICE, log entry 10):
R46 also holds for a C64 entry that is not its group's leader, so its own reserved bits or its frame can give FORMAT (R49 is silent);
and a TABLE_DENIED carries the level of the entry whose read was refused, which is not an entry read (R70). -/
def walkFrom (t ctx va : Nat) : Nat → Nat → Bool × Bool × Bool → Walker → WalkResult × Walker
  | 0, _, _, w => (.fault cFormat 0, w)
  | l + 1, fpa, (r, wr, at'), w =>
    let level := l + 1
    let i := va / 2 ^ (3 + 9 * level) % 512
    match readEntry t ctx level (fpa + 8 * i) w with
    | (.denied, w) => (.fault cTableDenied level, w)
    | (.poison, w) => (.poison, w)
    | (.wait, w) => (.wait, w)
    | (.value e, w) =>
      let rights := (r && tbit e 1, wr && tbit e 2, at' && tbit e 3)
      let page := fun (size frame : Nat) (q : Bool × Bool × Bool) =>
        WalkResult.ok { ctx := ctx, va := va / size * size, size := size, fpa := frame, r := q.1, w := q.2.1, atomic := q.2.2, level := level }
      if !tbit e 0 then (.fault cNotPresent level, w)
      else if badEntry w.s.hw (w.s.hw.ctx ctx).service level e then (.fault cFormat level, w)
      else if !leafBit e then walkFrom t ctx va l (frameOf e) rights w
      else if !c64Bit e then (page (leafSize level e) (frameOf e) rights, w)
      else
        match readEntry t ctx level (fpa + 8 * (i / 16 * 16)) w with
        | (.denied, w) => (.fault cTableDenied level, w)
        | (.poison, w) => (.poison, w)
        | (.wait, w) => (.wait, w)
        | (.value g, w) =>
          if tbit g 0 && !badEntry w.s.hw (w.s.hw.ctx ctx).service level g && c64Bit g then
            (page 65536 (frameOf g) (r && tbit g 1, wr && tbit g 2, at' && tbit g 3), w)
          else (.fault cFormat level, w)

/-- The root table of a context. -/
def rootOf (c : Context) : Option Nat := if c.mirrored then c.pages.head? else some c.root

/-- A walk for a VA (R36, R44–R50). A MIRRORED context that has had no XLT.SYNC has no root table: NOT_PRESENT at level 5 (DESIGN CHOICE,
log entry 10; R44 is silent). -/
def walk (t ctx va : Nat) (w : Walker) : WalkResult × Walker :=
  if 2 ^ 57 ≤ va then (.fault cNoncanon 0, w)
  else
    match rootOf (w.s.hw.ctx ctx) with
    | none => (.fault cNotPresent 5, w)
    | some root => walkFrom t ctx va 5 root (true, true, true) w

/-- Whether a translation gives an access type. -/
def PreEntry.allows (e : PreEntry) (a : Nat) : Bool := if a == 0 then e.r else if a == 1 then e.w else e.atomic

/-- The tile that reduces segment `s` of group `g` (R317). -/
def segTile (g s : Nat) : Nat := (g + s) % 32

/-- Whether a started chunk of tile `t` holds an entry (R57). -/
def entryHeld (h : Hw) (t : Nat) (e : PreEntry) : Bool :=
  let holds := fun (c : Nat) (r : Run) => match r.chunk with
    | some k => c == e.ctx && k.pages.contains (e.va, e.size)
    | none => false
  h.queues.any (fun q => q.2.tile == t && q.2.execs.any fun x => holds q.2.ctx x.2.run)
    || h.colls.any (fun g => match g.2.inst with
        | some i => i.segs.any (fun x => segTile g.1 x.1 == t && holds g.2.ctx x.2.run) || (g.1 % 32 == t && holds g.2.ctx i.record)
        | none => false)

/-- Put an entry into a tile's pre-translation buffer, as the most recently used (R55); of more than 4,096 the least recently used that no
started chunk holds goes (R57). -/
def keepPre (h : Hw) (t : Nat) (e : PreEntry) : Hw :=
  let x := h.tile t
  let l := e :: x.pre.filter (fun p => !(p.ctx == e.ctx && p.va == e.va && p.size == e.size))
  let l := if l.length ≤ 4096 then l else
    match l.reverse.span (entryHeld h t) with
    | (a, _ :: b) => (a ++ b).reverse
    | (_, []) => l
  h.setTile t { x with pre := l }

/-- Take the translation of a VA for an access (R57): a valid entry of the tile, else a fresh walk, whose result is kept. A released
waiter walks afresh in any case (`anew`, R75, R78). -/
def translate (t ctx va acc : Nat) (anew : Bool) (w : Walker) : WalkResult × Walker :=
  match if anew then none else (w.s.hw.tile t).pre.find? (fun e =>
      e.ctx == ctx && !e.stale && !e.absent && e.va ≤ va && va < e.va + e.size && e.allows acc) with
  | some e => (.ok e, { w with s := w.s.onHw fun h => keepPre h t e })
  | none =>
    match walk t ctx va w with
    | (.ok e, w) => (if e.allows acc then .ok e else .fault cRights e.level, { w with s := w.s.onHw fun h => keepPre h t e })
    | r => r

/-- FPA of a VA within a translation's page. -/
def PreEntry.at (e : PreEntry) (va : Nat) : Nat := e.fpa + (va - e.va)

/-! ### Faults (R66–R72) -/

/-- Write bytes at an FPA of this module's pool as the module's own write (R72), through the directory where the region is COHERENT. -/
def ownWrite (s : State) (fpa : Nat) (bs : List Byte) : State :=
  let a := fpaOffset fpa
  let g := (regionAt s.hw (granuleOf a)).getD 0
  let (k, h) := nextSerial s.hw
  beginBulk { s with hw := h } k
    { isLocal := true, region := g, kind := if (h.region g).kind == 0 && g != 0 then 0 else 1, tile := tileOf a, op := 1, loc := a, addr := a,
      bytes := bs.length, data := bs, pz := [], quiet := true }

/-- The notification of a fault (R72): an access of the context's agent, which a snapshot command holds as any other (R167); a loss is
counted. -/
def notify (s : State) (t c v : Nat) : State :=
  let x := s.hw.ctx c
  if x.notify == 0 then s
  else if inPool s.hw x.notify then
    match permit s.hw x.agent (fpaNode x.notify) (fpaOffset x.notify) .write with
    | (none, h) => { s with hw := ctxCount h c 5 }
    | (some g, h) =>
      if (h.region g.1).kind == 3 && heldForSwitch h g.1 x.agent then { s with hw := { h with parked := h.parked ++ [.notice t c v] } }
      else (localAccess { s with hw := h } 1 0 (fpaOffset x.notify) 8 [g] (leBytes 8 v) [] (some c)).2
  else if ownFpa s.hw x.notify then s.onHw fun h => ctxCount h c 5
  else s.onHw fun h => (remoteRequest h t 4096 (bulkRequest true 0 (speaksAs h x.service) x.notify 8 (leBytes 8 v) false) (some c)).2

/-- The fault home of a VA (R68). -/
def faultHome (va : Nat) : Nat := va / 4096 % 32
/-- FAULT_ID of a slot (R70). -/
def faultId (t slot seq : Nat) : Nat := pack [(6, slot), (5, t), (5, 0), (16, seq)]

/-- The 64-byte fault record (R70). -/
def faultRecord (h : Hw) (c id : Nat) (w : Waiter) (f : FaultInfo) (n log2 : Nat) : List Byte :=
  recordBytes 64 [(32, id), (16, c), (2, f.access), (2, 0), (4, f.cause), (3, f.level), (3, f.operand), (1, 0),
    (1, 1 - n / 2 ^ log2 % 2), (64, f.va), (16, 1), (16, w.queue), (32, w.index), (32, f.cursor.getD 0 0), (32, f.cursor.getD 1 0),
    (32, f.cursor.getD 2 0), (32, f.cursor.getD 3 0), (32, f.cursor.getD 4 0), (32, 0), (64, f.committed), (64, h.time.now)]

/-- Write the record of a fault to the context's ring, raise XLT_FAULT and notify (R70, R72). -/
def recordFault (s : State) (t c id : Nat) (w : Waiter) (f : FaultInfo) : State :=
  let x := s.hw.ctx c
  let n := x.records
  let k := n % 2 ^ x.ringLog2
  let prev := KMap.find? x.ringIds k
  let overwrites := match prev with
    | some j =>
      let sl : FaultSlot := KMap.get (s.hw.tile (fld j 6 5)).faults (fld j 0 6)
      sl.isOpen && sl.seq == j / 65536 && sl.ctx == c
    | none => false
  let rec' := faultRecord s.hw c id w f n x.ringLog2
  let s := ownWrite s (x.ring + 64 * k + 8) (rec'.drop 8)
  let s := ownWrite s (x.ring + 64 * k) (rec'.take 8)
  let s := s.onHw fun h =>
    let y := h.ctx c
    let cs := KMap.mod y.counts 0 (satInc 32)
    let h := h.setCtx c { y with records := n + 1, ringIds := KMap.ins y.ringIds k id, counts := if overwrites then KMap.mod cs 4 (satInc 32) else cs }
    raise h (16 * t + 2) c
  notify s t c (c * 2 ^ 32 + id)

/-- Register a fault at its home (R68, R69): a waiter of an open record, or a new record; none when the table is full, which is
raised once per full period. -/
def registerFault (s : State) (c : Nat) (w : Waiter) (f : FaultInfo) : Option (Nat × Nat) × State :=
  let t := faultHome f.va
  let x := s.hw.tile t
  match List.find? (fun p : Nat × FaultSlot => p.2.isOpen && p.2.ctx == c && p.2.page == f.va / 4096 && p.2.access == f.access) x.faults with
  | some (k, sl) =>
    (some (t, k), s.onHw fun h => h.setTile t { x with faults := KMap.ins x.faults k { sl with waiters := sl.waiters ++ [w] } })
  | none =>
    match (List.range 64).find? (fun k => !(KMap.get x.faults k).isOpen) with
    | none => (none, if x.full then s else s.onHw fun h => raise (h.setTile t { x with full := true }) (16 * t + 3) 0)
    | some k =>
      let sl : FaultSlot := KMap.get x.faults k
      let seq := (sl.seq + 1) % 65536
      let s := s.onHw fun h => h.setTile t { x with
        faults := KMap.ins x.faults k { isOpen := true, seq := seq, ctx := c, page := f.va / 4096, access := f.access, waiters := [w] } }
      (some (t, k), recordFault s t c (faultId t k seq) w f)

/-- A slot of a fault table is free; the table is no longer full (R69). -/
def freeFault (h : Hw) (t k : Nat) : Hw :=
  let x := h.tile t
  h.setTile t { x with faults := KMap.upd x.faults k (fun f => { f with isOpen := false, waiters := [] }), full := false }

/-- A waiter leaves its fault; the record of a fault without waiters is released (R42, R239). -/
def leaveFault (h : Hw) (t k : Nat) (w : Waiter) : Hw :=
  let x := h.tile t
  let sl : FaultSlot := KMap.get x.faults k
  let l := sl.waiters.filter (fun v => v != w)
  if l.isEmpty then freeFault h t k else h.setTile t { x with faults := KMap.ins x.faults k { sl with waiters := l } }

/-! ### Invalidations (R58–R65) -/

/-- Whether an invalidation covers part of a page of a context. -/
def Invalidation.covers (i : Invalidation) (c va size : Nat) : Bool :=
  i.all || (i.ctx == c && i.ranges.any (fun r => r.1 < va + size && va < r.1 + r.2))

/-- What an invalidation leaves of a tile's translations. -/
def Invalidation.onTile (i : Invalidation) (x : Tile) : Tile :=
  { x with
    pre := x.pre.map (fun e => if i.covers e.ctx e.va e.size then { e with stale := true } else e)
    walks := x.walks.filter (fun e => !(i.all || e.ctx == i.ctx)) }
/-- A walk under way in a context that it names is begun again, so that it fills nothing that it read before (R61). -/
def Invalidation.onRun (i : Invalidation) (c : Nat) (r : Run) : Run := if i.all || c == i.ctx then { r with walkReads := [] } else r
/-- The same for every descriptor of a queue, and for the writes of a group. -/
def Invalidation.onQueue (i : Invalidation) (q : Queue) : Queue :=
  { q with execs := q.execs.map fun (e : Nat × Exec) => (e.1, { e.2 with run := i.onRun q.ctx e.2.run }) }
def Invalidation.onGroup (i : Invalidation) (g : Group) : Group :=
  { g with inst := g.inst.map fun (n : Instance) =>
      { n with segs := n.segs.map (fun (x : Nat × Segment) => (x.1, { x.2 with run := i.onRun g.ctx x.2.run })), record := i.onRun g.ctx n.record } }

/-- All 32 tiles accept an invalidation (R61): matching entries are stale, the context's walk-cache entries go. -/
def acceptInvalidation (h : Hw) (i : Invalidation) : Hw :=
  let (k, h) := nextSerial h
  let h := { h with
    tiles := h.tiles.map (fun (p : Nat × Tile) => (p.1, i.onTile p.2))
    queues := h.queues.map (fun (q : Nat × Queue) => (q.1, i.onQueue q.2))
    colls := h.colls.map (fun (g : Nat × Group) => (g.1, i.onGroup g.2)) }
  let h := if i.all then h.contexts.foldl (fun h p => if p.2.bound then ctxCount h p.1 1 else h) h
    else if (h.ctx i.ctx).bound then ctxCount h i.ctx 1 else h
  { h with invalidations := h.invalidations ++ [{ i with serial := k }] }

/-- The active module accepts an invalidation, and the standby is told of it (R54, R65). -/
def announceInvalidation (h : Hw) (i : Invalidation) : Hw :=
  let h := acceptInvalidation h i
  let service := if i.all then mirrorHead h else (h.ctx i.ctx).service
  match h.invalidations.getLast? with
  | some j => emit h (if mirrorsService h service then service else mirrorHead h) (.invalidated j)
  | none => h

/-- The 32-byte request of R58, checked under R60 for a requester: the invalidation, or none. A CONTEXT or ALL request whose VA_BASE or
LENGTH is not zero counts among the DENIED ones (DESIGN CHOICE, log entry 10: R58 has both zero, and R60 does not name the case). -/
def parseInvalidation (h : Hw) (who : Option Nat) (v : Nat) : Option Invalidation :=
  let c := fld v 0 16
  let scope := fld v 16 2
  let base := fld v 64 64
  let len := fld v 128 64
  let mgmt := match who with | none => true | some n => h.sys.mgmt.contains n
  let agent := match who with | none => true | some n => (h.ctx c).agent == n
  if fld v 18 14 != 0 || fld v 192 64 != 0 || scope == 3 then none
  else if scope == 0 && (base % 4096 != 0 || 2 ^ 57 ≤ base || len == 0 || len % 4096 != 0) then none
  else if scope != 0 && (base != 0 || len != 0) then none
  else if scope == 2 && !mgmt then none
  else if scope != 2 && (h.ctx c).bound && !agent && !mgmt then none
  else some { ctx := c, all := scope == 2, ranges := if scope == 0 then [(base, len)] else [(0, 2 ^ 57)], tag := fld v 32 32 }

/-- The chunks in progress of a queue's descriptors, and of a group's open instance (R57). -/
def Queue.chunks (q : Queue) : List Chunk := q.execs.filterMap fun e => e.2.run.chunk
def Group.chunks (g : Group) : List Chunk :=
  match g.inst with
  | some i => (i.segs.filterMap fun x => x.2.run.chunk) ++ i.record.chunk.toList
  | none => []

/-- A chunk that began before the invalidation under a matching translation has not ended (R62). -/
def invalidationWaits (h : Hw) (i : Invalidation) : Bool :=
  let hit := fun (c : Nat) (k : Chunk) => k.serial < i.serial && k.pages.any (fun p => i.covers c p.1 p.2)
  h.queues.any (fun q => q.2.chunks.any (hit q.2.ctx)) || h.colls.any (fun g => g.2.chunks.any (hit g.2.ctx))
    || h.pair.outgoing.any (fun r => match r.1.item with
        | .invalidated j => j.serial == i.serial
        | .context c _ => i.mailbox.isSome && c == i.ctx
        | _ => false)

/-- XLT_INV_ACK (R59). -/
def ackPacket (p : Packet) (status : Nat) : Packet :=
  let v := leNat p.data
  mkPacket 0x65 2 p.sclass p.src p.dst p.tid (leBytes 8 (pack [(32, fld v 32 32), (16, fld v 0 16), (4, status)]))

/-- XLT_INV (R58–R61): refused at once, or accepted; one of a dead agent is refused (R105). -/
def takeInvalidation (p : Packet) (h : Hw) : Hw :=
  if p.opcode != 0x64 || !isOwn h p.dst then h
  else
    let h := takeInbox h p
    match if p.data.length == 32 && !isDead h p.src then parseInvalidation h (some p.src) (leNat p.data) else none with
    | none => send h (ackPacket p 1)
    | some i => announceInvalidation h { i with packet := p }
def execXltInv (p : Packet) (s : State) : Result := commit (fun s => s.onHw (takeInvalidation p)) s

/-- XLT_INV_ACK leaves once the invalidation has drained (R62, R65). -/
def sendInvalidationAck (src tid : Nat) (h : Hw) : Hw :=
  match h.invalidations.find? (fun i => i.mailbox.isNone && i.packet.src == src && i.packet.tid == tid && !invalidationWaits h i) with
  | some i => send { h with invalidations := h.invalidations.filter (fun j => j.serial != i.serial) } (ackPacket i.packet 0)
  | none => h
def execXltInvAckSend (src tid : Nat) (s : State) : Result := commit (fun s => s.onHw (sendInvalidationAck src tid)) s

/-- A mailbox command whose invalidation has drained answers OK (R54, R62). -/
def settleInvalidation (m : Nat) (h : Hw) : Hw :=
  match h.invalidations.find? (fun i => i.mailbox == some m) with
  | some i =>
    if invalidationWaits h i then h
    else
      let h := { h with invalidations := h.invalidations.filter (fun j => j.serial != i.serial) }
      if i.denied then h else answer h m (Reply.ok)
  | none => h

/-- XLT.INVALIDATE (R58, R62): its first run accepts the invalidation, and it answers once that has drained. -/
def xltInvalidate (q : Req) (h : Hw) : Hw × Option Reply :=
  let v := q.p 0
  if fld v 18 14 != 0 || fld v 192 64 != 0 then (h, some (Reply.denied rReserved))
  else
    match parseInvalidation h q.ringer v with
    | none => (h, some (Reply.denied rRange))
    | some i => (setWork (announceInvalidation h { i with mailbox := some q.m }) q.m 0x206 [] [], none)
def execXltInvalidate (m : Fin 16) (s : State) : Result :=
  commit (fun s => (runHw s m.val 0x206 [.blk 32] false xltInvalidate).onHw (settleInvalidation m.val)) s

end Sys2Proof.Machine
end

