-- ==== Sys2Proof/Machine/Runs.lean ====
section
/-!
DEFINITION. How bytes move in chunks (R57, R67, R258–R261): a run takes the translations and checks of its next chunk at its
start, reads, and commits; descriptors and collective results both move this way. Also a queue's scratch (R238, R256).
-/
namespace Sys2Proof.Machine
open Sys2Proof

/-! ### Scratch -/

/-- Bytes of scratch, each with the poison flag of its 64-bit word (R366). -/
def Queue.scratchBytes (q : Queue) (a n : Nat) : List Byte × List Bool :=
  ((List.range n).map (fun i => KMap.getD q.mem (a + i) 0#8), (List.range n).map (fun i => KMap.getD q.memPz ((a + i) / 8) false))
/-- Write scratch: a word that is written whole is poisoned as its data is, and one that is written in part also stays poisoned if it
was, as in pool memory (R355, R366, R367). -/
def Queue.scratchWrite (q : Queue) (a : Nat) (bs : List Byte) (pz : List Bool) : Queue :=
  { q with mem := bs.zipIdx.foldl (fun m p => KMap.setD m (a + p.2) p.1 0#8) q.mem
           memPz := (wordPieces a bs).foldl (fun m p =>
             let bad := (List.range p.2.2.length).any fun i => pz.getD (8 * p.1 + p.2.1 + i - a) false
             KMap.setD m p.1 (bad || (p.2.2.length != 8 && KMap.getD q.memPz p.1 false)) false) q.memPz }

/-! ### What a run belongs to -/

/-- Who moves the bytes. -/
structure RunEnv where
  tile : Nat
  ctx : Nat
  /-- the queue, whose scratch and whose count of retries are used; 4,096 and above: none -/
  queue : Nat := 4096
  /-- node ID as which it speaks, and the context's AGENT -/
  src : Nat := 0
  agent : Nat := 0
  sclass : Nat := 0
  waiter : Waiter := {}
  /-- where a progress word goes after each chunk (R261) -/
  progress : Option Nat := none
  /-- a fault ends the run and raises nothing (R42) -/
  dropFaults : Bool := false
  /-- its translations come from walks of its own (R75) -/
  anew : Option Nat := none

/-- What taking the place of an operand gives. -/
inductive Taken where
  /-- FPA, bytes to the end of its page, and the page -/
  | ok (fpa room : Nat) (page : List (Nat × Nat))
  | fault (f : FaultInfo)
  | poison
  | wait

/-- Take the translation of an operand for an access (R57); a scratch operand has none. -/
def takeLoc (env : RunEnv) (acc : Nat) (l : Option Loc) (w : Walker) : Taken × Walker :=
  match l with
  | none => (.ok 0 (2 ^ 64) [], w)
  | some l =>
    if l.scratch then (.ok l.va (2 ^ 64) [], w)
    else
      match translate env.tile env.ctx l.va acc (env.anew == some (l.va / 4096)) w with
      | (.ok e, w) => (.ok (e.at l.va) (e.va + e.size - l.va) [(e.va, e.size)], w)
      | (.fault c lv, w) => (.fault { cause := c, level := lv, operand := l.operand, va := l.va, access := acc }, w)
      | (.poison, w) => (.poison, w)
      | (.wait, w) => (.wait, w)

/-- Side bytes that lie one behind the other are written as one (R259). -/
def joinSides (l : List Side) : List Side :=
  l.foldl (fun acc y =>
    match acc.getLast? with
    | some x =>
      if x.loc.scratch == y.loc.scratch && x.pz == y.pz && x.loc.va + x.data.length == y.loc.va then
        acc.dropLast ++ [{ x with data := x.data ++ y.data }]
      else acc ++ [y]
    | none => [y]) []
/-- Take the translations of the side bytes of a chunk, cut at the page ends (R259). -/
def takeSides (env : RunEnv) : Nat → List Side → List (Side × Nat) → List (Nat × Nat) → Walker → Taken × List (Side × Nat) × Walker
  | 0, _, got, pages, w => (.ok 0 0 pages, got, w)
  | _ + 1, [], got, pages, w => (.ok 0 0 pages, got, w)
  | n + 1, x :: r, got, pages, w =>
    match takeLoc env 1 (some x.loc) w with
    | (.ok f room pg, w) =>
      let k := Nat.min room x.data.length
      let rest := { x with loc := { x.loc with va := (x.loc.va + k) % 2 ^ 64 }, data := x.data.drop k }
      takeSides env n (if x.data.length ≤ k then r else rest :: r) (got ++ [({ x with data := x.data.take k }, f)]) (pages ++ pg) w
    | (t, w) => (t, got, w)

/-- A place of a page unit or of its scales lies elsewhere than LOCAL asks (R280). -/
def strays (h : Hw) (p : Piece) (fpas : List Nat) : Bool :=
  match p.home with
  | some t => fpas.any fun f => !(inPool h f && tileOf (fpaOffset f) == t)
  | none => false

/-- The check of a chunk on this module, over its whole range (R38, R91). -/
def checkLoc (h : Hw) (env : RunEnv) (l : Option Loc) (fpa n : Nat) (need : Right) : RangeCheck × Hw :=
  match l with
  | none => (.ok [], h)
  | some l =>
    if l.scratch then (.ok [], h)
    else if inPool h fpa then permitRange h env.agent (fpaNode fpa) (fpaOffset fpa) n need
    else if ownFpa h fpa then (.denied, h)
    else (.ok [], h)

/-- The checks of the side bytes. -/
def checkSides (env : RunEnv) : List (Side × Nat) → List (Nat × Nat) → Hw → RangeCheck × Hw
  | [], gs, h => (.ok gs, h)
  | (x, f) :: r, gs, h =>
    match checkLoc h env (some x.loc) f x.data.length .write with
    | (.ok g, h) => checkSides env r (gs ++ g) h
    | t => t

/-! ### Pieces -/

def Loc.advance (l : Loc) (n : Nat) : Loc := { l with va := (l.va + n) % 2 ^ 64 }
/-- The first `n` bytes of a piece. -/
def Piece.cut (p : Piece) (n : Nat) : Piece :=
  { p with len := n, data := if p.atomic then p.data else p.data.take n, pz := p.pz.take n, side := p.side.filter (fun x => x.off < n) }
/-- What is left of a piece after `n` bytes. -/
def Piece.after (p : Piece) (n : Nat) : Piece :=
  { p with src := p.src.map (fun l => l.advance n), dst := p.dst.map (fun l => l.advance n), len := p.len - n
           cursor := (p.cursor.getD 0 0 + n) :: p.cursor.drop 1
           data := p.data.drop n, pz := p.pz.drop n
           side := (p.side.filter (fun x => n ≤ x.off)).map (fun x => { x with off := x.off - n }) }
def operandOf (l : Option Loc) : Nat := (l.map Loc.operand).getD 0

/-- End a run with a code, at the cursor of its piece. -/
def Run.fail (r : Run) (code operand : Nat) (p : Piece) : Run :=
  { r with failed := code, cursor := p.cursor, operand := operand, chunk := none, pieces := [], walkReads := [] }

/-- The walk reads that a run waited for are done with. -/
def dropWalks (h : Hw) (r : Run) : Hw := { h with answers := h.answers.filter (fun a => !r.walkReads.any (fun w => w.2 == a.1)) }

/-- A chunk faults at its start (R67): the run stalls on a registered fault, or unregistered where the table is full. A collective's
fault reports no bytes (R688). -/
def faultRun (env : RunEnv) (r : Run) (p : Piece) (f : FaultInfo) (s : State) : Run × State :=
  if env.dropFaults then (r.fail stFault f.operand p, s)
  else
    let f := { f with cursor := p.cursor, committed := if 4096 ≤ env.queue then 0 else r.committed }
    let (slot, s) := registerFault s env.ctx env.waiter f
    ({ r with stall := if slot.isSome then 1 else 2, fault := slot, info := f, cursor := p.cursor, operand := f.operand, walkReads := [] }, s)

/-- Start the next chunk (R57): translations, then the checks, then its reads. -/
def startRun (env : RunEnv) (r : Run) (s : State) : Run × State :=
  match r.chunk, r.pieces with
  | none, p :: _ =>
    if r.stall != 0 || r.failed != 0 then (r, s)
    else
      let env := { env with anew := r.anew }
      let ended := fun (t : Taken) (operand : Nat) (w : Walker) =>
        match t with
        | .fault f => faultRun env r p f (w.s.onHw fun h => dropWalks h { r with walkReads := w.reads })
        | .poison => (r.fail stPoison operand p, w.s.onHw fun h => dropWalks h { r with walkReads := w.reads })
        | _ => ({ r with walkReads := w.reads }, w.s)
      match takeLoc env (if p.atomic then 2 else 0) p.src { s := s, reads := r.walkReads, sclass := env.sclass } with
      | (.ok sf sroom spg, w) =>
        (match takeLoc env 1 p.dst w with
         | (.ok df droom dpg, w) =>
           let n := if p.atomic then p.len else Nat.min p.len (Nat.min sroom droom)
           let c := p.cut n
           (match takeSides env (1 + (c.side.map fun x => 1 + x.data.length).foldl (· + ·) 0) (joinSides c.side) [] [] w with
            | (.ok _ _ xpg, xs, w) =>
              let s := w.s
              let c := { c with side := xs.map Prod.fst }
              if strays s.hw p ((if p.src.isSome then sf else df) :: xs.map Prod.snd) then
                (r.fail stDenied (if p.src.isSome then operandOf p.src else operandOf p.dst) p, s)
              else
              (match checkLoc s.hw env p.src sf n (if p.atomic then .atomic else .read) with
               | (.denied, h) => (r.fail stDenied (operandOf p.src) p, { s with hw := h })
               | (.held, h) => ({ r with walkReads := w.reads }, { s with hw := h })
               | (.ok g1, h) =>
                 (match checkLoc h env p.dst df n .write with
                  | (.denied, h) => (r.fail stDenied (operandOf p.dst) p, { s with hw := h })
                  | (.held, h) => ({ r with walkReads := w.reads }, { s with hw := h })
                  | (.ok g2, h) =>
                    (match checkSides env xs [] h with
                     | (.denied, h) => (r.fail stDenied (operandOf p.dst) p, { s with hw := h })
                     | (.held, h) => ({ r with walkReads := w.reads }, { s with hw := h })
                     | (.ok g3, h) =>
                       let gs := g1 ++ g2 ++ g3
                       let (k, h) := nextSerial (dropWalks h { r with walkReads := w.reads })
                       let s := { s with hw := h }
                       let pool := match p.src with | some l => !l.scratch | none => false
                       let (reads, s) :=
                         if !pool then ([], s)
                         else if p.atomic then
                           let (k, s) := access s env.tile env.queue env.src 2 env.sclass sf 16 gs p.data []
                           ([({ serial := k, off := 0, len := 16 } : Part)], s)
                         else readParts s env.tile env.queue env.src env.sclass sf n gs
                       let again := [p.src, p.dst].any fun l => match l with | some l => r.anew == some (l.va / 4096) | none => false
                       ({ r with walkReads := [], anew := if again || xs.any (fun x => r.anew == some (x.1.loc.va / 4096)) then none else r.anew
                                 chunk := some { piece := c, serial := k, grants := gs, pages := spg ++ dpg ++ xpg
                                                 srcFpa := sf, dstFpa := df, sideFpas := xs.map Prod.snd, reads := reads } }, s))))
            | (t, _, w) => ended t (operandOf p.dst) w)
         | (t, w) => ended t (operandOf p.dst) w)
      | (t, w) => ended t (operandOf p.src) w
  | _, _ => (r, s)

/-- Write bytes at an operand's place: to scratch at once, to memory part by part. -/
def writeLoc (env : RunEnv) (l : Loc) (fpa : Nat) (gs : List (Nat × Nat)) (bs : List Byte) (pz : List Bool) (s : State)
    (fence : Bool := false) : List Part × State :=
  if l.scratch then
    ([], s.onHw fun h => { h with queues := KMap.upd h.queues env.queue (fun q => q.scratchWrite fpa bs pz) })
  else writeParts s env.tile env.queue env.src env.sclass fpa gs bs pz fence

/-- The chunk has ended: what is left of its piece, and the progress word of R261. -/
def endChunk (env : RunEnv) (r : Run) (p : Piece) (n : Nat) (counted : Bool) : Run :=
  let rest := p.after n
  let left := if rest.len == 0 then r.pieces.drop 1 else rest :: r.pieces.drop 1
  let done := if counted then r.committed + n else r.committed
  let word : List Piece := match env.progress with
    | some va => if counted then [{ dst := some { operand := 7, va := va }, len := 8, data := leBytes 8 done, cursor := p.cursor, uncounted := true }] else []
    | none => []
  { r with chunk := none, pieces := word ++ left, committed := done }

/-- Go on with the chunk in progress: its reads are done, then its writes, then it commits (R261). -/
def commitRun (env : RunEnv) (r : Run) (s : State) : Run × State :=
  match r.chunk, r.pieces with
  | some c, p :: _ =>
    let n := c.piece.len
    let landed := fun (c : Chunk) (s : State) =>
      if !partsDone s.hw c.writes then ({ r with chunk := some c }, s)
      else
        let code := partsCode s.hw c.writes
        let s := s.onHw fun h => dropParts h c.writes
        if code != 0 then (r.fail code (operandOf p.dst) p, s)
        else (endChunk env { r with chunk := some c } p n (!p.uncounted), s)
    if c.wrote then landed c s
    else if !partsDone s.hw c.reads then (r, s)
    else
      let code := partsCode s.hw c.reads
      if code != 0 then (r.fail code (operandOf p.src) p, s.onHw fun h => dropParts h c.reads)
      else
        let (bs, pz) := match p.src with
          | some l => if l.scratch then (KMap.get s.hw.queues env.queue).scratchBytes c.srcFpa n else partsData s.hw c.reads
          | none => (c.piece.data, c.piece.pz)
        match p.dst with
        | none =>
          let r := endChunk env r p n false
          let r := if r.got.any (fun g => g.2.any (fun z => z)) then r
            else match pz.findIdx? (fun z => z) with
              | some i => { r with poisonAt := (fpaOffset c.srcFpa + i) / 8 * 8, poisonCursor := c.piece.cursor, poisonOperand := operandOf p.src }
              | none => r
          ({ r with got := r.got ++ [(bs, pz)] }, s.onHw fun h => dropParts h c.reads)
        | some l =>
          if s.hw.pair.writeHold then (r, s)
          else
            let s := s.onHw fun h => dropParts h c.reads
            let (ws, s) := writeLoc env l c.dstFpa c.grants bs pz s p.fence
            let (xs, s) := (List.zip c.piece.side c.sideFpas).foldl (fun (acc : List Part × State) x =>
              let (q, s) := writeLoc env x.1.loc x.2 c.grants x.1.data (List.replicate x.1.data.length x.1.pz) acc.2
              (acc.1 ++ q, s)) ([], s)
            landed { c with wrote := true, reads := [], writes := ws ++ xs } s
  | _, _ => (r, s)

/-- A stalled run is released: it walks its chunk afresh (R75). -/
def Run.release (r : Run) : Run := { r with stall := 0, fault := none, walkReads := [], anew := some (r.info.va / 4096) }
/-- A stalled run ends with FAULT (R76). -/
def Run.abort (r : Run) : Run := { r with stall := 0, fault := none, failed := stFault, pieces := [], chunk := none, walkReads := [] }

/-- A run that could not register its fault tries again (R69). -/
def reregister (env : RunEnv) (r : Run) (t : Nat) (s : State) : Run × State :=
  if r.stall == 2 && faultHome r.info.va == t then
    match registerFault s env.ctx env.waiter r.info with
    | (some k, s) => ({ r with stall := 1, fault := some k }, s)
    | (none, s) => (r, s)
  else (r, s)

/-- Cut a run short: reads in progress are abandoned, and a chunk whose writes are on their way is committed when they are. -/
def Run.stop (r : Run) : Run :=
  match r.chunk with
  | some c => if c.wrote then { r with pieces := r.pieces.take 1 } else { r with chunk := none, pieces := [], walkReads := [] }
  | none => { r with pieces := [], walkReads := [] }

end Sys2Proof.Machine
end

