-- ==== Sys2Proof/Machine/Descriptors.lean ====
section
/-!
DEFINITION. Descriptors and operand records (chapter 08): the header and bodies (R252, R253), operand records (R255, R256),
what is read at validation and the rules it must meet (R184, R226, R229, R254, R264–R273, R276–R287, R294, R296).
-/
namespace Sys2Proof.Machine
open Sys2Proof

/-! ### Header and body (R252, R253) -/

/-- A field of the descriptor. -/
def Exec.bits (e : Exec) (lo n : Nat) : Nat := fld (leNat e.desc) lo n
def Exec.type (e : Exec) : Nat := e.bits 0 8
def Exec.cev (e : Exec) : Bool := e.bits 8 1 == 1
def Exec.chunkEv (e : Exec) : Bool := e.bits 9 1 == 1
def Exec.wait (e : Exec) : Bool := e.bits 10 1 == 1
def Exec.haltErr (e : Exec) : Bool := e.bits 11 1 == 1
def Exec.sclass (e : Exec) : Nat := e.bits 12 2
def Exec.tag (e : Exec) : Nat := e.bits 32 32
def Exec.compVa (e : Exec) : Nat := e.bits 64 64
/-- A computing descriptor. -/
def Exec.computing (e : Exec) : Bool := 3 ≤ e.type && e.type ≤ 7
/-- COMP_VA breaks its alignment or R36 (R252, R254). -/
def Exec.badComp (e : Exec) : Bool := e.compVa % (if e.chunkEv then 64 else 32) != 0 || 2 ^ 57 ≤ e.compVa
/-- DCOPY and DFILL name records, else their rows stand in the descriptor. -/
def Exec.shaped (e : Exec) : Bool := e.bits 128 1 == 1
/-- AFLAGS of DATTN (R284). -/
def Exec.aLocal (e : Exec) : Bool := e.bits 408 1 == 1
def Exec.aCausal (e : Exec) : Bool := e.bits 409 1 == 1
def Exec.aAppend (e : Exec) : Bool := e.bits 410 1 == 1
def Exec.aBf16 (e : Exec) : Bool := e.bits 411 1 == 1

/-! ### Operand records (R255, R256) -/

/-- An operand record. -/
structure OpRec where
  addr : Nat := 0
  fmt : Nat := 0
  loc : Bool := false
  dims : List Nat := [1, 1, 1, 1, 1]
  /-- STRIDE1 to STRIDE4 -/
  strides : List Int := [0, 0, 0, 0]
  scaleVa : Nat := 0
  scalePitch : Nat := 0
  sidePitch : Nat := 0
  sideVa : Nat := 0
  codebook : Nat := 0
  t : Nat := 0
  shadow : Nat := 0
  guard : Nat := 0
  seed : Nat := 0
  /-- reserved bits -/
  rsv : Nat := 0
deriving DecidableEq, Repr, Inhabited

/-- A record from its 128 bytes. -/
def opRec (bs : List Byte) : OpRec :=
  let v := leNat bs
  { addr := fld v 0 64, fmt := fld v 64 32, loc := tbit v 96, rsv := fld v 97 31 + fld v 992 32
    dims := [fld v 128 32, fld v 160 32, fld v 192 32, fld v 224 32, fld v 256 32]
    strides := [toInt 64 (fld v 288 64), toInt 64 (fld v 352 64), toInt 64 (fld v 416 64), toInt 64 (fld v 480 64)]
    scaleVa := fld v 544 64, scalePitch := fld v 608 32, sidePitch := fld v 640 32, sideVa := fld v 672 64
    codebook := fld v 736 64, t := fld v 800 32, shadow := fld v 832 64, guard := fld v 896 64, seed := fld v 960 32 }

def OpRec.dim (r : OpRec) (i : Nat) : Nat := r.dims.getD i 1
/-- Rows of an operand. -/
def OpRec.rows (r : OpRec) : Nat := r.dim 1 * r.dim 2 * r.dim 3 * r.dim 4
/-- Indices of row `n`, DIM1 fastest (R256). -/
def OpRec.index (r : OpRec) (n : Nat) : List Nat :=
  [n % r.dim 1, n / r.dim 1 % r.dim 2, n / (r.dim 1 * r.dim 2) % r.dim 3, n / (r.dim 1 * r.dim 2 * r.dim 3) % r.dim 4]
/-- Row number of indices. -/
def OpRec.number (r : OpRec) (i : List Nat) : Nat :=
  i.getD 0 0 + r.dim 1 * (i.getD 1 0 + r.dim 2 * (i.getD 2 0 + r.dim 3 * i.getD 3 0))
/-- Offset of a row from ADDR. -/
def OpRec.offset (r : OpRec) (i : List Nat) : Int :=
  (List.range 4).foldl (fun a k => a + (i.getD k 0 : Int) * r.strides.getD k 0) 0
/-- VA or scratch offset of a row (R256), modulo 2^64. -/
def OpRec.rowAddr (r : OpRec) (n : Nat) : Nat := ofInt 64 ((r.addr : Int) + r.offset (r.index n))
/-- Bytes of a row: elements, or bytes as DCOPY and DFILL count them. -/
def OpRec.rowLen (r : OpRec) (raw : Bool) : Nat := if raw then r.dim 0 else rowBytes (fElem r.fmt) (r.dim 0)
/-- The scale array and the sidecar array of row `n` (R256). -/
def OpRec.scaleAddr (r : OpRec) (n : Nat) : Nat :=
  (r.scaleVa + n * (if r.scalePitch == 0 then scaleBytes r.fmt (r.dim 0) else r.scalePitch)) % 2 ^ 64
def OpRec.sideAddr (r : OpRec) (n : Nat) : Nat :=
  (r.sideVa + n * (if r.sidePitch == 0 then sideBytes r.fmt (r.dim 0) else r.sidePitch)) % 2 ^ 64
def isLut (f : Nat) : Bool := fElem f == 11 || fElem f == 12
/-- Bytes of a codebook (R178). -/
def codebookBytes (f : Nat) : Nat := if fElem f == 11 then 32 else 16

/-- The part an operand plays. -/
inductive Role where
  /-- DCOPY, DFILL: bytes -/
  | raw
  /-- DGATHER, DSCATTER: rows of elements moved as bytes -/
  | moved
  | source
  | shadow
  | dest
deriving DecidableEq, Repr

/-- A signed range of bytes: lowest, and one past the highest. -/
def OpRec.span (r : OpRec) (raw : Bool) : Int × Int :=
  let ends := (List.range 4).map fun k => ((r.dim (k + 1) : Int) - 1) * r.strides.getD k 0
  let lo := ends.foldl (fun a x => a + min x 0) (r.addr : Int)
  let hi := ends.foldl (fun a x => a + max x 0) (r.addr : Int)
  (lo, hi + r.rowLen raw)
/-- The spans of an operand: rows, scales, sidecars and codebook (R229), each with whether it lies in scratch. -/
def OpRec.spans (r : OpRec) (raw : Bool) : List (Bool × Int × Int) :=
  let arr := fun (va pitch n : Nat) => (false, (va : Int), (va : Int) + ((r.rows - 1) * pitch + n : Nat))
  [(r.loc, r.span raw)]
    ++ (if fScale r.fmt == 0 then [] else
        let n := scaleBytes r.fmt (r.dim 0)
        [arr r.scaleVa (if r.scalePitch == 0 then n else r.scalePitch) n])
    ++ (if !fSide r.fmt then [] else
        let n := sideBytes r.fmt (r.dim 0)
        [arr r.sideVa (if r.sidePitch == 0 then n else r.sidePitch) n])
    ++ (if !isLut r.fmt then [] else [(false, (r.codebook : Int), (r.codebook : Int) + codebookBytes r.fmt)])
/-- Two spans share a byte. -/
def spansMeet (a b : Bool × Int × Int) : Bool := a.1 == b.1 && a.2.1 < b.2.2 && b.2.1 < a.2.2
def OpRec.meets (a b : OpRec) (raw : Bool) : Bool := (a.spans raw).any fun x => (b.spans raw).any fun y => spansMeet x y

/-- A record that breaks a rule for its role (R183, R184, R226, R255, R256); `scratch` is the queue's allocation in bytes. -/
def OpRec.bad (r : OpRec) (role : Role) (scratch : Nat) : Bool :=
  let raw := role == .raw
  let dest := role == .dest
  let f := r.fmt
  let (lo, hi) := r.span raw
  r.rsv != 0 || r.dim 0 == 0
    || (List.range 4).any (fun k => r.dim (k + 1) == 0 || 16777216 < r.dim (k + 1))
    || (r.loc && (r.strides.any (fun s => s < 0) || lo < 0 || (scratch : Int) < hi))
    || (raw && (f != 0 || r.scaleVa != 0 || r.sideVa != 0 || r.codebook != 0 || r.t != 0))
    || (!raw && (badFormat f r.t dest || (blocked f && r.dim 0 % 32 != 0)))
    || (fScale f == 0 && (r.scaleVa != 0 || r.scalePitch != 0))
    || (!fSide f && (r.sideVa != 0 || r.sidePitch != 0))
    || (!isLut f && r.codebook != 0)
    || (fScale f != 2 && r.t != 0)
    || (role != .source && r.shadow != 0)
    || (!dest && (r.guard != 0 || r.seed != 0))
    || (dest && badGuard r.guard)
    || (role == .moved && (fScale f != 0 || fSide f))

/-! ### Control data (R254) -/

/-- The key of a control read: its VA and length. -/
def ctlKey (va n : Nat) : Nat := va * 65536 + n
/-- Control data already read. -/
def Exec.ctl (e : Exec) (va n : Nat) : Option (List Byte) := KMap.find? e.records (ctlKey va n)
/-- VAs of a list of `n` 64-bit VAs. -/
def listVas (bs : List Byte) (n : Nat) : List Nat := (List.range n).map fun i => leNat ((bs.drop (8 * i)).take 8)
/-- The operand records that a descriptor names, as far as its lists are read: VA, role, operand number. -/
def Exec.named (e : Exec) : List (Nat × Role × Nat) :=
  let lst := fun (va n : Nat) => match e.ctl va (8 * n) with | some bs => (listVas bs n).map (fun v => (v, Role.source, 0)) | none => []
  match e.type with
  | 1 => if e.shaped then [(e.bits 192 64, .raw, 0), (e.bits 256 64, .raw, 2)] else []
  | 2 => if e.shaped then [(e.bits 192 64, .raw, 2)] else []
  | 3 => [(e.bits 128 64, .source, 0), (e.bits 192 64, .source, 1), (e.bits 256 64, .dest, 2)]
      ++ (if e.bits 320 64 == 0 then [] else [(e.bits 320 64, .source, 3)])
  | 4 => [(e.bits 128 64, .source, 0), (e.bits 256 64, .dest, 2)]
  | 5 => lst (e.bits 128 64) (e.bits 192 16) ++ [(e.bits 256 64, .dest, 2)]
  | 6 => lst (e.bits 128 64) (e.bits 192 16) ++ [(e.bits 256 64, .dest, 2)]
  | 7 => [(e.bits 128 64, .source, 0), (e.bits 192 64, .dest, 2)]
  | 8 => [(e.bits 128 64, .moved, 0), (e.bits 320 64, .moved, 2)]
  | 9 => [(e.bits 128 64, .moved, 2), (e.bits 320 64, .moved, 0)]
  | _ => []
/-- A record that has been read. -/
def Exec.recAt (e : Exec) (va : Nat) : OpRec := opRec ((e.ctl va 128).getD [])
/-- The records read so far, shadows included, each with its role, operand number and VA. -/
def Exec.known (e : Exec) : List (OpRec × Role × Nat × Nat) :=
  let main := e.named.filterMap fun x => (e.ctl x.1 128).map fun bs => (opRec bs, x.2.1, x.2.2, x.1)
  main ++ main.filterMap fun x =>
    if x.1.shadow == 0 then none else (e.ctl x.1.shadow 128).map fun bs => (opRec bs, Role.shadow, x.2.2.1, x.1.shadow)
/-- The stretch record of DATTN and its append header (R276, R282). -/
def Exec.stretch (e : Exec) : Nat := leNat ((e.ctl (e.bits 192 64) 128).getD [])
def Exec.appendVa (e : Exec) : Nat := fld e.stretch 256 64
def Exec.appendHead (e : Exec) : Nat := leNat ((e.ctl e.appendVa 64).getD [])
/-- What validation reads, as far as it is known: operand number, VA, length (R254, R256). -/
def Exec.controlReads (e : Exec) : List (Nat × Nat × Nat) :=
  let lists := if e.type == 5 || e.type == 6 then [(6, e.bits 128 64, 8 * e.bits 192 16)] else []
  let recs := e.named.map fun x => (6, x.1, 128)
  let known := e.known
  let shadows := known.filterMap fun x => if x.1.shadow == 0 then none else some (6, x.1.shadow, 128)
  let books := known.filterMap fun x =>
    if isLut x.1.fmt && (x.2.1 != .moved || x.2.2.1 == 2) then some (x.2.2.1, x.1.codebook, codebookBytes x.1.fmt) else none
  let attn := if e.type == 4 then
      [(6, e.bits 192 64, 128)] ++ (if e.aAppend && (e.ctl (e.bits 192 64) 128).isSome && e.appendVa != 0 then [(6, e.appendVa, 64)] else [])
    else []
  lists ++ recs ++ attn ++ shadows ++ books
/-- The control reads that are still to be made. -/
def Exec.missing (e : Exec) : List (Nat × Nat × Nat) :=
  (e.controlReads.eraseDups).filter fun x => (e.ctl x.2.1 x.2.2).isNone
/-- Codebook of a record, as FP16 codes. -/
def Exec.book (e : Exec) (r : OpRec) : List Nat :=
  if isLut r.fmt then
    let bs := (e.ctl r.codebook (codebookBytes r.fmt)).getD []
    (List.range (codebookBytes r.fmt / 2)).map fun i => leNat ((bs.drop (2 * i)).take 2)
  else []

/-! ### Rules of the descriptor's own fields (R254) -/

/-- A reserved field is non-zero, or a field is outside its range. -/
def Exec.badFields (e : Exec) : Bool :=
  let z := fun (lo n : Nat) => e.bits lo n != 0
  let rec' := fun (lo : Nat) => e.bits lo 64 % 128 != 0
  z 14 18 ||
  (match e.type with
   | 1 => z 129 31 || z 352 32
        || (if e.shaped then z 160 32 || z 320 32 || z 384 64 || z 448 64 || rec' 192 || rec' 256
            else e.bits 160 32 == 0 || e.bits 320 32 == 0 || 16777216 < e.bits 320 32)
   | 2 => z 131 29 || z 352 96 || 2 ^ (8 * 2 ^ e.bits 129 2) ≤ e.bits 256 64
        || (if e.shaped then z 160 32 || z 320 32 || z 448 64 || rec' 192
            else e.bits 160 32 == 0 || e.bits 320 32 == 0 || 16777216 < e.bits 320 32 || e.bits 160 32 % 2 ^ e.bits 129 2 != 0)
   | 3 => z 448 64 || rec' 128 || rec' 192 || rec' 256 || rec' 320 || (e.bits 320 64 == 0 && z 416 32)
   | 4 => z 448 64 || z 412 4 || rec' 128 || rec' 192 || rec' 256
   | 5 => z 209 47 || z 320 192 || e.bits 192 16 < 2 || 4096 < e.bits 192 16 || rec' 256
   | 6 => z 210 46 || z 320 192 || e.bits 192 16 < 2 || 4096 < e.bits 192 16 || rec' 256
   | 7 => z 256 256 || rec' 128 || rec' 192
   | 8 => z 257 31 || z 384 128 || e.bits 288 32 == 0 || 16777216 < e.bits 288 32 || rec' 128 || rec' 320
   | 9 => z 257 31 || z 384 128 || e.bits 288 32 == 0 || 16777216 < e.bits 288 32 || rec' 128 || rec' 320
   | 10 => z 200 56
   | 11 => z 322 30 || z 384 128 || e.bits 320 2 == 3 || e.bits 128 64 % 8 != 0
   | 12 => z 257 255 || e.bits 128 64 % 8 != 0
   | _ => true)

/-! ### Rules of records together -/

/-- The record that plays a part: the first named with an operand number. -/
def Exec.operandRec (e : Exec) (operand : Nat) : OpRec :=
  match e.named.find? (fun x => x.2.2 == operand) with
  | some x => e.recAt x.1
  | none => {}
/-- The rows of DCOPY and DFILL: operand 0 or 2, inline or from a record (R264, R265). -/
def Exec.rawRec (e : Exec) (operand : Nat) : OpRec :=
  if e.shaped then e.operandRec operand
  else
    let dst := operand == 2
    { addr := if e.type == 2 then e.bits 192 64 else if dst then e.bits 256 64 else e.bits 192 64
      dims := [e.bits 160 32, e.bits 320 32, 1, 1, 1]
      strides := [toInt 64 (if e.type == 2 then e.bits 448 64 else if dst then e.bits 448 64 else e.bits 384 64), 0, 0, 0] }
/-- All source records of a descriptor in list order (DREDUCE, DMERGE). -/
def Exec.sources (e : Exec) : List OpRec := (e.named.filter (fun x => x.2.1 == .source)).map fun x => e.recAt x.1
/-- What a run reads in place of a source: its shadow in the re-run, where it names one (R228). -/
def Exec.reading (e : Exec) (r : OpRec) : OpRec := if e.reran && r.shadow != 0 then e.recAt r.shadow else r
def Exec.dest (e : Exec) : OpRec := e.operandRec 2
def sameDims (a b : OpRec) : Bool := a.dims == b.dims
/-- Dimensions 2 to 4 of a factor of DGEMM are C's or 1 (R268). -/
def broadcasts (a c : OpRec) : Bool := [2, 3, 4].all fun k => a.dim k == c.dim k || a.dim k == 1

/-- Stretch fields (R276). -/
structure Stretch where
  base : Nat := 0
  tokenBase : Nat := 0
  capacity : Nat := 0
  kvfmt : Nat := 0
  hkv : Nat := 1
  gqa : Nat := 1
  dh : Nat := 64
  rope : Nat := 0
  rotVa : Nat := 0
  appendVa : Nat := 0
  pos : Nat := 0
  new : Nat := 1
deriving DecidableEq, Repr, Inhabited
def zeroIs (n v : Nat) : Nat := if v == 0 then n else v
def Exec.stretchOf (e : Exec) : Stretch :=
  let v := e.stretch
  { base := fld v 0 64, tokenBase := fld v 64 32, capacity := fld v 96 32, kvfmt := fld v 128 32
    hkv := zeroIs 64 (fld v 160 6), gqa := zeroIs 64 (fld v 168 6), dh := 64 * 2 ^ fld v 176 2, rope := fld v 178 2
    rotVa := fld v 192 64, appendVa := fld v 256 64, pos := fld e.appendHead 0 32, new := zeroIs 32 (fld e.appendHead 32 6) }
/-- Pages per scale unit, element units per page, units per group, pages per head (R278). -/
def Stretch.p (s : Stretch) : Nat := 256 / s.dh
def Stretch.e (s : Stretch) : Nat := s.dh * elemBits (fElem s.kvfmt) / 64
def Stretch.g (s : Stretch) : Nat := s.p * s.e + 1
def Stretch.np (s : Stretch) : Nat := s.capacity / 256
/-- A stretch record that breaks R276 or R277. -/
def badStretch (v : Nat) (s : Stretch) : Bool :=
  let f := s.kvfmt
  fld v 166 2 != 0 || fld v 174 2 != 0 || fld v 176 2 == 3 || fld v 178 2 == 3 || fld v 180 12 != 0 || fld v 320 704 != 0
    || s.base % 2097152 != 0 || s.capacity % 256 != 0 || s.capacity < 256 || 16777216 < s.capacity
    || fElem f < 3 || 7 < fElem f || fScale f != 1 || fSide f || fFtz f || 3 < fRound f || fld f 13 19 != 0
    || 256 < s.hkv * s.gqa || s.hkv * s.np % (32 * s.p) != 0 || 2 ^ 32 < s.tokenBase + s.capacity
    || (if s.rope == 0 then s.rotVa != 0 else s.rotVa % 8 != 0) || s.appendVa % 64 != 0

/-- Tile that holds page `p` of head `h` (R279). -/
def Stretch.tileOf (s : Stretch) (p h : Nat) : Nat := (p * s.hkv + h) % 32
/-- Key/value heads served, in ascending order (R283). -/
def Exec.headsServed (e : Exec) : List Nat :=
  let s := e.stretchOf
  (List.range s.hkv).filter fun h => e.bits 384 8 < (h + 1) * s.gqa && h * s.gqa < e.bits 384 8 + e.bits 392 8
/-- Query heads served that use a key/value head. -/
def Exec.queryHeads (e : Exec) (h : Nat) : List Nat :=
  let s := e.stretchOf
  (List.range (e.bits 392 8)).filter fun i => (e.bits 384 8 + i) / s.gqa == h
def Exec.tokenFirst (e : Exec) : Nat := e.bits 320 32
def Exec.tokenEnd (e : Exec) : Nat := e.bits 320 32 + e.bits 352 32
def Exec.qrows (e : Exec) : Nat := e.bits 400 8
/-- Stretch-local positions of a head that some row sees (R285), ascending. -/
def Exec.visible (e : Exec) (tile h : Nat) : List Nat :=
  let s := e.stretchOf
  let a := e.tokenFirst - s.tokenBase
  ((List.range (e.tokenEnd - e.tokenFirst)).map (fun i => a + i)).filter fun x => !e.aLocal || s.tileOf (x / 256) h == tile
/-- Score space of DATTN in values (R291). -/
def Exec.scoreSpace (e : Exec) (tile : Nat) : Nat :=
  (e.headsServed.map fun h => (e.queryHeads h).length * e.qrows * (e.visible tile h).length).foldl Nat.max 0

/-- Bytes of a layer area (R278, R279). -/
def Stretch.areaBytes (s : Stretch) : Nat := s.hkv * s.np / s.p * s.g * 4096
/-- The stretch's layer area, which DATTN reads as a source (R229, R257, R287). -/
def Exec.meetsArea (e : Exec) (d : OpRec) : Bool :=
  let s := e.stretchOf
  e.type == 4 && (d.spans false).any fun x => spansMeet x (false, (s.base : Int), (s.base : Int) + s.areaBytes)

/-- A rule between the records of a descriptor is broken (R254, R264–R270, R229, R287, R294, R296); `tile` is the queue's. -/
def Exec.badShapes (e : Exec) (tile : Nat) : Bool :=
  let d := e.dest
  let srcs := e.sources
  let shadows := srcs.filterMap fun r => if r.shadow == 0 then none else some (e.recAt r.shadow)
  let lutDest := isLut d.fmt && (finiteEntries (e.book d)).isEmpty
  let shadowShape := srcs.any fun r => r.shadow != 0 && !sameDims r (e.recAt r.shadow)
  let rerun := e.computing && guardRerun d.guard && (e.chunkEv || srcs.any (fun r => d.meets r false) || shadows.any (fun r => d.meets r false) || e.meetsArea d)
  (e.computing && (shadowShape || rerun)) || ((e.computing || e.type == 8 || e.type == 9) && lutDest) ||
  (match e.type with
   | 1 => let a := e.rawRec 0; let b := e.rawRec 2
          !sameDims a b || spansMeet (a.loc, a.span true) (b.loc, b.span true)
   | 2 => (e.rawRec 2).dim 0 % 2 ^ e.bits 129 2 != 0
   | 3 =>
     let a := e.operandRec 0; let b := e.operandRec 1; let c := e.operandRec 3
     a.dim 0 != b.dim 0 || d.dim 1 != a.dim 1 || d.dim 0 != b.dim 1 || !broadcasts a d || !broadcasts b d
       || (e.bits 320 64 != 0 && (!sameDims c d || 2 < fElem c.fmt || fScale c.fmt != 0))
   | 4 =>
     let s := e.stretchOf
     let q := e.operandRec 0
     badStretch e.stretch s
       || q.dims != [s.dh, e.qrows, e.bits 392 8, 1, 1] || d.fmt != 0 || d.dims != [s.dh + 4, e.qrows, e.bits 392 8, 1, 1]
       || e.qrows == 0 || 32 < e.qrows || e.bits 352 32 == 0 || e.tokenFirst < s.tokenBase || s.tokenBase + s.capacity < e.tokenEnd
       || e.bits 392 8 == 0 || s.hkv * s.gqa < e.bits 384 8 + e.bits 392 8 || (e.aCausal && e.bits 352 32 < e.qrows)
       || (e.bits 416 32) / 2 ^ 31 == 1 || fld (e.bits 416 32) 23 8 == 0 || fld (e.bits 416 32) 23 8 == 255
       || (e.aAppend && (s.appendVa == 0 || fld e.appendHead 38 474 != 0 || 32 ≤ fld e.appendHead 32 6 || s.pos < s.tokenBase
            || s.tokenBase + s.capacity < s.pos + s.new || guardRerun d.guard))
       || 454656 < e.scoreSpace tile
   | 5 =>
     let p := srcs.headD {}
     let dh := p.dim 0 - 4
     srcs.any (fun r => r.fmt != 0 || !sameDims r p) || !(dh == 64 || dh == 128 || dh == 256)
       || (if e.bits 208 1 == 0 then d.fmt != 0 || !sameDims d p else d.dims != dh :: p.dims.drop 1)
   | 6 =>
     let p := srcs.headD {}
     let again := srcs.map fun r => if r.shadow == 0 then r else e.recAt r.shadow
     srcs.any (fun r => !sameDims r p || r.fmt != p.fmt) || !reducible p.fmt || !sameDims d p
       || (guardRerun d.guard && again.any (fun r => r.fmt != (again.headD {}).fmt || !reducible r.fmt))
   | 7 => !sameDims (e.operandRec 0) d
   | 8 => let t := e.operandRec 0; let r := e.operandRec 2
          t.fmt != r.fmt || t.dim 0 != r.dim 0 || r.dim 1 != e.bits 288 32 || [2, 3, 4].any (fun k => t.dim k != 1 || r.dim k != 1)
   | 9 => let t := e.operandRec 2; let r := e.operandRec 0
          t.fmt != r.fmt || t.dim 0 != r.dim 0 || r.dim 1 != e.bits 288 32 || [2, 3, 4].any (fun k => t.dim k != 1 || r.dim k != 1)
   | _ => false)

/-- Whether a read record breaks a rule of its own; a shadow's VA, and a codebook's, must be there. -/
def Exec.badRecords (e : Exec) (scratch : Nat) : Bool :=
  e.known.any fun x => x.1.bad x.2.1 scratch || x.2.2.2 % 128 != 0 || x.1.shadow % 128 != 0

end Sys2Proof.Machine
end

