-- ==== Sys2Proof/Machine/Compute.lean ====
section
/-!
DEFINITION. What descriptors do block by block (chapters 07 to 09): moving descriptors and single accesses (R258, R264–R273),
and the blocks of DGEMM, DCONV, DREDUCE, DATTN and DMERGE: what each reads, what it writes, and its range events.
-/
namespace Sys2Proof.Machine
open Sys2Proof

/-- Give an executing descriptor its next pieces. -/
def Exec.go (e : Exec) (ps : List Piece) : Exec := { e with run := { e.run with pieces := ps, got := [] } }
/-- A descriptor has ended with a code, a cursor and an operand. -/
def Exec.endWith (e : Exec) (code : Nat) (cursor : List Nat) (operand : Nat) : Exec :=
  { e with ended := true, code := code, cursor := cursor, operand := operand, run := { e.run with pieces := [], got := [] } }
def zeroCursor : List Nat := [0, 0, 0, 0, 0]
/-- DENIED under R254. -/
def Exec.deny (e : Exec) : Exec := e.endWith stDenied zeroCursor 0
/-- What the dot array did in a turn: the faults of the computations to come, and the output blocks that it recomputed with success or that
failed twice (R232). -/
structure Dots where
  todo : List (List DotFault) := []
  corrected : Nat := 0
  failed : Nat := 0
/-- An output block is computed and, if R230 selects it, checked. -/
def Dots.block (ds : Dots) (bm bn seed : Nat) (start : Nat → Nat → Fp) (elems : List (List (DotRow × DotRow))) : DotBlock × Dots :=
  let (b, todo) := dotBlock (residueChecked bm bn seed) start elems ds.todo
  (b, { todo := todo, corrected := ds.corrected + b2n b.corrected, failed := ds.failed + b2n b.failed })
/-- The bytes of a failed output block are written poisoned; then the descriptor ends with POISON (R232). -/
def Exec.poisonOut (e : Exec) (ps : List Piece) : Exec :=
  { e.go (ps.map fun p => { p with pz := List.replicate p.len true, side := p.side.map fun x => { x with pz := true } }) with
      stage := 3, cursor := (ps.headD {}).cursor }
/-- All bytes read for the pieces just run. -/
def Exec.data (e : Exec) : List Byte := (e.run.got.map Prod.fst).flatten
/-- Bytes cut into runs of given lengths. -/
def splitBytes : List Nat → List Byte → List (List Byte)
  | [], _ => []
  | n :: r, bs => bs.take n :: splitBytes r (bs.drop n)

/-! ### Rows -/

/-- The pieces that read row `n` of a source: elements, scales, sidecars (R256, R259). -/
def OpRec.reads (r : OpRec) (operand n : Nat) : List Piece :=
  let cur := 0 :: r.index n
  let arr := fun (va len : Nat) => if len == 0 then [] else [({ src := some { operand := operand, va := va }, len := len, cursor := cur } : Piece)]
  [{ src := some { operand := operand, va := r.rowAddr n, scratch := r.loc }, len := r.rowLen false, cursor := cur }]
    ++ arr (r.scaleAddr n) (scaleBytes r.fmt (r.dim 0)) ++ arr (r.sideAddr n) (sideBytes r.fmt (r.dim 0))
/-- Lengths of the three arrays of a row. -/
def OpRec.lens (r : OpRec) : List Nat := [r.rowLen false, scaleBytes r.fmt (r.dim 0), sideBytes r.fmt (r.dim 0)]
/-- Values of a row from its bytes, elements then scales then sidecars. -/
def Exec.rowValues (e : Exec) (r : OpRec) (bs : List Byte) : List Fp × Nat :=
  let l := splitBytes r.lens bs
  decodeRow r.fmt (e.book r) r.t (r.dim 0) (l.getD 0 []) (l.getD 1 []) (l.getD 2 [])
/-- Address of a row as R200 takes it. -/
def OpRec.drawBase (r : OpRec) (n : Nat) : Nat := if r.loc then 2 ^ 57 + r.rowAddr n else r.rowAddr n
/-- The write of elements `first` onward of row `n` of a destination, with the scales and sidecars of its blocks (R259), and the
descriptor's counts after it (R225, R227). -/
def Exec.writeRow (e : Exec) (d : OpRec) (n first : Nat) (vals : List Num) : Piece × Exec :=
  let o := encodeRow d.fmt (e.book d) d.t d.seed (d.drawBase n) first vals
  let off := (elemPlace (fElem d.fmt) first).1
  let sides := ((List.zip (List.range o.blocks.length) o.blocks).map fun x =>
    let b := first / 32 + x.1
    let start := (elemPlace (fElem d.fmt) (32 * b)).1 - off
    (if x.2.1.isEmpty then [] else
      [({ loc := { operand := 2, va := d.scaleAddr n + b * x.2.1.length }, off := start, data := x.2.1 } : Side)])
      ++ (if x.2.2.isEmpty then [] else [({ loc := { operand := 2, va := d.sideAddr n + 8 * b }, off := start, data := x.2.2 } : Side)])).flatten
  ({ dst := some { operand := 2, va := (d.rowAddr n + off) % 2 ^ 64, scratch := d.loc }, len := o.elems.length,
     cursor := off :: d.index n, data := o.elems, side := sides },
   { e with sat := satAdd 32 e.sat o.sat, flush := satAdd 32 e.flush o.flush, scovf := satAdd 32 e.scovf o.scovf
            elems := e.elems + vals.length, blocks := e.blocks + (if blocked d.fmt then o.blocks.length else 0) })
/-- Write several rows or parts of rows. -/
def Exec.writeRows (e : Exec) (d : OpRec) (l : List (Nat × Nat × List Num)) : List Piece × Exec :=
  l.foldl (fun (acc : List Piece × Exec) x => let (p, e) := acc.2.writeRow d x.1 x.2.1 x.2.2; (acc.1 ++ [p], e)) ([], e)
/-- Count FLUSH events of invalid TERN bytes (R179). -/
def Exec.countFlush (e : Exec) (n : Nat) : Exec := { e with flush := satAdd 32 e.flush n }

/-! ### The end of a body (R227, R228) -/

/-- A limit of the destination's GUARD is exceeded. -/
def Exec.tooMany (e : Exec) : Bool := exceeded e.dest.guard e.sat e.flush e.scovf e.elems e.blocks
/-- The body is done: OK, PRECISION, or the re-run from the shadows. -/
def Exec.bodyDone (e : Exec) : Exec :=
  if !e.computing || !e.tooMany then e.endWith stOK zeroCursor 0
  else if guardRerun e.dest.guard && !e.reran && e.sources.any (fun r => r.shadow != 0) then
    { e with reran := true, satFirst := e.sat, flushFirst := e.flush, scovfFirst := e.scovf, sat := 0, flush := 0, scovf := 0
             elems := 0, blocks := 0, block := 0, stage := 0, kept := [], regs := [], acc := [],
             run := { e.run with committed := 0, pieces := [], got := [] } }
  else e.endWith stPrecision zeroCursor 0

/-! ### Moving descriptors and single accesses -/

/-- DCOPY: the next row (R258, R264). -/
def Exec.copyNext (e : Exec) : Exec :=
  let a := e.rawRec 0
  let b := e.rawRec 2
  if b.rows ≤ e.block then e.bodyDone
  else ({ e with block := e.block + 1 }).go
    [{ src := some { operand := 0, va := a.rowAddr e.block, scratch := a.loc }, dst := some { operand := 2, va := b.rowAddr e.block, scratch := b.loc }
       len := b.dim 0, cursor := 0 :: b.index e.block }]

/-- DFILL: the next row, the pattern repeated from its first byte (R265). -/
def Exec.fillNext (e : Exec) : Exec :=
  let b := e.rawRec 2
  let w := 2 ^ e.bits 129 2
  let pat := leBytes w (e.bits 256 64)
  if b.rows ≤ e.block then e.bodyDone
  else ({ e with block := e.block + 1 }).go
    [{ dst := some { operand := 2, va := b.rowAddr e.block, scratch := b.loc }, len := b.dim 0, cursor := 0 :: b.index e.block
       data := (List.replicate (b.dim 0 / w) pat).flatten }]

/-- DGATHER and DSCATTER: an index, then its row (R266). -/
def Exec.tableNext (e : Exec) : Exec :=
  let gather := e.type == 8
  let table := e.operandRec (if gather then 0 else 2)
  let rows := e.operandRec (if gather then 2 else 0)
  let w := if e.bits 256 1 == 1 then 8 else 4
  if e.stage == 0 then
    if e.bits 288 32 ≤ e.block then e.bodyDone
    else ({ e with stage := 1 }).go
      [{ src := some { operand := 4, va := (e.bits 192 64 + w * e.block) % 2 ^ 64 }, len := w, cursor := [0, e.block, 0, 0, 0] }]
  else
    let i := leNat e.data
    if table.dim 1 ≤ i then e.endWith stDenied [0, e.block, 0, 0, 0] 4
    else
      let t : Loc := { operand := if gather then 0 else 2, va := table.rowAddr i, scratch := table.loc }
      let r : Loc := { operand := if gather then 2 else 0, va := rows.rowAddr e.block, scratch := rows.loc }
      ({ e with stage := 0, block := e.block + 1 }).go
        [{ src := some (if gather then t else r), dst := some (if gather then r else t), len := rows.rowLen false, cursor := [0, e.block, 0, 0, 0] }]

/-- The piece of one ATOMIC: its operation, operands and address (R129). -/
def atomicPiece (va aop opa opb : Nat) : Piece :=
  { src := some { operand := 0, va := va }, len := atomicSize aop, atomic := true
    data := leBytes 48 (pack [(8, aop), (56, 0), (128, opa), (128, opb), (64, 0)]) }

/-- DATOMIC (R271). -/
def Exec.atomicNext (e : Exec) : Exec :=
  if e.stage == 0 then ({ e with stage := 1 }).go [atomicPiece (e.bits 128 64) (e.bits 192 8) (e.bits 256 128) (e.bits 384 128)]
  else ({ e with old := leNat (e.data.take (atomicSize (e.bits 192 8))) }).bodyDone

/-- DEVENT (R273). -/
def Exec.eventNext (e : Exec) : Exec :=
  let va := e.bits 128 64
  if e.stage != 0 || va == 0 then e.bodyDone
  else if e.bits 256 1 == 1 then ({ e with stage := 1 }).go [atomicPiece va 1 (e.bits 192 64) 0]
  else ({ e with stage := 1 }).go [{ dst := some { operand := 0, va := va }, len := 8, data := leBytes 8 (e.bits 192 64) }]

/-- DFENCE: nothing to wait for, or the word is read at a poll (R272). -/
def Exec.fenceMet (e : Exec) (w : Nat) : Bool :=
  let x := Nat.land w (e.bits 256 64)
  let v := e.bits 192 64
  if e.bits 320 2 == 0 then x == v else if e.bits 320 2 == 1 then x != v else v ≤ x
def Exec.fenceNext (e : Exec) : Exec :=
  if e.bits 128 64 == 0 then e.bodyDone
  else if e.stage == 1 && e.fenceMet (leNat e.data) then e.bodyDone
  else { e.go [] with stage := 2 }

/-! ### Blocks of computing descriptors: what they want -/

/-- The value of a kept array row. -/
def Exec.keptAt (e : Exec) (key : List Nat) : List Byte := match e.kept.find? (fun k => k.1 == key) with | some k => k.2 | none => []
/-- The pieces of a row of a source under the key `[operand tag, row]`, with the key of each. -/
def rowWants (tag operand n : Nat) (r : OpRec) : List (List Nat × Piece) :=
  (List.zip [0, 1, 2] (r.reads operand n)).map fun x => ([tag, n, x.1], x.2)
/-- A kept row as the dot array takes it, and its FLUSH events. -/
def Exec.keptDot (e : Exec) (tag n : Nat) (r : OpRec) : DotRow × Nat :=
  dotRow r.fmt (e.book r) r.t (r.dim 0) (e.keptAt [tag, n, 0]) (e.keptAt [tag, n, 1]) (e.keptAt [tag, n, 2])
/-- Values of a kept row; its arrays lie in the order of `reads`. -/
def Exec.keptRow (e : Exec) (tag n : Nat) (r : OpRec) : List Fp × Nat :=
  e.rowValues r (e.keptAt [tag, n, 0] ++ e.keptAt [tag, n, 1] ++ e.keptAt [tag, n, 2])

/-- DGEMM: batch element, bm and bn of the block in progress (R268). -/
structure GemmBlock where
  batch : Nat := 0
  bm : Nat := 0
  bn : Nat := 0
  mb : Nat := 1
  nb : Nat := 1
deriving DecidableEq, Repr
def Exec.gemmAt (e : Exec) : GemmBlock :=
  let d := e.dest
  let mb := (d.dim 1 + 31) / 32
  let nb := (d.dim 0 + 31) / 32
  { batch := e.block / (mb * nb), bm := e.block / nb % mb, bn := e.block % nb, mb := mb, nb := nb }
/-- Indices of DIM2 to DIM4 of C's batch element, as another operand numbers them: 1 broadcasts. -/
def batchIndex (d r : OpRec) (batch : Nat) : List Nat :=
  let i2 := batch % d.dim 2
  let i3 := batch / d.dim 2 % d.dim 3
  let i4 := batch / (d.dim 2 * d.dim 3)
  [if r.dim 2 == 1 then 0 else i2, if r.dim 3 == 1 then 0 else i3, if r.dim 4 == 1 then 0 else i4]
/-- Row `i` of an operand in a batch element. -/
def gemmRow (d r : OpRec) (batch i : Nat) : Nat := r.number (i :: batchIndex d r batch)
/-- The first batch element that uses these rows of an operand. -/
def firstUse (d r : OpRec) (batch : Nat) : Bool :=
  let i2 := batch % d.dim 2
  let i3 := batch / d.dim 2 % d.dim 3
  let i4 := batch / (d.dim 2 * d.dim 3)
  (r.dim 2 != 1 || i2 == 0) && (r.dim 3 != 1 || i3 == 0) && (r.dim 4 != 1 || i4 == 0)
/-- Rows (or columns) of a block: from 32 × b up to the dimension. -/
def blockRange (n b : Nat) : List Nat := (List.range (Nat.min 32 (n - 32 * b))).map fun i => 32 * b + i
def Exec.gemmA (e : Exec) : OpRec := e.reading (e.operandRec 0)
def Exec.gemmB (e : Exec) : OpRec := e.reading (e.operandRec 1)
def Exec.gemmC (e : Exec) : OpRec := e.reading (e.operandRec 3)
/-- The reads of 32-element block `b` of row `n`, `k` of its elements used: elements, scales and sidecar, with keys `[operand, n, b, array]`. -/
def OpRec.partReads (r : OpRec) (operand n b k : Nat) : List (List Nat × Piece) :=
  let off := (elemPlace (fElem r.fmt) (32 * b)).1
  let arr := fun (key va len : Nat) => if len == 0 then [] else
    [([operand, n, b, key], ({ src := some { operand := operand, va := va % 2 ^ 64 }, len := len, cursor := 0 :: r.index n } : Piece))]
  let s := scaleBytes r.fmt 32
  [([operand, n, b, 0], { src := some { operand := operand, va := (r.rowAddr n + off) % 2 ^ 64, scratch := r.loc }
                          len := rowBytes (fElem r.fmt) k, cursor := off :: r.index n })]
    ++ arr 1 (r.scaleAddr n + s * b) s ++ arr 2 (r.sideAddr n + 8 * b) (sideBytes r.fmt 32)
/-- The values of such a block. -/
def Exec.partValues (e : Exec) (r : OpRec) (operand n b k : Nat) : List Fp :=
  (decodeRow r.fmt (e.book r) r.t k (e.keptAt [operand, n, b, 0]) (e.keptAt [operand, n, b, 1]) (e.keptAt [operand, n, b, 2])).1
def Exec.gemmWants (e : Exec) : List (List Nat × Piece) :=
  let d := e.dest
  let g := e.gemmAt
  let c := e.gemmC
  ((blockRange (d.dim 1) g.bm).map fun i => rowWants 0 0 (gemmRow d e.gemmA g.batch i) e.gemmA).flatten
    ++ ((blockRange (d.dim 0) g.bn).map fun j => rowWants 1 1 (gemmRow d e.gemmB g.batch j) e.gemmB).flatten
    ++ (if e.bits 320 64 == 0 then [] else
        ((blockRange (d.dim 1) g.bm).map fun i => c.partReads 3 (gemmRow d c g.batch i) g.bn (blockRange (d.dim 0) g.bn).length).flatten)
/-- DGEMM: compute, check and write one output block (R216, R230–R232, R268); the rows of A go with their bm, those of B unless they are
staged: B that was given up serves the rest of this bm (R269). -/
def Exec.gemmBlock (e : Exec) (ds : Dots) : Exec × Dots :=
  let d := e.dest
  let g := e.gemmAt
  let a := e.gemmA
  let b := e.gemmB
  let c := e.gemmC
  let alpha := decode32 (e.bits 384 32)
  let beta := decode32 (e.bits 416 32)
  let rows := blockRange (d.dim 1) g.bm
  let colsR := (blockRange (d.dim 0) g.bn).map fun j => e.keptDot 1 (gemmRow d b g.batch j) b
  let rowsR := rows.map fun i => e.keptDot 0 (gemmRow d a g.batch i) a
  let cin := if e.bits 320 64 == 0 then [] else rows.map fun i => e.partValues c 3 (gemmRow d c g.batch i) g.bn colsR.length
  let start := fun (i j : Nat) =>
    if e.bits 320 64 == 0 then Fp.fin false {} else Fp.mul beta ((cin.getD i []).getD j .nan)
  let (blk, ds) := ds.block g.bm g.bn d.seed start (rowsR.map fun r => colsR.map fun k => (r.1, k.1))
  let out := (List.zip rows blk.sums).map fun r =>
    (gemmRow d d g.batch r.1, 32 * g.bn, r.2.map fun x => (Fp.mul x alpha).num)
  let (ps, e') := e.writeRows d out
  let e' := e'.countFlush ((if g.bn == 0 && firstUse d a g.batch then (rowsR.map Prod.snd).foldl (· + ·) 0 else 0)
    + (if g.bm == 0 && firstUse d b g.batch then (colsR.map Prod.snd).foldl (· + ·) 0 else 0))
  let lastN := g.bn + 1 == g.nb
  let lastM := g.bm + 1 == g.mb
  let staged := e.regs.getD 0 0
  let keep := e.kept.filter fun k =>
    if k.1.getD 0 0 == 0 then !lastN
    else if k.1.getD 0 0 == 1 then (if staged == 1 then !(lastN && lastM) else if staged == 2 then !lastN else false)
    else false
  if blk.failed then (e.poisonOut ps, ds)
  else (({ e' with kept := keep, block := e.block + 1, stage := 0, regs := if staged == 2 && lastN then [0] else e.regs }).go ps, ds)
def Exec.gemmBlocks (e : Exec) : Nat := let d := e.dest; let g := e.gemmAt; g.mb * g.nb * d.dim 2 * d.dim 3 * d.dim 4
/-- Bytes of B of one batch element, with its scale and sidecar arrays (R269). -/
def Exec.gemmBBytes (e : Exec) : Nat := let b := e.gemmB; b.dim 1 * (b.lens.foldl (· + ·) 0)

/-- DCONV and DREDUCE: the sources that a run reads, and the one in progress. -/
def Exec.rowSources (e : Exec) : List OpRec := e.sources.map e.reading
def Exec.rowSource (e : Exec) : OpRec := e.rowSources.getD (e.regs.headD 0) {}
def Exec.rowsWants (e : Exec) : List (List Nat × Piece) := rowWants (10 + e.regs.headD 0) 0 e.block e.rowSource
/-- DCONV: one row converted (R193). -/
def Exec.convBlock (e : Exec) : Exec :=
  let (vs, flush) := e.keptRow 10 e.block e.rowSource
  let (p, e') := e.writeRow e.dest e.block 0 (vs.map Fp.num)
  ({ e'.countFlush flush with kept := [], block := e.block + 1, stage := 0 }).go [p]
/-- DREDUCE: one row of one source goes into the accumulators (R218–R222); after the last source the row is written (R270). -/
def Exec.reduceBlock (e : Exec) : Exec :=
  let d := e.dest
  let k := e.regs.headD 0
  let r := e.rowSource
  let (vs, flush) := e.keptRow (10 + k) e.block r
  let acc := accRow (e.bits 208 2) (if k == 0 then accRowStart (accKind r.fmt e.extended) (d.dim 0) else e.acc) (e.keptAt [10 + k, e.block, 1]) vs
  let e := { e.countFlush flush with kept := [], stage := 0 }
  if k + 1 < e.rowSources.length then ({ e with acc := acc, regs := [k + 1] }).go []
  else
    let (p, e') := e.writeRow d e.block 0 (accRowResult (e.bits 208 2) (d.dim 0) acc)
    ({ e' with acc := [], regs := [], block := e.block + 1 }).go [p]

/-! ### Partial rows (R289, R290) -/

/-- The writes of a partial row: elements 0 and 1, 3 onward, then STAMP. -/
def partialPieces (d : OpRec) (n m l stamp : Nat) (o : List Nat) : List Piece :=
  let w := fun (off : Nat) (bs : List Byte) =>
    ({ dst := some { operand := 2, va := (d.rowAddr n + off) % 2 ^ 64, scratch := d.loc }, len := bs.length, cursor := off :: d.index n, data := bs } : Piece)
  [w 0 (leBytes 4 m ++ leBytes 4 l), w 12 (leBytes 4 0 ++ (o.map (leBytes 4)).flatten), w 8 (leBytes 4 stamp)]
/-- FP32 codes written into a partial row, with their range events (R198, R289). -/
def Exec.writePartial (e : Exec) (d : OpRec) (n m : Nat) (l : Num) (o : List Num) : List Piece × Exec :=
  let lw := encodeElem 0 [] 0 l
  let ow := o.map (encodeElem 0 [] 0)
  let ws := lw :: ow
  (partialPieces d n m lw.code e.tag (ow.map Written.code),
   { e with sat := satAdd 32 e.sat (ws.filter Written.sat).length, flush := satAdd 32 e.flush (ws.filter Written.flush).length
            elems := e.elems + 4 + o.length })

/-! ### DATTN (R283–R293) -/

/-- VA of tile-unit `w` of tile `t` (R279). -/
def Stretch.unitVa (s : Stretch) (t w : Nat) : Nat := (s.base + (32 * w + t) * 4096) % 2 ^ 64
/-- Tile, group and slot of page `p` of head `h`. -/
def Stretch.place (s : Stretch) (p h : Nat) : Nat × Nat × Nat :=
  let g := p * s.hkv + h
  (g % 32, g / 32 / s.p, g / 32 % s.p)
/-- VA of element unit `u` of a page, and of its scales: of keys, or of values. -/
def Stretch.elemUnit (s : Stretch) (p h u : Nat) : Nat := let (t, q, i) := s.place p h; s.unitVa t (q * s.g + i * s.e + u)
def Stretch.scaleVa (s : Stretch) (p h : Nat) (value : Bool) : Nat :=
  let (t, q, i) := s.place p h
  (s.unitVa t (q * s.g + s.p * s.e) + i * 16 * s.dh + (if value then 8 * s.dh else 0)) % 2 ^ 64
/-- Bytes of one token's row in a part. -/
def Stretch.rowBytes (s : Stretch) : Nat := s.dh * elemBits (fElem s.kvfmt) / 8

/-- The units and scales of one part that hold the tokens of a list: keys `[1, part, page, unit]` and `[2, part, page]`. -/
def Exec.unitWants (e : Exec) (tile h : Nat) (value : Bool) (xs : List Nat) : List (List Nat × Piece) :=
  let s := e.stretchOf
  let half := s.e / 2
  let part := b2n value
  let home := if e.aLocal then some tile else none
  let pages := (xs.map (fun x => x / 256)).eraseDups
  (pages.map fun p =>
    let toks := xs.filter (fun x => x / 256 == p)
    let units := (List.range half).filter fun u => toks.any fun x =>
      let b := x % 256 * s.rowBytes
      b < (u + 1) * 4096 && u * 4096 < b + s.rowBytes
    (units.map fun u =>
      let un := if value then half + u else u
      ([1, part, p, u], ({ src := some { operand := 1, va := s.elemUnit p h un }, len := 4096, cursor := [0, un, p, h, 0], home := home } : Piece)))
      ++ [([2, part, p], { src := some { operand := 1, va := s.scaleVa p h value }, len := 8 * s.dh, cursor := [0, s.e, p, h, 0], home := home })]).flatten
/-- The row of a token from the units kept. -/
def Exec.tokenRow (e : Exec) (value : Bool) (x : Nat) : DotRow :=
  let s := e.stretchOf
  let p := x / 256
  let b := x % 256 * s.rowBytes
  let u := b / 4096
  let bytes := ((e.keptAt [1, b2n value, p, u] ++ e.keptAt [1, b2n value, p, u + 1]).drop (b % 4096)).take s.rowBytes
  let scales := ((e.keptAt [2, b2n value, p]).drop (x % 256 * (s.dh / 32))).take (s.dh / 32)
  (dotRow s.kvfmt [] 0 s.dh bytes scales []).1

/-- Rows of a key/value head: index of the query head among those served, and row (R283). -/
def Exec.headRows (e : Exec) (h : Nat) : List (Nat × Nat) :=
  ((e.queryHeads h).map fun i => (List.range e.qrows).map fun r => (i, r)).flatten
/-- Whether a row sees a position (R285). -/
def Exec.sees (e : Exec) (r x : Nat) : Bool :=
  let s := e.stretchOf
  !e.aCausal || s.tokenBase + x + e.qrows < e.tokenEnd + 1 + r
def Exec.attnQ (e : Exec) : OpRec := e.reading (e.operandRec 0)
/-- The head of the pass in progress: block 0 appends, then each head has a key pass and a value pass. -/
def Exec.attnHead (e : Exec) : Option Nat := e.headsServed[(e.block - 1) / 2]?
def Exec.attnWants (e : Exec) (tile : Nat) : List (List Nat × Piece) :=
  let s := e.stretchOf
  if e.block == 0 then
    if !e.aAppend then []
    else
      let n := s.new * s.hkv * s.dh * 2
      let src := fun (va len : Nat) => ({ src := some { operand := 1, va := va % 2 ^ 64 }, len := len } : Piece)
      [([4], src (s.appendVa + 64) n), ([5], src (s.appendVa + 64 + n) n)]
        ++ (if s.rope == 0 then [] else (List.range s.new).map fun i =>
            ([6, i], src (s.rotVa + (s.pos + i - s.tokenBase) * (s.dh / 2) * 8) (s.dh / 2 * 8)))
  else
    match e.attnHead with
    | none => []
    | some h =>
      let xs := e.visible tile h
      if e.block % 2 == 1 then
        ((e.headRows h).map fun r => rowWants 0 0 (r.2 + e.qrows * r.1) e.attnQ).flatten ++ e.unitWants tile h false xs
      else e.unitWants tile h true xs

/-- A key rotated under ROPE (R286 step 1): FP32 codes, from BF16 codes and the table's entries. -/
def rotateKey (rope dh : Nat) (rot : List Byte) (k : List Nat) : List Nat :=
  let c := fun (f : Nat) => leNat ((rot.drop (8 * f)).take 4)
  let s := fun (f : Nat) => leNat ((rot.drop (8 * f + 4)).take 4)
  (List.range dh).map fun j =>
    let (f, a, b, second) := if rope == 1 then (j / 2, j / 2 * 2, j / 2 * 2 + 1, j % 2 == 1)
      else (j % (dh / 2), j % (dh / 2), j % (dh / 2) + dh / 2, dh / 2 ≤ j)
    let ka := k.getD a 0
    let kb := k.getD b 0
    if rope == 0 then k.getD j 0
    else if second then fma32 ka (s f) (mul32 kb (c f))
    else fma32 ka (c f) (neg32 (mul32 kb (s f)))

/-- The write of one appended row: its elements cut at the units, its scales beside them (R279, R286). -/
def Exec.appendRow (e : Exec) (tile n h : Nat) (value : Bool) (codes : List Nat) : List Piece × Exec :=
  let s := e.stretchOf
  let x := s.pos + n - s.tokenBase
  let p := x / 256
  let home := if e.aLocal then some tile else none
  let f := fld s.kvfmt 0 12
  let o := encodeRow f [] 0 0 0 0 (codes.map fun c => (decode32 c).num)
  let b := x % 256 * s.rowBytes
  let sc := s.scaleVa p h value + x % 256 * (s.dh / 32)
  let base := if value then s.e / 2 else 0
  let first := Nat.min o.elems.length (4096 - b % 4096)
  let sides := (List.zip (List.range o.blocks.length) o.blocks).map fun k =>
    ({ loc := { operand := 1, va := sc + k.1 }, off := (elemPlace (fElem f) (32 * k.1)).1, data := k.2.1 } : Side)
  let w := fun (u off a len : Nat) =>
    ({ dst := some { operand := 1, va := s.elemUnit p h (base + u) + off }, len := len, cursor := [b + a, n, h, 0, 0], home := home
       data := (o.elems.drop a).take len
       side := (sides.filter (fun k => a ≤ k.off && k.off < a + len)).map (fun k => { k with off := k.off - a }) } : Piece)
  ((if first == 0 then [] else [w (b / 4096) (b % 4096) 0 first])
     ++ (if first == o.elems.length then [] else [w (b / 4096 + 1) 0 first (o.elems.length - first)]),
   { e with sat := satAdd 32 e.sat o.sat, flush := satAdd 32 e.flush o.flush, elems := e.elems + codes.length })

/-- Append the new tokens (R286). -/
def Exec.attnAppend (e : Exec) (tile : Nat) : Exec :=
  let s := e.stretchOf
  let elem := fun (key : List Nat) (n h d : Nat) =>
    leNat (((e.keptAt key).drop (((n * s.hkv + h) * s.dh + d) * 2)).take 2) * 65536
  let todo := ((List.range s.new).map fun n => (List.range s.hkv).map fun h => (n, h)).flatten.filter fun x =>
    !e.aLocal || s.tileOf ((s.pos + x.1 - s.tokenBase) / 256) x.2 == tile
  let (ps, e') := todo.foldl (fun (acc : List Piece × Exec) x =>
    let key := rotateKey s.rope s.dh (e.keptAt [6, x.1]) ((List.range s.dh).map (elem [4] x.1 x.2))
    let (a, e1) := acc.2.appendRow tile x.1 x.2 false key
    let (b, e2) := e1.appendRow tile x.1 x.2 true ((List.range s.dh).map (elem [5] x.1 x.2))
    (acc.1 ++ a ++ b, e2)) ([], e)
  ({ e' with kept := [], block := 1, stage := 0 }).go ps

/-- The output blocks of one row block against column blocks of 32, in ascending order (R292): `elem r c` gives the operands of an element;
`bn` numbers a column block. The sums of each row, and the column blocks that failed. -/
def Dots.rowBlock (seed bm : Nat) (bn : Nat → Nat) (rows : List Nat) (cols : Nat) (elem : Nat → Nat → DotRow × DotRow) (ds : Dots) :
    List (List Fp) × List Nat × Dots :=
  (List.range ((cols + 31) / 32)).foldl (fun acc b =>
    let (k, ds) := acc.2.2.block bm (bn b) seed (fun _ _ => .fin false {}) (rows.map fun r => (blockRange cols b).map fun c => elem r c)
    (List.zipWith (· ++ ·) acc.1 k.sums, if k.failed then acc.2.1 ++ [b] else acc.2.1, ds)) (rows.map fun _ => [], [], ds)

/-- The key pass: the scores of a head's rows at its visible tokens (R288 step 1), kept in score space. They raise no range events. -/
def Exec.attnScores (e : Exec) (tile h : Nat) (ds : Dots) : Exec × Dots :=
  let q := e.attnQ
  let scale := decode32 (e.bits 416 32)
  let keys := (e.visible tile h).map fun x => e.tokenRow false x
  let rows := (e.headRows h).map fun r => (e.keptDot 0 (r.2 + e.qrows * r.1) q).1
  let none' : DotRow := { vals := [], codes := [], unit := 0 }
  let (t, bad, ds) := (List.range ((rows.length + 31) / 32)).foldl (fun (acc : List (List Fp) × List Nat × Dots) rb =>
    let (s, f, ds) := acc.2.2.rowBlock e.dest.seed (64 * ((e.block - 1) / 2) + rb) (fun b => 2 * b) (blockRange rows.length rb) keys.length
      fun r c => (rows.getD r none', keys.getD c none')
    (acc.1 ++ s, acc.2.1 ++ f, ds)) ([], [], ds)
  if !bad.isEmpty then (e.poisonOut [], ds)
  else (({ e with regs := (t.map fun (r : List Fp) => r.map fun x => code32 (Fp.mul x scale)).flatten, kept := [], block := e.block + 1, stage := 0 } : Exec).go [], ds)

/-- Quantised weights of a row (R288 step 4). -/
def quantised (bf16 : Bool) (p : List Nat) : DotRow :=
  if bf16 then
    let vs := p.map fun c => decodeElem 0x2 [] (encodeElem 0x2 [] 0 (decode32 c).num).code
    { vals := vs, codes := vs, unit := codeUnit 0x2 }
  else
    let ks := (List.range ((p.length + 31) / 32)).map fun b =>
      let part := ((p.drop (32 * b)).take 32).map fun c => (decode32 c).num
      encodeBlock 0x53 [] 0 (fun _ => 0) (part ++ List.replicate (32 - part.length) (Num.fin false {}))
    let r := (dotRow 0x53 [] 0 (32 * ks.length) (packCodes 3 (ks.map Block.codes).flatten) (ks.map Block.scales).flatten []).1
    { r with vals := r.vals.take p.length, codes := r.codes.take p.length }

/-- Maximum of FP32 codes, NaN if any is (R288 step 2). -/
def max32 (l : List Nat) : Nat :=
  let v := l.map decode32
  if v.any (fun x => x == .nan) then nan32 else code32 (extreme false v)

/-- Maximum and quantised weights of a row's scores (R288 steps 2 to 4); −infinity where it sees no token. -/
def attnWeights (bf16 : Bool) (t : List Nat) : Nat × DotRow :=
  let m := if t.isEmpty then 0xFF800000 else max32 t
  (m, quantised bf16 (t.map fun x => exp2 (sub32 x m)))
/-- Dimension `j` of the values that a row sees: each element under its token's own scale (R287). -/
def valueColumn (f : Nat) (vs : List DotRow) (j : Nat) : DotRow :=
  let l := vs.map fun v => v.vals.getD j .nan
  { vals := l, codes := l, unit := codeUnit f - 127 }

/-- A row of the value pass: its row of the partial, maximum, weights, and the values that it sees. -/
structure AttnRow where
  n : Nat := 0
  m : Nat := 0
  w : DotRow := { vals := [], codes := [], unit := 0 }
  vs : List DotRow := []
  deriving Inhabited

/-- The value pass: the partial rows of a head (R288, R289). -/
def Exec.attnOutput (e : Exec) (tile h : Nat) (ds : Dots) : Exec × Dots :=
  let s := e.stretchOf
  let d := e.dest
  let xs := e.visible tile h
  let vals := xs.map fun x => (x, e.tokenRow true x)
  let rows := (e.headRows h).zipIdx.map fun r =>
    let t : List ((Nat × DotRow) × Nat) := (List.zip vals ((e.regs.drop (r.2 * xs.length)).take xs.length)).filter fun k => e.sees r.1.2 k.1.1
    let (m, w) := attnWeights e.aBf16 (t.map Prod.snd)
    ({ n := r.1.2 + e.qrows * r.1.1, m := m, w := w, vs := t.map fun (k : (Nat × DotRow) × Nat) => k.1.2 } : AttnRow)
  let (o, bad, ds) := (List.range ((rows.length + 31) / 32)).foldl (fun (acc : List (List Fp) × List (Nat × Nat) × Dots) rb =>
    let (x, f, ds) := acc.2.2.rowBlock d.seed (64 * ((e.block - 1) / 2) + rb) (fun b => 2 * b + 1) (blockRange rows.length rb) s.dh
      fun r c => let k := rows.getD r default; (k.w, valueColumn s.kvfmt k.vs c)
    (acc.1 ++ x, acc.2.1 ++ f.map (fun b => (rb, b)), ds)) ([], [], ds)
  if bad.isEmpty then
    let (ps, e') := (List.zip rows o).foldl (fun (acc : List Piece × Exec) r =>
      let (p, e1) := acc.2.writePartial d r.1.n r.1.m (sumExact r.1.w.vals).num (r.2.map Fp.num)
      (acc.1 ++ p, e1)) ([], e)
    (({ e' with regs := [], kept := [], block := e.block + 1, stage := 0 }).go ps, ds)
  else
    (e.poisonOut (bad.map fun b => (blockRange rows.length b.1).map fun i =>
      let n := (rows.getD i default).n
      let off := 4 * (4 + 32 * b.2)
      let len := 4 * (blockRange s.dh b.2).length
      ({ dst := some { operand := 2, va := (d.rowAddr n + off) % 2 ^ 64, scratch := d.loc }, len := len, cursor := off :: d.index n
         data := List.replicate len 0#8 } : Piece)).flatten, ds)

/-- DATTN: the next pass. -/
def Exec.attnBlock (e : Exec) (tile : Nat) (ds : Dots) : Exec × Dots :=
  if e.block == 0 then (if e.aAppend then e.attnAppend tile else { e.go [] with block := 1, stage := 0 }, ds)
  else
    match e.attnHead with
    | none => (e.bodyDone, ds)
    | some h => if e.block % 2 == 1 then e.attnScores tile h ds else e.attnOutput tile h ds
/-- A resumed DATTN computes the head in progress again from its first visible token; what it has written stays (R292). -/
def Exec.restartHead (e : Exec) : Exec :=
  if e.type != 4 || e.phase != 1 || e.block == 0 || e.stage != 1 then e
  else { e with block := e.block - (e.block - 1) % 2, stage := 0, kept := [], regs := [], run := { e.run with pieces := [], got := [] } }

/-! ### DMERGE (R296–R298) -/

/-- The stamps that have not matched: partial and row. A shadow of another encoding has no stamp (log entry 27). -/
def Exec.unmatched (e : Exec) : List (Nat × Nat) :=
  let srcs := e.rowSources
  ((List.range srcs.length).map fun i => (List.range (srcs.headD {}).rows).map fun n => (i, n)).flatten.filter
    fun x => (srcs.getD x.1 {}).fmt == 0 && !e.kept.any (fun k => k.1 == [9, x.1, x.2])
/-- Block 0 reads stamps; block n + 1 reads row n of every partial. -/
def Exec.mergeWants (e : Exec) : List (List Nat × Piece) :=
  let srcs := e.rowSources
  if e.block == 0 then
    e.unmatched.map fun x =>
      let r := srcs.getD x.1 {}
      ([9, x.1, x.2], { src := some { operand := 0, va := (r.rowAddr x.2 + 8) % 2 ^ 64, scratch := r.loc }, len := 4, cursor := 8 :: r.index x.2 })
  else
    (srcs.zipIdx.map fun x => rowWants (10 + x.2) 0 (e.block - 1) x.1).flatten
/-- Whether every row of every partial has matched; the others are read again at a poll (R297). -/
def Exec.mergeStamps (e : Exec) : Exec :=
  let e := { e with kept := e.kept.filter (fun k => leNat k.2 == e.tag) }
  if e.unmatched.isEmpty then { e.go [] with kept := [], block := 1, stage := 0 } else { e.go [] with stage := 2 }
/-- An exact quotient of two sums (R298 step 6). -/
def quotient (o l : Fp) : Num :=
  match o, l with
  | .nan, _ => .nan
  | _, .nan => .nan
  | .inf _, .inf _ => .nan
  | .inf s, .fin t y => if y.m == 0 then .nan else .inf (s != t)
  | .fin s _, .inf t => .fin (s != t) {}
  | .fin s x, .fin t y => if y.m == 0 then .nan else .fin (s != t) (Ratio.quot (Ratio.ofDyadic x) y)
/-- One merged row: m, l, o with the sums, and the quotients of FINAL (R298). Step 1 goes before step 2, so an element that is NaN in
some partial is NaN even where M is −infinity (log entry 27). -/
def mergeRow (dh : Nat) (parts : List (List Nat)) : Nat × Num × List Num × List Num :=
  let ms := parts.map fun r => r.getD 0 0
  let ls := parts.map fun r => r.getD 1 0
  let nans := List.replicate dh Num.nan
  let zeros := (List.range dh).map fun j => if parts.any (fun r => decode32 (r.getD (4 + j) 0) == .nan) then Num.nan else Num.fin false {}
  if (ms ++ ls).any (fun c => decode32 c == .nan) then (nan32, .nan, nans, nans)
  else
    let m := max32 ms
    if m == 0xFF800000 then (m, .fin false {}, zeros, zeros)
    else if m == 0x7F800000 then (nan32, .nan, nans, nans)
    else
      let ws := ms.map fun x => exp2 (sub32 x m)
      let l := sumExact (List.zipWith (fun w x => decode32 (mul32 w x)) ws ls)
      let os := (List.range dh).map fun j => sumExact (List.zipWith (fun w r => decode32 (mul32 w (r.getD (4 + j) 0))) ws parts)
      (m, l.num, os.map Fp.num, os.map fun o => quotient o l)
/-- DMERGE: one row (R298). -/
def Exec.mergeBlock (e : Exec) : Exec :=
  let srcs := e.rowSources
  let p := srcs.headD {}
  let d := e.dest
  let n := e.block - 1
  if e.block == 0 then e.mergeStamps
  else if p.rows ≤ n then e.bodyDone
  else
    let parts := srcs.zipIdx.map fun x =>
      if x.1.fmt == 0 then
        let bs := e.keptAt [10 + x.2, n, 0]
        (List.range (p.dim 0)).map fun k => leNat ((bs.drop (4 * k)).take 4)
      else ((e.keptRow (10 + x.2) n x.1).1).map code32
    let (m, l, o, f) := mergeRow (p.dim 0 - 4) parts
    let (ps, e') := if e.bits 208 1 == 0 then e.writePartial d n m l o else (let (q, e') := e.writeRow d n 0 f; ([q], e'))
    ({ e' with kept := [], block := e.block + 1, stage := 0 }).go ps

/-! ### The body of a computing descriptor -/

def Exec.wants (e : Exec) (tile : Nat) : List (List Nat × Piece) :=
  match e.type with
  | 3 => if e.gemmBlocks ≤ e.block then [] else e.gemmWants
  | 4 => e.attnWants tile
  | 5 => if (e.sources.headD {}).rows < e.block then [] else e.mergeWants
  | _ => if e.dest.rows ≤ e.block then [] else e.rowsWants
def Exec.computeBlock (e : Exec) (tile : Nat) (ds : Dots) : Exec × Dots :=
  match e.type with
  | 3 => if e.gemmBlocks ≤ e.block then (e.bodyDone, ds) else e.gemmBlock ds
  | 4 => e.attnBlock tile ds
  | 5 => (e.mergeBlock, ds)
  | 6 => (if e.dest.rows ≤ e.block then e.bodyDone else e.reduceBlock, ds)
  | _ => (if e.dest.rows ≤ e.block then e.bodyDone else e.convBlock, ds)
/-- Read what the block in progress lacks, or compute it. -/
def Exec.computeNext (e : Exec) (tile : Nat) (ds : Dots) : Exec × Dots :=
  let w := (e.wants tile).filter fun x => !e.kept.any (fun k => k.1 == x.1)
  if e.stage == 0 && !w.isEmpty then (({ e with stage := 1 }).go (w.map Prod.snd), ds)
  else
    let new := if e.stage == 1 then List.zip (w.map Prod.fst) (splitBytes (w.map fun x => x.2.len) e.data) else []
    ({ e with kept := e.kept ++ new }).computeBlock tile ds

/-- The next pieces of a body whose pieces are done, or its end; a failed output block ends it with POISON (R232). -/
def Exec.bodyNext (e : Exec) (tile : Nat) (ds : Dots) : Exec × Dots :=
  if e.stage == 3 then (e.endWith stPoison e.cursor 2, ds)
  else match e.type with
  | 1 => (e.copyNext, ds)
  | 2 => (e.fillNext, ds)
  | 8 => (e.tableNext, ds)
  | 9 => (e.tableNext, ds)
  | 10 => (e.atomicNext, ds)
  | 11 => (e.fenceNext, ds)
  | 12 => (e.eventNext, ds)
  | _ => e.computeNext tile ds

end Sys2Proof.Machine
end

