-- ==== Sys2Proof/Machine/Queues.lean ====
section
/-!
DEFINITION. Queues (chapter 08): QUEUE.CREATE, DESTROY and QUERY, doorbells, fetching, starting, the chunks of a descriptor,
completion and halts (R236–R263), polls (R272, R297), and the answers to faults (R73–R77).
-/
namespace Sys2Proof.Machine
open Sys2Proof

def Hw.queue (h : Hw) (q : Nat) : Queue := KMap.get h.queues q
/-- The module runs a queue: out of a pair, or active for its service (R486). -/
def runsQueue (h : Hw) (q : Nat) : Bool := runsFor h (h.queue q).service
def Hw.setQueue (h : Hw) (q : Nat) (x : Queue) : Hw := { h with queues := KMap.ins h.queues q x }
/-- Change a fetched descriptor. -/
def Hw.setExec (h : Hw) (q i : Nat) (e : Exec) : Hw := { h with queues := KMap.upd h.queues q fun x => { x with execs := KMap.ins x.execs i e } }
def Hw.dropExec (h : Hw) (q i : Nat) : Hw := { h with queues := KMap.upd h.queues q fun x => { x with execs := KMap.erase x.execs i } }

/-- Working area of a tile in bytes (R238). -/
def workingArea : Nat := 1835008
/-- Space that every descriptor takes. -/
def baseSpace : Nat := 16384
/-- Space held on a tile (R238). -/
def spaceHeld (h : Hw) (t : Nat) : Nat := ((queuesOn h t).map fun q => (q.2.executing.map fun e => e.2.space).foldl (· + ·) 0).foldl (· + ·) 0
/-- ACC_BYTES of a group (R302). -/
def Group.accBytes (g : Group) : Nat := alignUp 4096 (41 * 2 ^ g.segLog2)
/-- Collective scratch that the groups reserve on each tile (R302). -/
def scratchReserved (h : Hw) : Nat := (h.colls.map fun g => g.2.openSegs * g.2.accBytes).foldl (· + ·) 0
/-- Bytes of B that the DGEMMs of a tile have staged (R269). -/
def stagedBytes (h : Hw) (t : Nat) : Nat :=
  ((queuesOn h t).map fun q => (q.2.executing.map fun e => if e.2.type == 3 && e.2.regs.getD 0 0 == 1 then e.2.gemmBBytes else 0).foldl (· + ·) 0).foldl (· + ·) 0
/-- Free scratch in which a DGEMM may stage its B (R269). -/
def stagingRoom (h : Hw) (t : Nat) : Nat := workingArea + 2097152 - spaceHeld h t - scratchReserved h - stagedBytes h t
/-- A DGEMM gives up its staged B: the bm in progress still has it, and from the next bm on B is read from memory (R269). -/
def Exec.unstage (e : Exec) : Exec :=
  if e.type != 3 || e.regs.getD 0 0 != 1 then e
  else if e.gemmAt.bn != 0 || e.stage != 0 then { e with regs := [2] }
  else { e with regs := [0], kept := e.kept.filter fun k => k.1.getD 0 0 != 1 }
/-- Staged B that no free scratch holds any more is given up (R269). -/
def settleStaging (h : Hw) (t : Nat) : Hw :=
  if spaceHeld h t + scratchReserved h + stagedBytes h t ≤ workingArea + 2097152 then h
  else { h with queues := h.queues.map fun q =>
      if q.2.tile == t then (q.1, { q.2 with execs := q.2.execs.map fun e => (e.1, e.2.unstage) }) else q }

/-! ### QUEUE.CREATE (R237) -/

/-- Free 64 KiB units of a tile's queue scratch (R238). -/
def freeUnits (h : Hw) (t : Nat) : Nat := 64 - ((queuesOn h t).map fun q => q.2.scratch).foldl (· + ·) 0
/-- The one region that holds `n` bytes from an FPA of this module. -/
def regionOfRange (h : Hw) (fpa n : Nat) : Option Nat :=
  let a := fpaOffset fpa
  match regionAt h (granuleOf a) with
  | some g => if (List.range ((a + n - 1) / 2097152 - a / 2097152 + 1)).all (fun i => regionAt h (a / 2097152 + i) == some g) then some g else none
  | none => none
/-- QUEUE.CREATE: the first result of R237 that applies. -/
def queueCreate (q : Req) (h : Hw) : Hw × Option Reply :=
  let (id, c, t, ring, log2) := (q.p 0, q.p 1, q.p 2, q.p 3, q.p 4)
  let x := h.ctx c
  if !poolOpen h then (h, some (Reply.busy rNotReady))
  else if KMap.has h.queues id then (h, some (Reply.busy rState))
  else if (createService h).isNone then (h, some (Reply.denied rPair))
  else if log2 < 4 || 16 < log2 || 64 < q.p 5 || q.p 6 == 0 || 8 < q.p 6 || q.p 7 < 10 || 5000 < q.p 7
      || ring % 4096 != 0 || !inPoolFor h (if x.bound then x.service else (createService h).getD 0) ring then (h, some (Reply.denied rRange))
  else
    match regionOfRange h ring (64 * 2 ^ log2) with
    | none => (h, some (Reply.denied rRange))
    | some g =>
      if !x.bound then (h, some (Reply.denied rState))
      else if !hasRight h (h.region g) x.agent .read then (h, some (Reply.denied rRights))
      else if h.pair.state != 0 && (!(h.region g).mirrored || createService h != some x.service) then (h, some (Reply.denied rPair))
      else if h.bist.failed.contains t then (h, some (Reply.denied rState))
      else if bistHolds h t then (h, some (Reply.busy rState))
      else if 128 ≤ (queuesOn h t).length || freeUnits h t < q.p 5 then (h, some (Reply.busy rResource))
      else
        (h.setQueue id { ctx := c, tile := t, ring := ring, ringLog2 := log2, scratch := q.p 5, inflight := q.p 6, e2e := q.p 7, service := x.service },
         some (Reply.ok))
def execQueueCreate (m : Fin 16) (s : State) : Result :=
  commit (fun s => busyFirst s m.val 0x601 [.f 12, .f 16, .f 5, .f 60, .f 5, .f 7, .f 4, .f 16]
    rState (fun v h => poolOpen h && KMap.has h.queues (v.getD 0 0)) queueCreate) s

/-- QUEUE.QUERY (R241). -/
def queueRecord (h : Hw) (id : Nat) : List Byte :=
  let q := h.queue id
  items ([.f 12 id, .f 16 q.ctx, .f 5 q.tile, .f 60 q.ring, .f 5 q.ringLog2, .f 7 q.scratch, .f 4 q.inflight, .f 16 q.e2e, .f 1 (b2n q.halted),
    .f 12 q.service, .f 32 q.haltIndex, .f 8 q.haltReason, .f 32 q.head, .f 32 q.tail, .f 32 q.executing.length,
    .f 32 (q.executing.filter (fun e => e.2.run.stall != 0)).length, .f 32 (KMap.get q.counts 12)]
    ++ ((List.range 12).map fun k => Item.f 32 (KMap.get q.counts k)) ++ [.f 32 (KMap.get q.counts 13), .f 32 (KMap.get q.counts 14)])
def queueQuery (q : Req) (h : Hw) : Hw × Option Reply :=
  (h, some (if KMap.has h.queues (q.p 0) then Reply.ok (queueRecord h (q.p 0)) else Reply.denied rState))
def execQueueQuery (m : Fin 16) (s : State) : Result := .next (runHw s m.val 0x603 [.f 12] false queueQuery)

/-! ### Doorbells (R242, R243, R248) -/

/-- Who may use the doorbell page of a context (R93, R105). -/
def mayDoorbell (h : Hw) (who : Requester) (c : Nat) : Bool :=
  match who with
  | .pcie => true
  | .fabric n => !isDead h n && (((h.ctx c).bound && (h.ctx c).agent == n) || h.sys.mgmt.contains n)

/-- DBL_RING (R243). -/
def doorbell (who : Requester) (c v : Nat) (h : Hw) : Hw :=
  let id := fld v 0 12
  let tail := fld v 32 32
  if !mayDoorbell h who c then h
  else if !(h.ctx c).bound || !KMap.has h.queues id || (h.queue id).ctx != c then ctxCount h c 6
  else
    let q := h.queue id
    let d := (tail + 2 ^ 32 - q.head) % 2 ^ 32
    let old := (q.tail + 2 ^ 32 - q.head) % 2 ^ 32
    if old ≤ d && d ≤ 2 ^ q.ringLog2 then askWake (h.setQueue id { q with tail := tail }) else queueCount h id 13
def execDblRing (who : Requester) (ctx : Fin 65536) (value : Word) (s : State) : Result :=
  commit (fun s => s.onHw (doorbell who ctx.val value.toNat)) s

/-- DBL_QUEUE_CTL with RESTART (R248). -/
def restart (who : Requester) (c v : Nat) (h : Hw) : Hw :=
  let id := fld v 0 12
  if !mayDoorbell h who c || fld v 12 2 != 1 || !(h.ctx c).bound || !KMap.has h.queues id || (h.queue id).ctx != c then h
  else
    let q := h.queue id
    if q.halted then h.setQueue id { q with halted := false, haltIndex := 0, haltReason := 0 } else h
def execQueueRestart (who : Requester) (ctx : Fin 65536) (value : Word) (s : State) : Result :=
  commit (fun s => s.onHw (restart who ctx.val value.toNat)) s

/-- A queue halts; the first halting index and reason stay (R248). -/
def halt (h : Hw) (id i reason : Nat) : Hw :=
  let q := h.queue id
  let h := if q.halted then h else h.setQueue id { q with halted := true, haltIndex := i, haltReason := reason }
  raise h (16 * q.tile + 1) id

/-! ### Fetching (R244, R245) -/

/-- Abort a fetched descriptor (R42, R239): a stall is released, reads are abandoned, a chunk whose writes are on their way is committed. It
completes with ABORTED though it had ended, unless bytes 0 to 7 of its record are on their way; one whose slot is still being read is
aborted when it has been read. -/
def abortExec (id i : Nat) (e : Exec) (h : Hw) : Hw :=
  if e.desc.isEmpty || e.phase == 2 && (match e.run.chunk with | some c => c.wrote && c.piece.fence | none => false) then h
  else
    let h := match e.run.fault with | some (t, k) => leaveFault h t k { queue := id, index := i } | none => h
    let h := match e.run.chunk with | some c => if c.wrote then h else abandonParts h c.reads | none => h
    let p := e.run.pieces.headD {}
    let (c, o) :=
      if e.ended then (e.cursor, e.operand)
      else if e.run.stall != 0 || e.run.failed != 0 then (e.run.cursor, e.run.operand)
      else (p.cursor, if p.src.isSome then operandOf p.src else operandOf p.dst)
    h.setExec id i { e with ended := true, code := stAborted, cursor := c, operand := o, phase := Nat.min e.phase 1
                            run := { e.run.stop with stall := 0, fault := none, failed := 0 } }

/-- A queue that is being destroyed and has no descriptor left goes; the mailbox that waits is answered when no other queue or
collective group waits with it (R42, R239). -/
def settleDestroy (id : Nat) (h : Hw) : Hw :=
  let q := h.queue id
  if KMap.has h.queues id && q.ending && q.execs.isEmpty then { h with queues := KMap.erase h.queues id } else h

/-- A slot read has its answer: the descriptor stands fetched, or the queue halts (R248); in a queue that is being destroyed it is aborted,
or dropped where the read gave none. -/
def settleFetch (id : Nat) (h : Hw) : Hw :=
  let q := h.queue id
  match List.find? (fun e : Nat × Exec => !e.2.fetch.isEmpty) q.execs with
  | none => h
  | some (i, e) =>
    if !partsDone h e.fetch then h
    else
      let (bs, pz) := partsData h e.fetch
      let code := partsCode h e.fetch
      let h := dropParts h e.fetch
      if code != 0 || pz.any (fun z => z) then
        let h := h.dropExec id i
        if q.ending then settleDestroy id h else halt (h.setQueue id { h.queue id with head := i }) id i 3
      else
        let e := { e with desc := bs, fetch := [] }
        let h := queueCount (h.setExec id i e) id 12
        if q.ending then abortExec id i e h else h

/-- Begin the read of the slot at HEAD, with the rights that its check gave, and move HEAD past it (R244). -/
def readSlot (id : Nat) (gs : List (Nat × Nat)) (s : State) : State :=
  let q := s.hw.queue id
  let x := readParts s q.tile id (speaksAs s.hw q.service) 0 (q.ring + 64 * (q.head % 2 ^ q.ringLog2)) 64 gs
  x.2.onHw fun h =>
    let q := h.queue id
    settleFetch id ((h.setQueue id { q with head := (q.head + 1) % 2 ^ 32 }).setExec id q.head { fetch := x.1 })

/-- A mailbox whose queues have all gone is answered (R239). -/
def settleQueueDestroy (h : Hw) : Hw :=
  forAll (workers h 0x602) (fun m h => if h.queues.any (fun q => q.2.waiter == some m) then h else answer h m Reply.ok) h

/-- Read the next slot that an accepted doorbell covers, as the context's AGENT (R244): at most 8 ahead of the oldest descriptor
not yet started. -/
def fetch (id : Nat) (s : State) : State :=
  let q := s.hw.queue id
  if !KMap.has s.hw.queues id || !runsQueue s.hw id then s
  else if q.halted || q.ending || q.execs.any (fun e => !e.2.fetch.isEmpty) then s.onHw (settleFetch id)
  else if q.head == q.tail || 8 ≤ (q.head + 2 ^ 32 - q.next) % 2 ^ 32 then s
  else
    let a := fpaOffset q.ring + 64 * (q.head % 2 ^ q.ringLog2)
    match permitRange s.hw (s.hw.ctx q.ctx).agent (fpaNode q.ring) a 64 .read with
    | (.denied, h) => { s with hw := halt h id q.head 3 }
    | (.held, h) => { s with hw := h }
    | (.ok gs, h) => readSlot id gs { s with hw := h }
def execDescFetch (qid : Fin 4096) (s : State) : Result := commit (fun s => (fetch qid.val s).onHw settleQueueDestroy) s

/-! ### Going on with a descriptor -/

/-- Who moves the bytes of a descriptor. -/
def execEnv (h : Hw) (id i : Nat) (e : Exec) : RunEnv :=
  let q := h.queue id
  { tile := q.tile, ctx := q.ctx, queue := id, src := speaksAs h q.service, agent := (h.ctx q.ctx).agent, sclass := e.sclass
    waiter := { queue := id, index := i }, dropFaults := q.ending
    progress := if e.chunkEv && e.phase == 1 then some (e.compVa + 32) else none }

/-- One change of a descriptor that has no piece left: from control data to its body, or within its body (R254). The result says
whether anything changed. -/
def Exec.turn (h : Hw) (id : Nat) (e : Exec) : Bool × Exec × Dots :=
  let q := h.queue id
  let ds : Dots := { todo := (h.tile q.tile).dotFaults }
  if !e.started || e.ended || e.run.stall != 0 || e.run.chunk.isSome then (false, e, ds)
  else if e.run.failed != 0 then
    (true, { e.endWith e.run.failed e.run.cursor e.run.operand with finish := if e.run.operand == 7 then 2 else 0 }, ds)
  else if !e.run.pieces.isEmpty then (false, e, ds)
  else if e.run.got.any (fun g => g.2.any (fun z => z)) then
    (true, e.endWith stPoison e.run.poisonCursor e.run.poisonOperand, ds)
  else if e.phase == 0 then
    let miss := e.missing
    let e := if e.stage == 1 then
        { e with stage := 0, records := (List.zip miss (splitBytes (miss.map fun m => m.2.2) e.data)).foldl
                    (fun r x => KMap.ins r (ctlKey x.1.2.1 x.1.2.2) x.2) e.records }
      else e
    if e.badRecords (65536 * q.scratch) then (true, e.deny, ds)
    else
      let miss := e.missing
      if !miss.isEmpty then
        (true, ({ e with stage := 1 }).go (miss.map fun m : Nat × Nat × Nat => { src := some { operand := m.1, va := m.2.1 }, len := m.2.2 }), ds)
      else if e.badShapes q.tile then (true, e.deny, ds)
      else
        let space := if e.type == 4 then baseSpace + 4 * e.scoreSpace q.tile else baseSpace
        if workingArea < space then (true, e.deny, ds)
        else if workingArea < spaceHeld h q.tile - e.space + space then (false, e, ds)
        else
          let staged := e.type == 3 && e.gemmBBytes ≤ stagingRoom h q.tile
          (true, ({ e with phase := 1, stage := 0, block := 0, space := space, extended := e.type == 6 && h.sys.reduce != 2
                           since := if e.type == 5 then e.since else h.time.now, regs := if staged then [1] else [] }).go [], ds)
  else if e.stage == 2 then (false, e, ds)
  else
    -- a new batch element stages its B afresh, in a re-run the first one too (R269)
    let e := if e.type == 3 && e.stage == 0 && e.gemmAt.bm == 0 && e.gemmAt.bn == 0 && (e.block != 0 || e.reran) && e.regs.getD 0 0 == 0 then
        { e with regs := if e.gemmBBytes ≤ stagingRoom h q.tile then [1] else [0] } else e
    (true, e.bodyNext q.tile ds)

/-- Poison that a descriptor consumed is logged (R368, R383); INFO and DETAIL are not given (log entry 3). -/
def logPoison (h : Hw) (t addr : Nat) : Hw := logOpen h (32 + t) 2 0x10 none (some addr)
/-- What the dot array did is kept: each recomputed block is a CE, each failed one a UE, and both raise TILE_RESIDUE (R232, R383). Such an
entry concerns no one word: its INFO, ADDR and DETAIL are free values (log entry 3). -/
def dotsDone (t : Nat) (ds : Dots) (h : Hw) : Hw :=
  let note := fun (n sev code : Nat) (h : Hw) => forBelow n (fun _ h => raise (logOpen h (32 + t) sev code none none) (16 * t + 5) 0) h
  let h := if ds.todo == (h.tile t).dotFaults then h else h.setTile t { h.tile t with dotFaults := ds.todo }
  note ds.failed 2 0x12 (note ds.corrected 0 0x11 h)

/-- Turn a descriptor until it has pieces to run, waits, or has ended. -/
def turns : Nat → Hw → Nat → Nat → Hw
  | 0, h, _, _ => h
  | n + 1, h, id, i =>
    match KMap.find? (h.queue id).execs i with
    | none => h
    | some e =>
      let (more, e', ds) := Exec.turn h id e
      if !more then h
      else
        let h := if e'.ended && e'.code == stPoison && e.run.failed == 0 && e.stage != 3 && e.type != 10 && e.type != 12 then
            logPoison h (h.queue id).tile e.run.poisonAt else h
        let h := dotsDone (h.queue id).tile ds h
        turns n (settleStaging (h.setExec id i e') (h.queue id).tile) id i
def settleExec (id i : Nat) (h : Hw) : Hw := turns 600 h id i

/-- Change a descriptor's run. -/
def onRun (id i : Nat) (f : RunEnv → Run → State → Run × State) (s : State) : State :=
  match KMap.find? (s.hw.queue id).execs i with
  | none => s
  | some e =>
    let (r, s) := f (execEnv s.hw id i e) e.run s
    s.onHw fun h =>
      match KMap.find? (h.queue id).execs i with
      | some e => h.setExec id i { e with run := r }
      | none => h

/-! ### Pre-translation (R55, R56) -/

/-- The pieces of the writes of one block of a computing descriptor: where they go, without their bytes. -/
def Exec.writesOf (e : Exec) : List Piece :=
  let d := e.dest
  let at' := fun (va len : Nat) => if len == 0 then [] else [({ dst := some { operand := 2, va := va % 2 ^ 64 }, len := len } : Piece)]
  let row := fun (n first len : Nat) =>
    let off := (elemPlace (fElem d.fmt) first).1
    (if d.loc then [] else at' (d.rowAddr n + off) len) ++ at' (d.scaleAddr n) (scaleBytes d.fmt (d.dim 0)) ++ at' (d.sideAddr n) (sideBytes d.fmt (d.dim 0))
  match e.type with
  | 3 =>
    let g := e.gemmAt
    ((blockRange (d.dim 1) g.bm).map fun i =>
      row (gemmRow d d g.batch i) (32 * g.bn) (rowBytes (fElem d.fmt) (blockRange (d.dim 0) g.bn).length)).flatten
  | 4 =>
    if e.block == 0 || e.block % 2 == 1 then []
    else match e.attnHead with
      | some h => ((e.headRows h).map fun r => row (r.2 + e.qrows * r.1) 0 (d.rowLen false)).flatten
      | none => []
  | 5 => if e.block == 0 then [] else row (e.block - 1) 0 (d.rowLen false)
  | _ => row e.block 0 (d.rowLen false)

/-- Pieces of block `b` of a descriptor's body, as far as they are known before it runs, in chunk order; none past its end. -/
def Exec.aheadAt (e : Exec) (tile b : Nat) : Option (List Piece) :=
  let src := fun (operand va len : Nat) => ({ src := some { operand := operand, va := va % 2 ^ 64 }, len := len } : Piece)
  match e.type with
  | 1 =>
    let x := e.rawRec 0
    let y := e.rawRec 2
    if y.rows ≤ b then none
    else some [{ src := some { operand := 0, va := x.rowAddr b, scratch := x.loc }, dst := some { operand := 2, va := y.rowAddr b, scratch := y.loc }, len := y.dim 0 }]
  | 2 =>
    let y := e.rawRec 2
    if y.rows ≤ b then none else some [{ dst := some { operand := 2, va := y.rowAddr b, scratch := y.loc }, len := y.dim 0 }]
  | 8 | 9 =>
    let w := if e.bits 256 1 == 1 then 8 else 4
    let rows := e.operandRec (if e.type == 8 then 2 else 0)
    let l : Loc := { operand := if e.type == 8 then 2 else 0, va := rows.rowAddr b, scratch := rows.loc }
    if e.bits 288 32 ≤ b then none
    else some [src 4 (e.bits 192 64 + w * b) w,
      if e.type == 8 then { dst := some l, len := rows.rowLen false } else { src := some l, len := rows.rowLen false }]
  | 10 => if b == 0 then some [atomicPiece (e.bits 128 64) 1 0 0] else none
  | 11 => if b == 0 && e.bits 128 64 != 0 then some [src 0 (e.bits 128 64) 8] else none
  | 12 =>
    if b != 0 || e.bits 128 64 == 0 then none
    else if e.bits 256 1 == 1 then some [atomicPiece (e.bits 128 64) 1 0 0] else some [{ dst := some { operand := 0, va := e.bits 128 64 }, len := 8 }]
  | t =>
    let last := if t == 3 then e.gemmBlocks ≤ b else if t == 4 then 2 * e.headsServed.length < b
      else if t == 5 then (e.sources.headD {}).rows < b else e.dest.rows ≤ b
    if last then none
    else
      let e := { e with block := b, stage := 0 }
      some (((e.wants tile).filter fun x => !e.kept.any (fun k => k.1 == x.1)).map Prod.snd ++ e.writesOf)

/-- Whether what a descriptor's operands are is known: they stand in the descriptor, or its records have been read. -/
def Exec.operandsKnown (e : Exec) : Bool := e.phase == 1 || (e.type == 1 || e.type == 2) && !e.shaped || 10 ≤ e.type

/-- The first page ahead, in chunk order, that no entry covers, with its access (R55): the tile looks until the descriptor holds 64
entries ahead of the chunk in progress, or its operands end; what one chunk reads and writes lies on few pages, so 64 entries reach
at least 8 chunks ahead. -/
def pageAhead (cover : Nat → Option (Nat × Nat)) (more : Nat → Option (List Piece)) :
    Nat → List Piece → Nat → List (Nat × Nat) → Option (Nat × Nat)
  | 0, _, _, _ => none
  | f + 1, [], b, held =>
    match more b with
    | some ps => pageAhead cover more f ps (b + 1) held
    | none => none
  | f + 1, p :: r, b, held =>
    if 64 ≤ held.length then none
    else
      let at' := fun (acc : Nat) (l : Option Loc) => match l with | some l => if l.scratch then [] else [(l.va, acc)] | none => []
      let need := at' (if p.atomic then 2 else 0) p.src ++ at' 1 p.dst ++ (p.side.filter (fun x => x.off == 0)).map fun x => (x.loc.va, 1)
      match need.find? (fun x => (cover x.1).isNone) with
      | some x => some x
      | none =>
        let pages := need.filterMap fun x => (cover x.1).map fun c => (c, c.1 + c.2 - x.1)
        let n := if p.atomic then p.len else pages.foldl (fun n c => Nat.min n c.2) p.len
        let rest := p.after n
        pageAhead cover more f (if rest.len == 0 || n == 0 then r else rest :: r) b ((held ++ pages.map Prod.fst).eraseDups)

/-- Pages ahead of a descriptor: those of its pieces and of the blocks after them; of one whose operands are not known yet, the control
data that names them (log entry 10). -/
def nextPage (h : Hw) (id : Nat) (e : Exec) : Option (Nat × Nat) :=
  let q := h.queue id
  let cover := fun (va : Nat) =>
    ((h.tile q.tile).pre.find? fun p => p.ctx == q.ctx && !p.stale && p.va ≤ va && va < p.va + p.size).map fun p => (p.va, p.size)
  let control := e.missing.map fun m => ({ src := some { operand := m.1, va := m.2.1 }, len := m.2.2 } : Piece)
  let known := e.operandsKnown
  pageAhead cover (if known then e.aheadAt q.tile else fun _ => none) (2 ^ 40)
    (if e.run.pieces.isEmpty && !known then control else e.run.pieces) (if known then e.block else 0) []

/-- Walk the first page ahead that the tile holds no entry for, and keep the result, valid or absent (R56). -/
def preWalk (id i : Nat) (s : State) : State :=
  let q := s.hw.queue id
  match KMap.find? q.execs i with
  | none => s
  | some e =>
    if e.desc.isEmpty || e.ended || !runsQueue s.hw id then s
    else
      match nextPage s.hw id e with
      | none => s
      | some (va, acc) =>
        let put := fun (r : List (Nat × Nat)) (h : Hw) =>
          match KMap.find? (h.queue id).execs i with
          | some e => h.setExec id i { e with run := { e.run with walkReads := r } }
          | none => h
        let absent := fun (w : Walker) => w.s.onHw fun h =>
          keepPre (dropWalks (put [] h) { walkReads := w.reads }) q.tile { ctx := q.ctx, va := va / 4096 * 4096, size := 4096, absent := true }
        match walk q.tile q.ctx va { s := s, reads := e.run.walkReads, sclass := e.sclass } with
        | (.wait, w) => w.s.onHw (put w.reads)
        | (.ok t, w) =>
          if t.allows acc then w.s.onHw fun h => keepPre (dropWalks (put [] h) { walkReads := w.reads }) q.tile t else absent w
        | (_, w) => absent w
def execPreTranslationWalk (qid : Fin 4096) (idx : Nat) (s : State) : Result := commit (preWalk qid.val idx) s

/-! ### Starting (R245, R246, R254) -/

/-- Whether the next descriptor of a queue can start. The space of a DATTN is known when its stretch has been read: its validation goes before,
and until it has its space and starts no later descriptor of the queue does (R245, R291, log entry 27). -/
def canStart (h : Hw) (id : Nat) : Bool :=
  let q := h.queue id
  let onTile := ((queuesOn h q.tile).map fun p => p.2.executing.length).foldl (· + ·) 0
  match KMap.find? q.execs q.next with
  | none => false
  | some e =>
    !e.desc.isEmpty && !e.started && !e.ended && !q.halted && !q.ending
      && q.executing.all (fun x => x.2.run.stall == 0)
      && q.executing.length < q.inflight && onTile < 16
      && (e.type == 4 || spaceHeld h q.tile + baseSpace ≤ workingArea)
      && q.executing.all (fun x => x.2.type != 4 || x.2.phase != 0 || x.2.ended)
      && (q.executing.isEmpty || !(e.wait || e.type == 11 || e.type == 12))
      && q.executing.all (fun x => x.2.type != 11)
      && !tbit h.clk.gateTile q.tile && !isolated h q.tile
      && !h.clk.gateRequests.any (fun g => g.unit == 0 && g.index == q.tile)
      && runsQueue h id

/-- The queue of a tile whose turn it is: the first that can start after the one that started last (R246). -/
def startTurn (h : Hw) (t : Nat) : Option Nat :=
  let ready := ((queuesOn h t).map Prod.fst).filter (canStart h)
  let last := (h.tile t).lastQueue
  match ready.find? (fun k => last < k) with | some k => some k | none => ready.head?

/-- Start the next descriptor (R245): a completion area that breaks its rules halts the queue, other faults of its fields complete
it with DENIED (R254). -/
def startDesc (id i : Nat) (h : Hw) : Hw :=
  let q := h.queue id
  if q.next != i || startTurn h q.tile != some id then h
  else
    match KMap.find? q.execs i with
    | none => h
    | some e =>
      let h := h.setTile q.tile { h.tile q.tile with lastQueue := id }
      let h := h.setQueue id { q with next := (i + 1) % 2 ^ 32 }
      if e.badComp then halt (h.dropExec id i) id i 4
      else
        let e := { e with started := true, space := if e.type == 4 then 0 else baseSpace, since := h.time.now, run := { e.run with walkReads := [] } }
        let e := if e.badFields then e.deny else e
        settleExec id i (settleStaging (h.setExec id i e) q.tile)
def execDescStart (qid : Fin 4096) (idx : Nat) (s : State) : Result := commit (fun s => s.onHw (startDesc qid.val idx)) s

/-- The next chunk of a descriptor starts (R57). -/
def chunkStart (id i : Nat) (s : State) : State :=
  let s := s.onHw (settleExec id i)
  match KMap.find? (s.hw.queue id).execs i with
  | some e => if e.started && !e.ended && runsQueue s.hw id then (onRun id i startRun s).onHw (settleExec id i) else s
  | none => s
def execChunkStart (qid : Fin 4096) (idx : Nat) (s : State) : Result := commit (chunkStart qid.val idx) s

/-- Faults strike the next computations of the dot array of a queue's tile (R232). -/
def strike (id : Nat) (faults : List (List DotFault)) (h : Hw) : Hw :=
  let t := (h.queue id).tile
  if faults.isEmpty then h else h.setTile t { h.tile t with dotFaults := (h.tile t).dotFaults ++ faults }
/-- The chunk in progress goes on and commits (R261); output blocks that are computed with it meet the faults (R230–R233). -/
def chunkCommit (id i : Nat) (faults : List (List DotFault)) (s : State) : State :=
  if runsQueue s.hw id then (onRun id i commitRun (s.onHw (strike id faults))).onHw (settleExec id i) else s
def execChunkCommit (qid : Fin 4096) (chunk : ChunkAt) (s : State) : Result := commit (chunkCommit qid.val chunk.idx chunk.faults) s

/-! ### Completion (R249, R262) -/

/-- The completion record. -/
def Exec.record (e : Exec) (id : Nat) : List Byte :=
  let w0 := [(8, e.code), (1, 1), (1, b2n e.extended), (1, b2n e.reran), (1, b2n (e.code != stOK && e.code != stPrecision)), (4, 0), (12, id), (4, 0), (32, e.tag)]
  if e.code == stOK || e.code == stPrecision then
    if e.type == 10 then recordBytes 32 (w0 ++ [(128, e.old), (64, 0)])
    else recordBytes 32 (w0 ++ [(32, e.sat), (32, e.flush), (32, e.scovf), (32, e.satFirst), (32, e.flushFirst), (32, e.scovfFirst)])
  else
    let c := fun (k : Nat) => e.cursor.getD k 0
    recordBytes 32 (w0 ++ [(32, c 0), (24, c 1), (24, c 2), (24, c 3), (24, c 4), (48, e.run.committed), (3, e.operand), (13, 0)])

/-- A descriptor has completed: it is counted, TILE_QDONE is raised where a record was written, and its queue may halt (R248). -/
def completed (id i : Nat) (e : Exec) (recorded : Bool) (h : Hw) : Hw :=
  let q := h.queue id
  let h := queueCount (h.dropExec id i) id e.code
  let h := if recorded && e.cev then raise h (16 * q.tile) id else h
  let h := if q.ending then h
    else if !recorded then halt h id i 4
    else if e.code == stPoison then halt h id i 1
    else if e.haltErr && e.code != stOK && e.code != stPrecision then halt h id i 2
    else h
  settleDestroy id h

/-- Start and commit the pieces of a record as far as they go; then the descriptor has completed. -/
def finishRecord (id i : Nat) (e : Exec) (s : State) : State :=
  let s := onRun id i commitRun (onRun id i startRun (onRun id i commitRun (onRun id i startRun s)))
  match KMap.find? (s.hw.queue id).execs i with
  | none => s
  | some x =>
    if x.run.failed != 0 then s.onHw (completed id i e false)
    else if x.run.pieces.isEmpty && x.run.chunk.isNone then s.onHw (completed id i e true)
    else s

/-- Go on with the two writes of the completion record (R249). -/
def completeDesc (id i : Nat) (s : State) : State :=
  let s := s.onHw (settleExec id i)
  match KMap.find? (s.hw.queue id).execs i with
  | none => s
  | some e =>
    if !e.ended || !runsQueue s.hw id then s
    else if e.phase != 2 then
      if e.run.chunk.isSome then s
      else if e.finish == 2 || e.badComp then s.onHw (completed id i e false)
      else
        let bs := e.record id
        let w := fun (off : Nat) (d : List Byte) =>
          ({ dst := some { operand := 7, va := e.compVa + off }, len := d.length, data := d, cursor := e.cursor, uncounted := true, fence := off == 0 } : Piece)
        let e := { e with phase := 2, run := { committed := e.run.committed, pieces := [w 8 (bs.drop 8), w 0 (bs.take 8)] } }
        let s := s.onHw fun h => h.setExec id i e
        finishRecord id i e s
    else finishRecord id i e s
/-! ### Ending queues (R42, R239) -/

/-- Abort every descriptor of a queue, for the mailbox that waits. -/
def abortQueue (id : Nat) (m : Option Nat) (h : Hw) : Hw :=
  let q := h.queue id
  let h := h.setQueue id { q with ending := true, waiter := m }
  settleDestroy id (q.execs.foldl (fun h p => abortExec id p.1 p.2 h) h)

/-- QUEUE.DESTROY: the first result of R239 that applies. -/
def queueDestroy (q : Req) (h : Hw) : Hw × Option Reply :=
  let id := q.p 0
  let x := h.queue id
  if !KMap.has h.queues id then (h, some (Reply.denied rState))
  else if x.execs.isEmpty then ({ h with queues := KMap.erase h.queues id }, some Reply.ok)
  else if q.p 1 == 0 then (h, some (Reply.busy rState))
  else (abortQueue id (some q.m) (setWork h q.m 0x602 [] [id]), none)
def execQueueDestroy (m : Fin 16) (s : State) : Result :=
  commit (fun s => (runHw s m.val 0x602 [.f 12, .f 1] false queueDestroy).onHw settleQueueDestroy) s

/-- DESC_COMPLETE. -/
def execDescComplete (qid : Fin 4096) (idx : Nat) (s : State) : Result :=
  commit (fun s => (completeDesc qid.val idx s).onHw settleQueueDestroy) s

/-! ### Polls -/

/-- DFENCE: the word is read again, or the time is over (R272). -/
def fencePoll (id i : Nat) (s : State) : State :=
  match KMap.find? (s.hw.queue id).execs i with
  | none => s
  | some e =>
    if e.type != 11 || e.ended || e.phase != 1 || e.run.stall != 0 || !runsQueue s.hw id then s
    else if e.stage == 2 && e.bits 352 32 != 0 && e.since + e.bits 352 32 * 1000000 ≤ s.hw.time.now then
      s.onHw fun h => h.setExec id i (e.endWith stTimeout zeroCursor 0)
    else
      let s := if e.stage == 2 && e.run.pieces.isEmpty then
          s.onHw fun h => h.setExec id i (({ e with stage := 1 }).go [{ src := some { operand := 0, va := e.bits 128 64 }, len := 8 }])
        else s
      (onRun id i commitRun (onRun id i startRun s)).onHw (settleExec id i)
def execDfencePoll (qid : Fin 4096) (idx : Nat) (s : State) : Result := commit (fencePoll qid.val idx) s

/-- DMERGE: stamps that have not matched are read again, or the time is over (R297). -/
def stampPoll (id i : Nat) (h : Hw) : Hw :=
  match KMap.find? (h.queue id).execs i with
  | none => h
  | some e =>
    if e.type != 5 || e.ended || e.phase != 1 || e.stage != 2 || !runsQueue h id then h
    else if e.since + 10 * (h.queue id).e2e * 1000000 ≤ h.time.now then
      let (k, n) := e.unmatched.headD (0, 0)
      h.setExec id i (e.endWith stTimeout (0 :: (e.sources.getD k {}).index n) 0)
    else settleExec id i (h.setExec id i { e with stage := 0 })
def execDmergeStampPoll (qid : Fin 4096) (idx : Nat) (s : State) : Result := commit (fun s => s.onHw (stampPoll qid.val idx)) s

/-! ### Answers to faults (R73–R77) -/

/-- Change every run that waits for a fault. -/
def onWaiters (t k : Nat) (f : Run → Run) (h : Hw) : Hw :=
  let g := fun (r : Run) => if r.fault == some (t, k) then f r else r
  { h with
    queues := h.queues.map fun q => (q.1, { q.2 with execs := q.2.execs.map fun e =>
      (e.1, if e.2.run.fault == some (t, k) then ({ e.2 with run := f e.2.run }).restartHead else e.2) })
    colls := h.colls.map fun c => (c.1, { c.2 with inst := c.2.inst.map fun n =>
      { n with segs := n.segs.map (fun x => (x.1, { x.2 with run := g x.2.run })), record := g n.record } }) }

/-- A reply to a fault (R73, R74): it takes effect only on the open slot that FAULT_ID names, with its sequence, for this context. -/
def faultReply (who : Requester) (c v action : Nat) (h : Hw) : Hw :=
  let id := fld v 0 32
  let (k, t, seq) := (fld id 0 6, fld id 6 5, fld id 16 16)
  let sl : FaultSlot := KMap.get (h.tile t).faults k
  if !mayDoorbell h who c || fld v 32 2 != action then h
  else if !(h.ctx c).bound || !sl.isOpen || sl.seq != seq || sl.ctx != c || fld id 11 5 != 0 then ctxCount h c 2
  else onWaiters t k (if action == 1 then Run.release else Run.abort) (freeFault h t k)
/-- RESUME (R75). -/
def execFaultReplyResume (who : Requester) (ctx : Fin 65536) (value : Word) (s : State) : Result :=
  commit (fun s => s.onHw (faultReply who ctx.val value.toNat 1)) s
/-- ABORT (R76). -/
def execFaultReplyAbort (who : Requester) (ctx : Fin 65536) (value : Word) (s : State) : Result :=
  commit (fun s => s.onHw (faultReply who ctx.val value.toNat 2)) s

/-- FAULT_TIMEOUT has passed on an open slot: ABORT (R77). -/
def faultTimeout (t k : Nat) (h : Hw) : Hw :=
  let sl : FaultSlot := KMap.get (h.tile t).faults k
  if !sl.isOpen || (h.ctx sl.ctx).timeout == 0 || !runsFor h (h.ctx sl.ctx).service then h
  else onWaiters t k Run.abort (freeFault (ctxCount h sl.ctx 3) t k)
def execFaultTimeout (tile : Fin 32) (slot : Fin 64) (s : State) : Result := commit (fun s => s.onHw (faultTimeout tile.val slot.val)) s

end Sys2Proof.Machine
end

