-- ==== Sys2Proof/Machine/Collectives.lean ====
section
/-!
DEFINITION. Collectives (chapter 10): groups and members (R300–R308), instances and segments (R309–R322), the instance record
(R323), faults of collective writes (R688), timeouts and policies (R326–R330), and the pair's takeover (R332).
-/
namespace Sys2Proof.Machine
open Sys2Proof

def Hw.coll (h : Hw) (g : Nat) : Group := KMap.get h.colls g
def Hw.setColl (h : Hw) (g : Nat) (x : Group) : Hw := { h with colls := KMap.ins h.colls g x }
/-- Change the open instance of a group. -/
def Hw.onInst (h : Hw) (g : Nat) (f : Instance → Instance) : Hw :=
  { h with colls := KMap.upd h.colls g fun x => { x with inst := x.inst.map f } }
/-- Count one in a group's counts (R305). -/
def collCount (h : Hw) (g i : Nat) : Hw := { h with colls := KMap.upd h.colls g fun x => { x with counts := KMap.mod x.counts i (satInc 32) } }

/-! ### Layout (R311, R314, R319) -/

def Group.segElems (g : Group) : Nat := 2 ^ g.segLog2
def Group.nseg (g : Group) : Nat := (g.count + g.segElems - 1) / g.segElems
/-- NELEM of a segment. -/
def Group.nelem (g : Group) (s : Nat) : Nat := Nat.min (g.count - s * g.segElems) g.segElems
/-- Bytes of a payload of `n` elements in a format. -/
def payloadBytes (f n : Nat) : Nat := rowBytes (fElem f) n + (if fScale f == 1 then n / 32 else 0)

/-! ### Commands on groups -/

/-- GUARD of a group (R300). -/
def badCollGuard (v : Nat) : Bool := badGuard v || guardRerun v || fld v 32 16 != 0xFFFF
/-- COLL.GROUP.CREATE: the first result of R301 that applies. -/
def groupCreate (q : Req) (h : Hw) : Hw × Option Reply :=
  let (id, c, op, cf, rf) := (q.p 0, q.p 1, q.p 2, q.p 3, q.p 4)
  let x : Group := { ctx := c, op := op, cfmt := cf, rfmt := rf, count := q.p 5, segLog2 := q.p 6, openSegs := q.p 7, push := q.p 8 == 1
                     resultVa := q.p 9, countedVa := q.p 10, compVa := q.p 11, guard := q.p 12, seed := q.p 13, firstEpoch := q.p 14
                     policy := q.p 15, timeout := q.p 16, sclass := q.p 17, service := (h.ctx c).service
                     last := (q.p 14 + 65535) % 65536 }
  if !poolOpen h || h.sys.compute == 3 then (h, some (Reply.busy rNotReady))
  else if KMap.has h.colls id then (h, some (Reply.busy rState))
  else if (createService h).isNone then (h, some (Reply.denied rPair))
  else if x.count % 32 != 0 || x.count < 32 || 2 ^ 26 < x.count || x.segLog2 < 8 || 12 < x.segLog2 || x.openSegs == 0 || 64 < x.openSegs
      || x.resultVa % 64 != 0 || x.countedVa % 32 != 0 || x.compVa % 64 != 0 || badCollGuard x.guard
      || x.timeout < 10 || 10000000 < x.timeout then (h, some (Reply.denied rRange))
  else if !(h.ctx c).bound then (h, some (Reply.denied rState))
  else if !reducible cf || fSide cf || badFormat cf 0 false then (h, some (Reply.denied rRange))
  else if fScale rf == 2 || fSide rf || badFormat rf 0 true || isLut rf then (h, some (Reply.denied rRange))
  else if h.pair.state != 0 && createService h != some x.service then (h, some (Reply.denied rPair))
  else if 65536 < x.nseg then (h, some (Reply.denied rRange))
  else if 4096 < rowBytes (fElem cf) x.segElems || 4096 < rowBytes (fElem rf) x.segElems then (h, some (Reply.denied rRange))
  else if 2097152 < scratchReserved h + x.openSegs * x.accBytes then (h, some (Reply.busy rResource))
  else
    let h := h.setColl id x
    (forBelow 32 (fun t h => settleStaging h t) h, some (Reply.ok))
def execCollGroupCreate (m : Fin 16) (s : State) : Result :=
  commit (fun s => busyFirst s m.val 0x701 [.f 10, .f 16, .f 2, .f 32, .f 32, .f 32, .f 4, .f 7, .f 1, .f 64, .f 64, .f 64, .f 64, .f 32, .f 16,
    .f 1, .f 32, .f 2] rState (fun v h => poolOpen h && h.sys.compute != 3 && KMap.has h.colls (v.getD 0 0)) groupCreate) s

/-- COLL.GROUP.CONFIG (R303). -/
def groupConfig (q : Req) (h : Hw) : Hw × Option Reply :=
  if !KMap.has h.colls (q.p 0) then (h, some (Reply.denied rState))
  else if q.p 2 < 10 || 10000000 < q.p 2 then (h, some (Reply.denied rRange))
  else (h.setColl (q.p 0) { h.coll (q.p 0) with policy := q.p 1, timeout := q.p 2, sclass := q.p 3 }, some (Reply.ok))
def execCollGroupConfig (m : Fin 16) (s : State) : Result :=
  commit (fun s => runHw s m.val 0x702 [.f 10, .f 1, .f 32, .f 2] false groupConfig) s

/-- Members of an instance that are not excluded. -/
def Instance.expected (i : Instance) : List Nat := (KMap.keys i.members).filter (fun m => !tbit i.excluded m)
def Instance.seg (i : Instance) (s : Nat) : Segment := KMap.get i.segs s
/-- Whether member `m` is counted in segment `s`. -/
def Instance.counts (i : Instance) (s m : Nat) : Bool := (i.seg s).members.contains m
/-- Segments not done in which a member is not counted (R326). -/
def missingSegs (g : Group) (i : Instance) (m : Nat) : List Nat :=
  (List.range g.nseg).filter (fun s => !tbit i.done s && !i.counts s m)

/-- A member as R305 shows it: index, node, JOIN_EPOCH and receive buffer. -/
def memberItems (m : KMap Member) : List Item :=
  .f 16 m.length :: (m.map fun p => Item.bytes (recordBytes 16 [(8, p.1), (8, 0), (12, p.2.node), (4, 0), (16, p.2.join), (16, 0), (60, p.2.recv), (4, 0)]))
/-- COLL.GROUP.QUERY (R305). -/
def groupRecord (h : Hw) (id : Nat) : List Byte :=
  let g := h.coll id
  let i := g.inst.getD {}
  items ([.f 10 id, .f 16 g.ctx, .f 2 g.op, .f 32 g.cfmt, .f 32 g.rfmt, .f 32 g.count, .f 4 g.segLog2, .f 7 g.openSegs, .f 1 (b2n g.push),
      .f 64 g.resultVa, .f 64 g.countedVa, .f 64 g.compVa, .f 64 g.guard, .f 32 g.seed, .f 16 g.firstEpoch, .f 1 g.policy, .f 32 g.timeout, .f 2 g.sclass, .f 12 g.service]
    ++ memberItems g.members ++ memberItems g.latched
    ++ [.f 16 g.last, .f 1 (b2n g.inst.isSome), .f 16 i.epoch, .f 32 i.doneCount, .bytes (leBytes 32 i.excluded)]
    ++ (i.members.map fun p => Item.f 32 (missingSegs g i p.1).length)
    ++ ((List.range 12).map fun k => Item.f 32 (KMap.get g.counts k)) ++ [.f 32 (KMap.get g.counts 12), .f 32 (KMap.get g.counts 13), .f 32 (KMap.get g.counts 14)]
    ++ ((List.range 5).map fun k => Item.f 32 (KMap.get g.counts (17 + k))))
def groupQuery (q : Req) (h : Hw) : Hw × Option Reply :=
  (h, some (if KMap.has h.colls (q.p 0) then Reply.ok (groupRecord h (q.p 0)) else Reply.denied rState))
def execCollGroupQuery (m : Fin 16) (s : State) : Result := .next (runHw s m.val 0x704 [.f 10] true groupQuery)

/-- JOIN_EPOCH (R308). -/
def joinEpoch (g : Group) : Nat := (g.last + (if g.inst.isSome then 2 else 1)) % 65536
/-- COLL.MEMBER.ADD (R306–R308). -/
def memberAdd (q : Req) (h : Hw) : Hw × Option Reply :=
  let g := h.coll (q.p 0)
  let (m, n, fpa) := (q.p 1, q.p 2, q.p 3)
  if !KMap.has h.colls (q.p 0) then (h, some (Reply.denied rState))
  else if KMap.has g.latched m || g.latched.any (fun p => p.2.node == n) then (h, some (Reply.denied rState))
  else if isOwn h n || (if g.push then fpa % 64 != 0 || fpaNode fpa != n else fpa != 0) then (h, some (Reply.denied rRange))
  else (h.setColl (q.p 0) { g with latched := KMap.ins g.latched m { node := n, recv := fpa, join := joinEpoch g } },
        some (Reply.ok (items [.f 16 (joinEpoch g)])))
def execCollMemberAdd (m : Fin 16) (s : State) : Result :=
  commit (fun s => runHw s m.val 0x705 [.f 10, .f 8, .f 12, .f 60] false memberAdd) s

/-- COLL.MEMBER.REMOVE (R307, R308). -/
def memberRemove (q : Req) (h : Hw) : Hw × Option Reply :=
  let g := h.coll (q.p 0)
  if !KMap.has h.colls (q.p 0) || !KMap.has g.latched (q.p 1) then (h, some (Reply.denied rState))
  else (h.setColl (q.p 0) { g with latched := KMap.erase g.latched (q.p 1) }, some (Reply.ok (items [.f 16 (joinEpoch g)])))
def execCollMemberRemove (m : Fin 16) (s : State) : Result := commit (fun s => runHw s m.val 0x706 [.f 10, .f 8] false memberRemove) s

/-! ### Messages (R312, R313) -/

/-- Fields of a COL_SEG. -/
structure ColSeg where
  group : Nat
  epoch : Nat
  member : Nat
  segment : Nat
  nelem : Nat
  poison : Bool
  /-- a reserved field is set -/
  bad : Bool
deriving DecidableEq, Repr
def colSegOf (p : Packet) : ColSeg :=
  { group := Packet.cf p 0 10, epoch := Packet.cf p 16 16, member := Packet.cf p 32 8, segment := Packet.cf p 48 16, nelem := Packet.cf p 64 13
    poison := Packet.cf p 77 1 == 1
    bad := Packet.cf p 10 6 != 0 || Packet.cf p 78 2 != 0 || Packet.cf p 80 16 != 0 || Packet.cf p 96 32 != 0 }
/-- A collective message of the home. -/
def colPacket (h : Hw) (op sclass dst service group epoch member segment nelem : Nat) (poison : Bool) (nak missing : Nat) (body : List Byte) : Packet :=
  let src := speaksAs h service
  mkPacket op (opcodeVc op) sclass dst src 0
    (leBytes 16 (pack [(10, group), (6, 0), (16, epoch), (8, member), (8, pepochOf h src), (16, segment), (13, nelem), (1, b2n poison), (2, 0),
      (4, nak), (12, 0), (32, missing)]) ++ body)
/-- COL_NAK by reason: 1 MISSING, 2 FULL, 3 AHEAD, 4 NOTMEMBER, 5 MALFORMED; SEGMENT is zero but in MISSING (R313). -/
def sendNak (h : Hw) (dst group epoch member segment nak missing sclass : Nat) : Hw :=
  let h := collCount h group (16 + nak)
  send h (colPacket h 0x53 sclass dst (h.coll group).service group epoch member segment 0 false nak missing [])

/-! ### Completing segments (R318, R319, R321) -/

/-- Who moves the writes of a group. -/
def collEnv (h : Hw) (g tile : Nat) : RunEnv :=
  let x := h.coll g
  let i := x.inst.getD {}
  { tile := tile, ctx := x.ctx, src := speaksAs h x.service, agent := (h.ctx x.ctx).agent, sclass := i.sclass
    waiter := { queue := 0x8000 + g, index := i.epoch } }

/-- Values of one contribution, and the FLUSH events of R179. -/
def contribution (g : Group) (n : Nat) (bs : List Byte) : List Fp × Nat :=
  let e := rowBytes (fElem g.cfmt) n
  decodeRow g.cfmt [] 0 n (bs.take e) (bs.drop e) []

/-- The writes of a completed segment: elements, scales and counted map. -/
def segWrites (g : Group) (i : Instance) (s : Nat) (o : RowOut) : List Piece :=
  let x := i.seg s
  let first := s * g.segElems
  let w := fun (base off : Nat) (bs : List Byte) (pz : Bool) =>
    ({ dst := some { operand := 2, va := (base + off) % 2 ^ 64 }, len := bs.length, cursor := [off, s, 0, 0, 0], data := bs
       pz := List.replicate bs.length pz } : Piece)
  let scales := (o.blocks.map Prod.fst).flatten
  [w g.resultVa (elemPlace (fElem g.rfmt) first).1 o.elems x.poisoned]
    ++ (if scales.isEmpty then [] else [w g.resultVa (rowBytes (fElem g.rfmt) g.count + first / 32) scales x.poisoned])
    ++ (if g.countedVa == 0 then [] else
        [w g.countedVa (32 * s) (leBytes 32 ((x.members.map fun m => 2 ^ m).foldl (· + ·) 0)) false])

/-- A complete segment is reduced and converted, and its writes stand ready (R318, R319). -/
def reduceSegment (g : Group) (s : Nat) (i : Instance) : Instance :=
  let x := i.seg s
  let o := encodeRow g.rfmt [] 0 g.seed g.resultVa (s * g.segElems) (accRowResult g.op (g.nelem s) x.acc)
  { i with segs := KMap.ins i.segs s { x with
      stage := 1, acc := [], payload := o.elems ++ (o.blocks.map Prod.fst).flatten, run := { pieces := segWrites g i s o }
      sat := x.sat + o.sat, flush := x.flush + o.flush, scovf := x.scovf + o.scovf } }

/-- Segments that hold every expected member are complete (R318). -/
def settleSegments (g : Group) (i : Instance) : Instance :=
  i.segs.foldl (fun i p => if p.2.stage == 0 && i.expected.all (fun m => i.counts p.1 m) then reduceSegment g p.1 i else i) i

/-- Nothing of the instance is being written any more, so its record can be. -/
def Instance.quiet (i : Instance) : Bool := i.segs.all (fun p => p.2.stage == 0)
/-- End an instance by abort: its open segments are dropped unwritten (R322). -/
def abortInstance (i : Instance) : Instance := { i with aborted := true, ended := true, segs := i.segs.filter (fun p => p.2.stage != 0) }
/-- Exclude members (R327, R328); an instance without members left ends ABORTED. -/
def excludeMembers (g : Group) (ms : List Nat) (i : Instance) : Instance :=
  let i := { i with excluded := ms.foldl (fun e m => if tbit e m then e else e + 2 ^ m) i.excluded }
  if i.expected.isEmpty then abortInstance i else settleSegments g i

/-! ### COL_SEG (R315, R316) -/

/-- Open the next instance (R309). -/
def openInstance (h : Hw) (g : Group) : Group :=
  { g with
    members := g.latched
    inst := some { epoch := (g.last + 1) % 65536, members := g.latched, policy := g.policy, timeout := g.timeout, sclass := g.sclass
                   extended := h.sys.reduce != 2 } }

/-- A segment takes a contribution into its accumulators (R218–R222, R316, R318). -/
def Segment.add (g : Group) (extended : Bool) (c : ColSeg) (bs : List Byte) (x : Segment) : Segment :=
  let (vs, flush) := contribution g c.nelem bs
  let acc := if x.members.isEmpty then accRowStart (accKind g.cfmt extended) c.nelem else x.acc
  { x with members := x.members ++ [c.member], acc := accRow g.op acc (bs.drop (rowBytes (fElem g.cfmt) c.nelem)) vs
           flush := x.flush + flush, poisoned := x.poisoned || c.poison }
/-- Take a contribution (R316); in HOLD it wakes the module (R614). -/
def acceptSegment (h : Hw) (id : Nat) (c : ColSeg) (bs : List Byte) : Hw :=
  let g := h.coll id
  let g := if g.inst.isSome then g else openInstance h g
  let h := collCount ((askWake h).setColl id g) id 12
  h.onInst id fun i =>
    settleSegments g { i with segs := KMap.ins i.segs c.segment ((i.seg c.segment).add g i.extended c bs) }

/-- The membership that counts: that of the open instance, else the latched one (R315). -/
def Group.roster (g : Group) : KMap Member := match g.inst with | some i => i.members | none => g.latched

/-- COL_SEG: the first check of R315 that matches decides. -/
def takeColSeg (p : Packet) (h : Hw) : Hw :=
  if p.opcode != 0x50 || !isOwn h p.dst then h
  else
    let h := takeInbox h p
    let c := colSegOf p
    let g := h.coll c.group
    let set := g.roster
    let delta := (c.epoch + 65536 - g.last) % 65536
    let i := g.inst.getD {}
    let onTile := (i.segs.filter (fun x => segTile c.group x.1 == segTile c.group c.segment)).length
    if !runsFor h g.service && KMap.has h.colls c.group then h
    else if isDead h p.src && KMap.has h.colls c.group then collCount h c.group 14
    else if p.data.length < 16 then logMalformed h
    else if !KMap.has h.colls c.group || (KMap.get set c.member).node != p.src || !KMap.has set c.member then
      sendNak h p.src c.group c.epoch c.member 0 4 0 p.sclass
    else if delta == 0 || 32768 ≤ delta || (delta == 1 && i.ended) then collCount h c.group 14
    else if 2 ≤ delta then sendNak h p.src c.group c.epoch c.member 0 3 0 p.sclass
    else if g.nseg ≤ c.segment || c.nelem != g.nelem c.segment || c.bad
        || p.data.length != 16 + alignUp 4 (payloadBytes g.cfmt (g.nelem c.segment)) then
      logMalformed (sendNak h p.src c.group c.epoch c.member 0 5 0 p.sclass)
    else if tbit i.excluded c.member then collCount h c.group 14
    else if tbit i.done c.segment || i.counts c.segment c.member then
      (collCount h c.group 13).onInst c.group fun i => { i with dup := satInc 32 i.dup }
    else if !KMap.has i.segs c.segment && g.openSegs ≤ onTile then sendNak h p.src c.group c.epoch c.member 0 2 0 p.sclass
    else acceptSegment h c.group c (((p.data.drop 16)).take (payloadBytes g.cfmt (g.nelem c.segment)))
def execColSeg (p : Packet) (s : State) : Result := commit (fun s => s.onHw (takeColSeg p)) s

/-! ### Writing results -/

/-- Start and commit pieces as far as they go. -/
def driveRun : Nat → RunEnv → Run → State → Run × State
  | 0, _, r, s => (r, s)
  | n + 1, env, r, s =>
    let (r, s) := startRun env r s
    let (r, s) := commitRun env r s
    driveRun n env r s

/-- A segment's writes have ended: its scratch returns, its range events count, its result is pushed, and it is done (R319, R320). A takeover
empties a segment before it is done, so what it counted goes with it (R332). -/
def segmentDone (id seg : Nat) (h : Hw) : Hw :=
  let g := h.coll id
  match g.inst with
  | none => h
  | some i =>
    let x := i.seg seg
    let n := g.nelem seg
    let h := if g.push then
        i.members.foldl (fun h m => send h (colPacket h 0x51 i.sclass m.2.node g.service id i.epoch m.1 seg n x.poisoned 0 0 x.payload)) h
      else h
    let i := { i with
      segs := KMap.erase i.segs seg, done := i.done + 2 ^ seg, doneCount := i.doneCount + 1
      failed := if i.failed == 0 then x.run.failed else i.failed
      sat := satAdd 32 i.sat x.sat, flush := satAdd 32 i.flush x.flush, scovf := satAdd 32 i.scovf x.scovf
      elems := i.elems + n, anyPoison := i.anyPoison || x.poisoned
      partials := if x.members.length < i.members.length then i.partials + 1 else i.partials }
    h.setColl id { g with inst := some { i with ended := i.ended || i.doneCount == g.nseg } }

/-- COL_SEGMENT_DONE: go on with a complete segment's writes; when they are performed it is done (R319). -/
def driveSegment (id seg : Nat) (s : State) : State :=
  let g := s.hw.coll id
  match g.inst with
  | none => s
  | some i =>
    let x := i.seg seg
    if x.stage != 1 || !runsFor s.hw g.service then s
    else
      let (r, s) := driveRun 4 (collEnv s.hw id (segTile id seg)) x.run s
      let s := s.onHw fun h => h.onInst id fun i => { i with segs := KMap.ins i.segs seg { i.seg seg with run := r } }
      if r.failed != 0 || (r.pieces.isEmpty && r.chunk.isNone && r.stall == 0) then s.onHw (segmentDone id seg) else s
def execColSegmentDone (group : Fin 1024) (seg : Nat) (s : State) : Result := commit (driveSegment group.val seg) s

/-! ### Ending instances (R322, R323) -/

/-- CODE of an instance by the order of R323. -/
def instanceCode (g : Group) (i : Instance) : Nat :=
  if i.aborted then stAborted
  else if i.failed != 0 then i.failed
  else if i.anyPoison then stPoison
  else if i.excluded != 0 then stPartial
  else if exceeded g.guard i.sat i.flush i.scovf i.elems 0 then stPrecision
  else stOK
/-- The instance record (R323). -/
def instanceRecord (g : Group) (i : Instance) (id now : Nat) : List Byte :=
  recordBytes 64 [(8, instanceCode g i), (1, 1), (1, b2n i.extended), (6, 0), (10, id), (6, 0), (16, i.epoch), (9, i.members.length), (7, 0),
    (32, i.partials), (32, i.sat), (32, i.flush), (32, i.dup), (64, now), (256, i.excluded)]
/-- The group is destroyed: its scratch is free, and the mailbox that waits is answered (R304). -/
def destroyGroup (h : Hw) (id : Nat) : Hw := { h with colls := KMap.erase h.colls id }
/-- COL_DONE to every member, the event, and D (R322 steps 3 to 5). -/
def finishInstance (id : Nat) (rec' : List Byte) (h : Hw) : Hw :=
  let g := h.coll id
  match g.inst with
  | none => h
  | some i =>
    let next := (i.epoch + 1) % 65536
    let joiners := g.latched.filter (fun m => m.2.join == next && !(i.members.any fun x => x.1 == m.1 && x.2.node == m.2.node))
    let h := (i.members ++ joiners).foldl (fun h m =>
      send h { colPacket h 0x52 i.sclass m.2.node g.service id i.epoch m.1 0 0 false 0 0 rec' with fence := true }) h
    let h := raise h (16 * (id % 32) + 7) id
    let h := collCount (h.setColl id { g with inst := none, last := i.epoch }) id (instanceCode g i)
    match g.destroying with
    | some m => if m == 16 then destroyGroup h id else answer (destroyGroup h id) m Reply.ok
    | none => h

/-- COL_INSTANCE_DONE: an ended instance whose writes are performed writes its record and is closed (R322). The record's bytes are
kept in the run's `got` from its first write on. -/
def driveInstance (id : Nat) (s : State) : State :=
  let g := s.hw.coll id
  match g.inst with
  | none => s
  | some i =>
    if !i.ended || !i.quiet || !runsFor s.hw g.service then s
    else if g.compVa == 0 then s.onHw (finishInstance id (instanceRecord g i id s.hw.time.now))
    else
      let rec' := match i.record.got with | (b, _) :: _ => b | [] => instanceRecord g i id s.hw.time.now
      let w := fun (off : Nat) (bs : List Byte) =>
        ({ dst := some { operand := 7, va := g.compVa + off }, len := bs.length, cursor := [off, 0, 0, 0, 0], data := bs, uncounted := true, fence := off == 0 } : Piece)
      let r : Run := if i.record.got.isEmpty then { got := [(rec', [])], pieces := [w 8 (rec'.drop 8), w 0 (rec'.take 8)] } else i.record
      let (r, s) := driveRun 4 (collEnv s.hw id (id % 32)) r s
      let s := s.onHw fun h => h.onInst id fun i => { i with record := r }
      -- a record that cannot be written leaves its code to COL_DONE alone (R323)
      if r.failed != 0 then
        s.onHw fun h =>
          let h := h.onInst id fun i => { i with failed := if i.failed == 0 then r.failed else i.failed }
          finishInstance id (instanceRecord (h.coll id) ((h.coll id).inst.getD {}) id s.hw.time.now) h
      else if r.pieces.isEmpty && r.chunk.isNone && r.stall == 0 then s.onHw (finishInstance id rec')
      else s
def execColInstanceDone (group : Fin 1024) (s : State) : Result := commit (driveInstance group.val) s

/-- COL_MEMBER_TIMEOUT: a member's timer has expired while it has segments missing (R326, R327). -/
def memberTimeout (id m : Nat) (h : Hw) : Hw :=
  let g := h.coll id
  match g.inst with
  | none => h
  | some i =>
    let miss := missingSegs g i m
    if i.ended || !i.expected.contains m || miss.isEmpty || !runsFor h g.service then h
    else
      let h := raise h (16 * (id % 32) + 8) (id * 256 + m)
      if i.policy == 1 then h.onInst id (excludeMembers g [m])
      else sendNak h (KMap.get i.members m).node id i.epoch m (miss.headD 0) 1 miss.length i.sclass
def execColMemberTimeout (group : Fin 1024) (member : Nat) (s : State) : Result := commit (fun s => s.onHw (memberTimeout group.val member)) s

/-- COLL.INSTANCE.END (R329). -/
def instanceEnd (q : Req) (h : Hw) : Hw × Option Reply :=
  let g := h.coll (q.p 0)
  match g.inst with
  | none => (h, some (Reply.denied rState))
  | some i =>
    if i.ended then (h, some (Reply.denied rState))
    else if q.p 1 == 1 then (h.onInst (q.p 0) abortInstance, some (Reply.ok))
    else (h.onInst (q.p 0) (excludeMembers g (i.expected.filter fun m => !(missingSegs g i m).isEmpty)), some (Reply.ok))
def execCollInstanceEnd (m : Fin 16) (s : State) : Result := commit (fun s => runHw s m.val 0x707 [.f 10, .f 1] false instanceEnd) s

/-- Destroy a group whose instance, if one is open, is aborted first; 16 stands for no mailbox (R304). -/
def forceDestroy (h : Hw) (id m : Nat) : Hw :=
  let g := h.coll id
  match g.inst with
  | none => destroyGroup h id
  | some i =>
    let i := if i.ended then i else abortInstance i
    h.setColl id { g with destroying := some m, inst := some i }

/-- COLL.GROUP.DESTROY: the first result of R304 that applies. -/
def groupDestroy (q : Req) (h : Hw) : Hw × Option Reply :=
  let g := h.coll (q.p 0)
  if !KMap.has h.colls (q.p 0) then (h, some (Reply.denied rState))
  else if g.inst.isNone then (destroyGroup h (q.p 0), some (Reply.ok))
  else if q.p 1 == 0 then (h, some (Reply.busy rState))
  else (setWork (forceDestroy h (q.p 0) q.m) q.m 0x703 [] [q.p 0], none)
def execCollGroupDestroy (m : Fin 16) (s : State) : Result :=
  commit (fun s => runHw s m.val 0x703 [.f 10, .f 1] false groupDestroy) s

/-! ### A slot of a full fault table is free (R69) -/

/-- Every descriptor and every collective write that waits to register its fault at tile `t` tries again. -/
def slotFreed (t : Nat) (s : State) : State :=
  let s := s.hw.queues.foldl (fun s q => q.2.execs.foldl (fun s e =>
    if e.2.run.stall == 2 then onRun q.1 e.1 (fun env r s => reregister env r t s) s else s) s) s
  s.hw.colls.foldl (fun s c =>
    match c.2.inst with
    | none => s
    | some i =>
      let s := i.segs.foldl (fun s x =>
        let (r, s) := reregister (collEnv s.hw c.1 (segTile c.1 x.1)) x.2.run t s
        s.onHw fun h => h.onInst c.1 fun i => { i with segs := KMap.upd i.segs x.1 fun y => { y with run := r } }) s
      let (r, s) := reregister (collEnv s.hw c.1 (c.1 % 32)) i.record t s
      s.onHw fun h => h.onInst c.1 fun i => { i with record := r }) s
def execFaultSlotFreed (tile : Fin 32) (s : State) : Result := commit (slotFreed tile.val) s

/-! ### Takeover (R332) -/

/-- The new active of `services` empties their open segments and asks every member for what is not done. -/
def resendInstances (services : List Nat) (h : Hw) : Hw :=
  h.colls.foldl (fun h p =>
    match p.2.inst with
    | none => h
    | some i =>
      if !services.contains p.2.service then h
      else
        let h := h.onInst p.1 fun i => { i with segs := [], record := {} }
        let i := { i with segs := [] }
        if i.ended then h else i.expected.foldl (fun h m =>
          let miss := missingSegs p.2 i m
          if miss.isEmpty then h else sendNak h (KMap.get i.members m).node p.1 i.epoch m (miss.headD 0) 1 miss.length i.sclass) h) h

end Sys2Proof.Machine
end

