-- ==== Sys2Proof/Machine/Jtag.lean ====
section
/-!
DEFINITION. The test access port (R643–R646): the instructions, the boundary register and the debug challenge and unlock.
-/
namespace Sys2Proof.Machine
open Sys2Proof

def Hw.onTap (h : Hw) (f : Tap → Tap) : Hw := { h with tap := f h.tap }

/-- An instruction is updated, and its register shifts out `out` (R643). -/
def tapSelect (h : Hw) (code out : Nat) : Hw := h.onTap fun t => { t with instruction := code, shiftOut := out }

/-- IDCODE (R643). -/
def idcode : Nat := 0x164009AF
def execJtagIdcode (_tdi : Nat) (s : State) : Result := .next (s.onHw fun h => tapSelect h 0x01 idcode)

/-- BYPASS, any other code, and an instruction whose condition does not hold: one bit, which captures 0 (R643). -/
def tapBypass (h : Hw) (tdi : Nat) : Hw := tapSelect h 0xFF (2 * tdi)
def execJtagBypass (tdi : Nat) (s : State) : Result := .next (s.onHw fun h => tapBypass h tdi)

/-- SAMPLE/PRELOAD: what the cells capture are pin levels, free; what is shifted in stays in the boundary register (R644, log entry 19). -/
def tapSample (h : Hw) (code tdi : Nat) : Hw :=
  let (x, h) := fresh h
  (tapSelect h code x).onTap fun t => { t with boundary := tdi }
def execJtagSamplePreload (tdi : Nat) (s : State) : Result := .next (s.onHw fun h => tapSample h 0x02 tdi)

/-- An instruction that needs RESET_N low; otherwise it acts as BYPASS and sets EXT_REFUSED (R643). -/
def tapExt (h : Hw) (code tdi : Nat) : Hw :=
  if h.sys.resetLow then (if code == 6 || code == 7 then tapSelect h code (2 * tdi) else tapSample h code tdi)
  else (tapBypass h tdi).onTap fun t => { t with extRefused := true }
def execJtagExtest (tdi : Nat) (s : State) : Result := .next (s.onHw fun h => tapExt h 0x03 tdi)
def execJtagExtestPulse (tdi : Nat) (s : State) : Result := .next (s.onHw fun h => tapExt h 0x04 tdi)
def execJtagExtestTrain (tdi : Nat) (s : State) : Result := .next (s.onHw fun h => tapExt h 0x05 tdi)
def execJtagHighz (tdi : Nat) (s : State) : Result := .next (s.onHw fun h => tapExt h 0x06 tdi)
def execJtagClamp (tdi : Nat) (s : State) : Result := .next (s.onHw fun h => tapExt h 0x07 tdi)

/-- SERIAL as SYS_SERIAL holds it (R547). -/
def tapSerial (h : Hw) : Nat := if h.sys.fusesSensed then Config.fuseSerial.toNat else 0

/-- DBG_CHALLENGE: SERIAL, and a fresh nonce that stands from now on (R645). -/
def tapChallenge (h : Hw) : Hw :=
  let (a, h) := freshBits 64 h
  let (b, h) := freshBits 64 h
  let nonce := a + 2 ^ 64 * b
  (tapSelect h 0x10 (tapSerial h + 2 ^ 64 * nonce)).onTap fun t => { t with nonce := some nonce }
def execJtagDbgChallenge (_tdi : Nat) (s : State) : Result := .next (s.onHw tapChallenge)

/-- DBG_UNLOCK (R645): a valid signature over SERIAL, nonce and 0x01 starts the clearing of R571 with its first step; anything
else is refused and counted. The debug key is fuse hash 4 (log entry 12). -/
def tapUnlock (h : Hw) (sig : Nat) : Hw :=
  let h := tapSelect h 0x11 0
  let valid := match h.tap.nonce with
    | none => false
    | some n =>
      Config.ecdsaVerify (Config.keyHash 4) (Config.sha384 (leBytes 8 (tapSerial h) ++ leBytes 16 n ++ [1#8])) (leBytes 96 sig)
  if 8 ≤ h.tap.fails || h.sys.phase != 1 || !poolOpen h || !valid then
    h.onTap fun t => { t with unlock := 3, fails := satInc 4 t.fails }
  else
    let h := forBelow 12 (fun e h => closeGates h e) h
    let h := forBelow 64 (fun n h => linkDisable h n) h
    h.onTap fun t => { t with unlock := 1 }
def execJtagDbgUnlock (tdi : Nat) (s : State) : Result := .next (s.onHw fun h => tapUnlock h tdi)

/-- DBG_STATUS (R646). -/
def dbgStatus (t : Tap) : Nat := pack [(2, t.unlock), (4, t.fails), (1, b2n t.extRefused)]
def execJtagDbgStatus (_tdi : Nat) (s : State) : Result := .next (s.onHw fun h => tapSelect h 0x12 (dbgStatus h.tap))

end Sys2Proof.Machine
end

