-- ==== Sys2Proof/Machine/Resume.lean ====
section
/-!
DEFINITION. What a home has checked and still does (R164, R167, R353, R584, R614): it goes on when the MCS serves again, when a copy of
its shard has ended, or when a snapshot command no longer holds it. With it the rows that bring that about.
-/
namespace Sys2Proof.Machine
open Sys2Proof

/-- Whether what is parked can go on now. -/
def parkedReady (h : Hw) (x : Parked) : Bool :=
  match x with
  | .perform _ r => mcsServesAll h r.loc (r.span h) && !r.held h
  | .grant _ r _ _ => mcsServes h r.loc
  | .store _ loc _ _ => mcsStores h loc
  | .poison line => mcsStores h (line * 128)
  | .shard region slot _ p =>
    let l := (h.region region).shardOf (fpaOffset (Packet.addr p))
    !(h.snap region).copies.any (fun c => c.slot == slot && c.shard == l)
  | .notice _ c _ =>
    let x := h.ctx c
    match if inPool h x.notify then regionAt h (granuleOf (fpaOffset x.notify)) else none with
    | some g => !heldForSwitch h g x.agent
    | none => true

/-- A write that waited for the copy of its shard finds its place (R162, R164), or no free shard is left (R171). -/
def placeParked (s : State) (region slot serial : Nat) (p : Packet) : State :=
  let t := tileOf (fpaOffset (Packet.addr p))
  match place s.hw region slot (fpaOffset (Packet.addr p)) true with
  | (.ok _ _ loc _ _, h) =>
    if p.opcode == 0x34 then storeLine { s with hw := h } region loc p true
    else plainRequest { s with hw := h } t (messageReq region serial loc p) p
  | (.copying .., h) => park { s with hw := h } (.shard region slot serial p)
  | (_, h) => { s with hw := if p.opcode == 0x34 then denyWriteBack h p else denyRequest h t p }

/-- What is parked goes on. -/
def runParked (s : State) (x : Parked) : State :=
  match x with
  | .perform t r => resumeServed (performNow s t r) r.serves
  | .grant t r slot op =>
    match KMap.find? (s.hw.dir t).txns slot with
    | some x => if x.state == 6 && x.line == r.loc / 128 && x.requester == r.requester && x.tid == r.tid then grantNow s t r slot op else s
    | none => s
  | .store region loc p ack => storeNow s region loc p ack
  | .poison line => poisonNow s line
  | .shard region slot serial p => placeParked s region slot serial p
  | .notice t c v => notify s t c v

/-- All that can go on does, in the order in which it came; then the BULK accesses that waited for a copy. -/
def resumeParked (s : State) : State :=
  let (ready, rest) := s.hw.parked.partition (parkedReady s.hw)
  let s := ready.foldl runParked (s.onHw fun h => { h with parked := rest })
  (KMap.keys s.hw.bulk).foldl (pumpBulk 40) s

/-! ### The MCS serves again -/

/-- A retrain of a pseudo-channel ends (R352, R353), and the requests that waited for it go on. -/
def execPseudoChannelRetrainEnd (slice : Fin 32) (pc : Fin 16) (sweeps : List Sweep) (s : State) : Result :=
  commit (fun s => resumeParked (s.onHw fun h => retrainDone h slice.val pc.val sweeps)) s

/-- The module wakes from HOLD, and the request that woke it is served (R614). -/
def execHoldWake (s : State) : Result := commit (fun s => resumeParked (s.onHw wakeHold)) s

def execPwrState (m : Fin 16) (s : State) : Result :=
  commit (fun s => resumeParked (runHw s m.val 0xF01 [.f 2] false pwrState)) s

end Sys2Proof.Machine
end

