-- ==== Sys2Proof/Machine/Snapshots.lean ====
section
/-!
DEFINITION. Snapshot regions (chapter 05): the SNAP.* commands, their switch (R167), copies (R164) and reclaim (R159).
-/
namespace Sys2Proof.Machine
open Sys2Proof

/-! ### What the commands do -/

/-- A SNAPSHOT region that is ACTIVE (R153). -/
def snapActive (h : Hw) (id : Nat) : Bool := (h.region id).state == 1 && (h.region id).kind == 3

/-- Answer a snapshot command on region `id`; where it has changed what the standby mirrors, once the standby has applied that (R173). -/
def answerSnap (old h : Hw) (id m status : Nat) (body : List Byte) : Hw :=
  if mirrorsService h (h.region id).service && old.snaps != h.snaps then (setWork h m (h.mailbox m).opcode [] []).onPair fun p => { p with heldReplies := p.heldReplies ++ [(p.seq, m, status, body)] }
  else answer h m { status := status, body := body }

/-- A map with PRIVATE and ORIGIN clear (R154, R157). -/
def plainMap (v : VersionSlot) : KMap Shard := v.map.map (fun e => (e.1, { psn := e.2.psn }))

/-- The CURRENT slot. -/
def currentSlot (x : Snap) : Nat := ((List.range 16).find? (fun i => (x.slot i).state == 1)).getD 0

/-- SNAP.OPEN (R154). -/
def snapOpen (q : Req) (h : Hw) : Hw × Option Reply :=
  let (id, n, draft, ver) := (q.p 0, q.p 1, q.p 2 == 1, q.p 3)
  let r := h.region id
  let x := h.snap id
  let slot := if ver == 0 || ver == x.cur then some (currentSlot x)
    else (List.range 16).find? (fun i => (x.slot i).state == 2 && (x.slot i).version == ver)
  if !snapActive h id then (h, some (Reply.denied rState))
  else if !hasRight h r n (if draft then .write else .read) then (h, some (Reply.denied rRights))
  else if (bindingOf x n).isSome then (h, some (Reply.denied rState))
  else
    match slot with
    | none => (h, some (Reply.denied rState))
    | some sl =>
      if draft && ver != 0 && ver != x.cur then (h, some (Reply.denied rState))
      else
        let free := (List.range 16).find? (fun i => (x.slot i).state == 0)
        match KMap.firstFree x.bindings 64 with
        | none => (h, some (Reply.busy rResource))
        | some b =>
          if draft then
            match free with
            | none => (h, some (Reply.busy rResource))
            | some k =>
              let v : VersionSlot := { state := 3, writer := n, base := x.cur, time := h.time.now, map := plainMap (x.slot (currentSlot x)) }
              let h' := h.setSnap id { x.setSlot k v with bindings := KMap.ins x.bindings b { node := n, slot := k } }
              (answerSnap h h' id q.m stOK (items [.f 4 k, .f 32 x.cur]), none)
          else
            let h' := h.setSnap id { x with bindings := KMap.ins x.bindings b { node := n, slot := sl } }
            (answerSnap h h' id q.m stOK (items [.f 4 sl, .f 32 (x.slot sl).version]), none)
def execSnapOpen (m : Fin 16) (s : State) : Result :=
  commit (fun s => runHw s m.val 0x501 [.f 16, .f 12, .f 1, .f 32] false snapOpen) s

/-- Begin SNAP.PUBLISH, SNAP.REBASE or SNAP.CLOSE: what is refused at once, else the node's requests are held (R167). -/
def snapBegin (op : Nat) (q : Req) (h : Hw) : Hw × Option Reply :=
  let (id, n) := (q.p 0, q.p 1)
  let x := h.snap id
  let st := match bindingOf x n with | some (_, b) => (x.slot b.slot).state | none => 0
  if !snapActive h id then (h, some (Reply.denied rState))
  else if st == 0 || (op == 0x502 && st != 3) || (op == 0x503 && st != 3 && st != 4) then (h, some (Reply.denied rState))
  else if op != 0x504 && !hasRight h (h.region id) n .write then (h, some (Reply.denied rRights))
  else if op == 0x502 && x.cur == 2 ^ 32 - 1 then (h, some (Reply.denied rState))
  else
    let (k, h) := nextSerial (setWork h q.m op [] [])
    ({ h with switching := h.switching ++ [{ mailbox := q.m, opcode := op, region := id, node := n, serial := k }] }, none)
def execSnapPublish (m : Fin 16) (s : State) : Result :=
  commit (fun s => runHw s m.val 0x502 [.f 16, .f 12] false (snapBegin 0x502)) s
def execSnapRebase (m : Fin 16) (s : State) : Result :=
  commit (fun s => runHw s m.val 0x503 [.f 16, .f 12] false (snapBegin 0x503)) s
def execSnapClose (m : Fin 16) (s : State) : Result :=
  commit (fun s => runHw s m.val 0x504 [.f 16, .f 12] false (snapBegin 0x504)) s

/-- Publish a draft (R155): the status, and the new CUR. Another command may have changed the binding, the list or CUR since acceptance. -/
def publish (h : Hw) (id n : Nat) : Nat × List Byte × Hw :=
  let x := h.snap id
  match bindingOf x n with
  | none => (stDenied, [], h)
  | some (_, b) =>
    let v := x.slot b.slot
    if v.state != 3 || !snapActive h id || !hasRight h (h.region id) n .write || x.cur == 2 ^ 32 - 1 then (stDenied, [], h)
    else if v.base != x.cur then
      (stConflict, [], h.setSnap id { x.setSlot b.slot { v with state := 4 } with conflicts := satInc 32 x.conflicts })
    else
      let old := currentSlot x
      let readers := readersOf x old
      let x := x.setSlot old { x.slot old with state := if readers == 0 then 5 else 2, version := if readers == 0 then 0 else (x.slot old).version }
      let x := x.setSlot b.slot { v with state := 1, version := x.cur + 1, writer := 0, base := 0, time := h.time.now }
      (stOK, items [.f 32 (x.cur + 1)], h.setSnap id { x with cur := x.cur + 1 })

/-- Rebase a draft or orphan onto CUR (R157): OVERLAP. -/
def rebase (h : Hw) (id n : Nat) : Nat × List Byte × Hw :=
  let x := h.snap id
  let r := h.region id
  match bindingOf x n with
  | none => (stDenied, [], h)
  | some (_, b) =>
    let v := x.slot b.slot
    if (v.state != 3 && v.state != 4) || !snapActive h id || !hasRight h r n .write then (stDenied, [], h)
    else if v.base == x.cur then (stOK, items [.f 32 0], h.setSnap id (x.setSlot b.slot { v with state := 3 }))
    else
      let c := x.slot (currentSlot x)
      let keys := (KMap.keys v.map ++ KMap.keys c.map).eraseDups
      let extra := (keys.filter (fun i => (v.entry r i).priv && (v.entry r i).origin != (c.entry r i).psn)).length
      let v' := keys.foldl (fun w i =>
        if (v.entry r i).priv then w.setEntry r i { v.entry r i with origin := (c.entry r i).psn }
        else w.setEntry r i { psn := (c.entry r i).psn }) v
      (stOK, items [.f 32 extra], settleLow (h.setSnap id (x.setSlot b.slot { v' with state := 3, base := x.cur })) id)

/-- Close a binding (R158). -/
def closeBinding (h : Hw) (id n : Nat) : Hw :=
  let x := h.snap id
  match bindingOf x n with
  | none => h
  | some (i, b) =>
    let x := { x with bindings := KMap.erase x.bindings i }
    let v := x.slot b.slot
    let gone := v.state == 3 || v.state == 4 || (v.state == 2 && !x.bindings.any (fun p => p.2.slot == b.slot))
    h.setSnap id (if gone then x.setSlot b.slot { v with state := 5, writer := 0, version := 0, base := 0 } else x)

/-- What is parked is a request of node `n` to region `g` that passed its check before serial number `k`. -/
def Parked.ofNode (x : Parked) (g n k : Nat) : Bool :=
  match x with
  | .perform _ r => r.region == g && r.requester == n && r.serial < k
  | .store region _ p _ => region == g && p.src == n
  | .shard region _ serial p => region == g && p.src == n && serial < k
  | .grant .. | .poison _ | .notice .. => false

/-- Requests of the node that passed their check before acceptance, and chunks that started before it, are still under way (R167): a
notification is an access of its tile. -/
def switchDrains (h : Hw) (w : Switching) : Bool :=
  let slot := match bindingOf (h.snap w.region) w.node with | some (_, b) => b.slot | none => 16
  let hit := fun (c : Nat) (k : Chunk) => (h.ctx c).agent == w.node && k.serial < w.serial && k.grants.any (fun g => g.1 == w.region)
  (h.snap w.region).copies.any (fun c => c.slot == slot)
    || h.bulk.any (fun p => p.2.region == w.region && p.1 < w.serial && (if p.2.isLocal then p.2.slot == slot else p.2.packet.src == w.node))
    || h.parked.any (fun x => x.ofNode w.region w.node w.serial)
    || h.queues.any (fun q => q.2.chunks.any (hit q.2.ctx)) || h.colls.any (fun g => g.2.chunks.any (hit g.2.ctx))

/-- After drain the change is made, and the command answered (R167). -/
def snapSwitch (m : Nat) (h : Hw) : Hw :=
  match h.switching.find? (fun w => w.mailbox == m) with
  | none => h
  | some w =>
    if switchDrains h w then h
    else
      let (st, body, h') :=
        if w.opcode == 0x502 then publish h w.region w.node
        else if w.opcode == 0x503 then rebase h w.region w.node
        else (stOK, [], closeBinding h w.region w.node)
      let h' := { h' with switching := h'.switching.filter (fun v => v.serial != w.serial) }
      if w.answers then answerSnap h h' w.region m st body else h'
def execSnapSwitch (m : Fin 16) (s : State) : Result := commit (fun s => resumeParked (s.onHw (snapSwitch m.val))) s

/-- Read the words of a shard that is copied: stored-bit errors are corrected or become poison, and poisoned words are counted (R363). -/
def readShard (s : State) (psn : Nat) : State :=
  (((List.range 8192).map fun i => psn * 8192 + i).filter fun w => KMap.has s.pool.errs w || s.pool.poisoned w).foldl
    (fun s w => readStored s w .plain) s

/-- A copy ends (R164): the 64 KiB stand at the new PSN, poison included, the entry names it, and the accesses that waited go on. -/
def copyDone (id l slot : Nat) (s : State) : State :=
  let x := s.hw.snap id
  let r := s.hw.region id
  match x.copies.find? (fun c => c.slot == slot && c.shard == l) with
  | none => s
  | some c =>
    let old := ((x.slot slot).entry r l).psn
    if s.hw.pair.writeHold || !mcsServesAll s.hw (old * 65536) 65536 || !mcsServesAll s.hw (c.psn * 65536) 65536 then s
    else
      let s := (readShard s old).onPool fun p => p.copy (old * 65536) (c.psn * 65536) 65536
      let x := { x.setSlot slot ((x.slot slot).setEntry r l { psn := c.psn, priv := true, origin := old }) with
        copies := x.copies.filter (fun d => !(d.slot == slot && d.shard == l)), cow := satInc 32 x.cow }
      resumeParked (mirrorLines (s.onHw fun h => settleLow (h.setSnap id x) id) id (c.psn * 65536) 65536)
def execCowCopyDone (region shard slot : Nat) (s : State) : Result := commit (copyDone region shard slot) s

/-- A RECLAIMING slot becomes FREE, and the shards that only it named are free (R159). -/
def reclaimDone (id slot : Nat) (h : Hw) : Hw :=
  let x := h.snap id
  if (x.slot slot).state == 5 then settleLow (h.setSnap id (x.setSlot slot {})) id else h
def execSnapReclaimDone (region slot : Nat) (s : State) : Result := commit (fun s => s.onHw (reclaimDone region slot)) s

/-- SNAP.CONFIG sets LOW_WATER (R160). -/
def snapConfig (q : Req) (h : Hw) : Hw × Option Reply :=
  if snapActive h (q.p 0) then
    let h' := settleLow (h.setSnap (q.p 0) { h.snap (q.p 0) with lowWater := q.p 1 }) (q.p 0)
    (answerSnap h h' (q.p 0) q.m stOK [], none)
  else (h, some (Reply.denied rState))
def execSnapConfig (m : Fin 16) (s : State) : Result :=
  commit (fun s => runHw s m.val 0x505 [.f 16, .f 32] false snapConfig) s

/-- The version block of R153. -/
def versionBlock (h : Hw) (id : Nat) : List Byte :=
  let x := h.snap id
  let r := h.region id
  ((List.range 16).map fun i =>
    let v := x.slot i
    recordBytes 32 [(3, v.state), (5, 0), (7, readersOf x i), (1, 0), (12, v.writer), (4, 0), (32, v.version), (32, v.base),
      (32, (v.map.filter (fun e => e.2.priv)).length), (64, v.time)]).flatten
    ++ ((List.range 64).map fun i =>
      match KMap.find? x.bindings i with
      | some b => recordBytes 4 [(12, b.node), (4, b.slot), (1, 1)]
      | none => leBytes 4 0).flatten
    ++ recordBytes 64 [(32, x.cur), (32, r.shardsTotal), (32, freeShards x r 0), (32, freeShards x r 1), (32, x.lowWater),
      (32, x.cow), (32, x.refused), (32, x.conflicts), (16, r.mapg)]
    ++ leBytes 192 0
def snapQuery (q : Req) (h : Hw) : Hw × Option Reply :=
  if snapActive h (q.p 0) then (h, some (Reply.ok (versionBlock h (q.p 0)))) else (h, some (Reply.denied rState))
def execSnapQuery (m : Fin 16) (s : State) : Result := .next (runHw s m.val 0x506 [.f 16] true snapQuery)

end Sys2Proof.Machine
end

