-- ==== Sys2Proof/Machine/Regions.lean ====
section
/-!
DEFINITION. Regions and agents (chapter 03): creation, release and wipe, access lists, groups, changes of rights with their
drain and recall (R99–R101), and dead agents (R105–R108).
-/
namespace Sys2Proof.Machine
open Sys2Proof

/-! ### Access lists -/

/-- An entry from its 8 bytes (R87). -/
def aclEntryOf (v : Nat) : AclEntry := { id := fld v 0 12, group := tbit v 12, r := tbit v 13, w := tbit v 14, atomic := tbit v 15 }
/-- The words of an entry array. -/
def arrayWords (n x : Nat) : List Nat := (List.range n).map (fun i => fld x (64 * i) 64)
/-- Whether no two entries of a list share ID and GROUP (R87). -/
def distinctAcl (l : List AclEntry) : Bool := (l.map (fun e => (e.id, e.group))).eraseDups.length == l.length
/-- Why an array of entries, `count` of them used, is refused, or its list. -/
def parseEntries (ws : List Nat) (count : Nat) : Nat × List AclEntry :=
  if count == 0 || 64 < count then (rRange, [])
  else if (ws.take count).any (fun w => fld w 16 48 != 0) || (ws.drop count).any (fun w => w != 0) then (rReserved, [])
  else (rNone, (ws.take count).map aclEntryOf)
/-- Why a list of `count` entries in 64 places is refused, or the list (R87, R95). -/
def parseAcl (count x : Nat) : Nat × List AclEntry :=
  let (bad, l) := parseEntries (arrayWords 64 x) count
  if bad != 0 then (bad, []) else if distinctAcl l then (rNone, l) else (rRange, [])
/-- One added entry: it replaces the rights of the entry that it matches, or is appended (R96). -/
def addEntry (l : List AclEntry) (e : AclEntry) : List AclEntry :=
  let same := fun (a : AclEntry) => a.id == e.id && a.group == e.group
  if l.any same then l.map (fun a => if same a then e else a) else l ++ [e]
/-- HOLDER_DEAD: an agent that a direct entry names is dead (R85, R107). -/
def namesDead (h : Hw) (l : List AclEntry) : Bool := l.any (fun e => !e.group && isDead h e.id)
/-- A region with a new list. -/
def withAcl (h : Hw) (r : Region) (l : List AclEntry) : Region := { r with acl := l, holderDead := namesDead h l }
/-- A PRIVATE region's list is exactly one agent entry (R83, R97). -/
def privateList (l : List AclEntry) : Bool := l.length == 1 && l.all (fun e => !e.group)

/-! ### REGION.CREATE (R95) -/

/-- Granules `[a, b)` overlap a region whose state is among `sts`, or a retired granule when `held`. -/
def overlaps (h : Hw) (a b : Nat) (sts : List Nat) : Bool :=
  h.regions.any (fun p => sts.contains p.2.state && p.2.base < b && a < p.2.base + p.2.extent)
def overlapsRetired (h : Hw) (a b : Nat) : Bool := h.sys.retired.any (fun g => a ≤ g && g < b)
/-- The lowest run of `n` granules that overlaps no region in `sts` and no retired granule. -/
def lowestRun (h : Hw) (n : Nat) (sts : List Nat) : Option Nat :=
  let starts := 0 :: (h.regions.map (fun p => p.2.base + p.2.extent) ++ h.sys.retired.map (fun g => g + 1))
  (starts.filter (fun a => a + n ≤ systemBase && !overlaps h a (a + n) sts && !overlapsRetired h a (a + n))).foldl
    (fun m a => match m with | none => some a | some b => some (Nat.min a b)) none
/-- The lowest region ID that is FREE. -/
def lowestId (h : Hw) : Option Nat := ((List.range 65536).drop 1).find? (fun i => (h.region i).state == 0)

/-- Make the region (R95), and publish version 1 of a SNAPSHOT region (R145, R151). -/
def makeRegion (h : Hw) (id base service : Nat) (q : Req) (l : List AclEntry) : Hw :=
  let old := h.region id
  let r : Region := withAcl h { state := 1, kind := q.p 1, mirrored := q.p 2 == 1, base := base, granules := q.p 4, reserve := q.p 5,
                                tag := q.p 6, time := h.time.now, generation := (old.generation + 1) % 2 ^ 32, service := service } l
  let h := h.setRegion id r
  if q.p 1 == 3 then
    h.setSnap id { cur := 1, slots := [(0, { state := 1, version := 1, time := h.time.now })],
                   lowWater := (r.shardsTotal - 32 * r.granules) / 8 }
  else h

/-- REGION.CREATE: the first result of R95 that applies. -/
def regionCreate (q : Req) (h : Hw) : Hw × Option Reply :=
  let (kind, mirr, base, n, res) := (q.p 1, q.p 2 == 1, q.p 3, q.p 4, q.p 5)
  let (bad, l) := parseAcl (q.p 7) (q.p 8)
  let mapg := (n + 8191) / 8192
  let id := if q.p 0 == 0 then (lowestId h).getD 0 else q.p 0
  let st := (h.region id).state
  if !poolOpen h then (h, some (Reply.busy rNotReady))
  else if (createService h).isNone then (h, some (Reply.denied rPair))
  else if bad != 0 then (h, some (Reply.denied bad))
  else if n == 0 || systemBase < n || (systemBase ≤ base && base != 0x3FFFF)
      || (if kind == 3 then res < 16 * mapg + 1 || systemBase < n + res else res != 0) then (h, some (Reply.denied rRange))
  else if kind == 2 && !privateList l then (h, some (Reply.denied rRange))
  else if mirr && h.pair.state == 0 then (h, some (Reply.denied rPair))
  else
    match createService h with
    | none => (h, some (Reply.denied rPair))
    | some service =>
      if id == 0 then (h, some (Reply.denied rResource))
      else if st == 1 || st == 2 then (h, some (Reply.denied rState))
      else if st == 3 then (h, some (Reply.busy rState))
      else
        let done := fun b =>
          let h := makeRegion h id b service q l
          (h, some (Reply.ok (items [.f 16 id, .f 18 b, .f 32 (h.region id).generation])))
        if base == 0x3FFFF then
          match lowestRun h (n + res) [1, 2, 3] with
          | some b => done b
          | none => if (lowestRun h (n + res) [1, 2]).isSome then (h, some (Reply.busy rResource)) else (h, some (Reply.denied rResource))
        else if overlaps h base (base + n) [1, 2] || overlapsRetired h base (base + n) then (h, some (Reply.denied rState))
        else if overlaps h base (base + n) [3] then (h, some (Reply.busy rState))
        else if overlaps h (base + n) (base + n + res) [1, 2, 3] || overlapsRetired h (base + n) (base + n + res) then
          (h, some (Reply.denied rState))
        else done base
def execRegionCreate (m : Fin 16) (s : State) : Result :=
  commit (fun s => runHw s m.val 0x301 [.f 16, .f 2, .f 1, .f 18, .f 18, .f 18, .f 64, .f 7, .blk 512] false regionCreate) s

/-- REGION.QUERY: the entry of R85. -/
def regionRecord (h : Hw) (id : Nat) : List Byte :=
  let r := h.region id
  recordBytes 64 [(16, id), (3, r.state), (1, 0), (2, r.kind), (1, b2n r.mirrored), (1, b2n r.holderDead), (7, r.acl.length), (1, 0),
    (18, r.base), (14, 0), (18, r.granules), (14, 0), (18, r.reserve), (14, 0), (64, r.tag), (64, r.time), (32, r.generation),
    (32, r.denied), (12, r.firstNode), (8, 0), (44, r.firstOffset), (12, if h.pair.state == 0 then 0 else r.service), (116, 0)]
def execRegionQuery (m : Fin 16) (s : State) : Result :=
  .next (runHw s m.val 0x303 [.f 16] true fun q h => (h, some (Reply.ok (regionRecord h (q.p 0)))))

/-! ### Changes of rights (R99–R101) -/

/-- The nodes that can read a region. -/
def readersIn (h : Hw) (id : Nat) : List Nat := (List.range 4096).filter (fun n => hasRight h (h.region id) n .read)

/-- Begin a change that mailbox `m` made from `a` to `h`: rights that went are recalled where the region is COHERENT (R99). -/
def beginChange (a h : Hw) (m op kind : Nat) (regions : List Nat) : Hw :=
  let coherent := regions.filter (fun g => (h.region g).kind == 0)
  let lost := (coherent.map fun g => ((readersIn a g).filter fun n => !(readersIn h g).contains n).map fun n => (n, g)).flatten
  let fewer := coherent.any fun g => (List.range 4096).any fun n =>
    [Right.read, Right.write].any fun w => hasRight a (a.region g) n w && !hasRight h (h.region g) n w
  let (k, h) := nextSerial (setWork h m op [] [])
  { h with changes := h.changes ++ [{ kind := kind, mailbox := m, regions := regions, lost := lost, removes := fewer,
                                      scanned := if fewer then 0 else 2 ^ 32 - 1, serial := k }] }

/-- Put a new list into a region, unless R97 refuses it. -/
def applyAcl (q : Req) (op id : Nat) (l : List AclEntry) (h : Hw) : Hw × Option Reply :=
  let r := h.region id
  if id == 0 || r.state != 1 then (h, some (Reply.denied rState))
  else if l.isEmpty || 64 < l.length || (r.kind == 2 && !privateList l) then (h, some (Reply.denied rRange))
  else (beginChange h (h.setRegion id (withAcl h r l)) q.m op 0 [id], none)

/-- REGION.ACL.SET, ADD and REMOVE (R96). DESIGN CHOICE: a pair of REMOVE with R, W or AT set is DENIED with REASON RESERVED, for the spec says
nothing of these bits there (log entry 25). -/
def aclSet (q : Req) (h : Hw) : Hw × Option Reply :=
  let (bad, l) := parseAcl (q.p 1) (q.p 2)
  if bad != 0 then (h, some (Reply.denied bad)) else applyAcl q 0x304 (q.p 0) l h
def aclAdd (q : Req) (h : Hw) : Hw × Option Reply :=
  let (bad, l) := parseEntries (arrayWords (q.p 1) (q.p 2)) (q.p 1)
  if bad != 0 then (h, some (Reply.denied bad)) else applyAcl q 0x305 (q.p 0) (l.foldl addEntry (h.region (q.p 0)).acl) h
def aclRemove (q : Req) (h : Hw) : Hw × Option Reply :=
  let (bad, l) := parseEntries (arrayWords (q.p 1) (q.p 2)) (q.p 1)
  if bad != 0 then (h, some (Reply.denied bad))
  else if l.any (fun e => e.r || e.w || e.atomic) then (h, some (Reply.denied rReserved))
  else applyAcl q 0x306 (q.p 0) ((h.region (q.p 0)).acl.filter (fun e => !l.any (fun d => d.id == e.id && d.group == e.group))) h
def execRegionAclSet (m : Fin 16) (s : State) : Result :=
  commit (fun s => runHw s m.val 0x304 [.f 16, .f 7, .blk 512] false aclSet) s
def execRegionAclAdd (m : Fin 16) (s : State) : Result :=
  commit (fun s => runHw s m.val 0x305 [.f 16, .f 7, .arr 1 8] false aclAdd) s
def execRegionAclRemove (m : Fin 16) (s : State) : Result :=
  commit (fun s => runHw s m.val 0x306 [.f 16, .f 7, .arr 1 8] false aclRemove) s

/-- AGENT.GROUP.SET (R98): the regions whose list names the group change. -/
def groupSet (q : Req) (h : Hw) : Hw × Option Reply :=
  let ids := (h.regions.filter (fun p => p.2.state == 1 && p.2.acl.any (fun e => e.group && e.id == q.p 0))).map Prod.fst
  (beginChange h { h with groups := KMap.set h.groups (q.p 0) (q.p 1) } q.m 0x307 0 ids, none)
def execAgentGroupSet (m : Fin 16) (s : State) : Result :=
  commit (fun s => runHw s m.val 0x307 [.f 12, .blk 512] false groupSet) s

/-- AGENT.MGMT.SET: only the PCI Express host or a node on the list may send it (R92). DESIGN CHOICE: a node ID that stands twice is kept once, for
the spec says nothing of it (log entry 25). -/
def mgmtSet (q : Req) (h : Hw) : Hw × Option Reply :=
  let ws := arrayWords 16 (q.p 1)
  if (match q.ringer with | none => false | some n => !h.sys.mgmt.contains n) then (h, some (Reply.denied rRights))
  else if 16 < q.p 0 then (h, some (Reply.denied rRange))
  else if (ws.take (q.p 0)).any (fun w => 4096 ≤ w) || (ws.drop (q.p 0)).any (fun w => w != 0) then (h, some (Reply.denied rReserved))
  else ({ h with sys := { h.sys with mgmt := (ws.take (q.p 0)).eraseDups } }, some (Reply.ok))
def execAgentMgmtSet (m : Fin 16) (s : State) : Result :=
  commit (fun s => runHw s m.val 0x308 [.f 5, .blk 128] false mgmtSet) s

/-- AGENT.DEAD (R105). -/
def agentDead (q : Req) (h : Hw) : Hw × Option Reply :=
  let n := q.p 0
  let h := { h with dead := if isDead h n then h.dead else h.dead ++ [n] }
  let h := { h with regions := h.regions.map fun p =>
    (p.1, if p.2.acl.any (fun e => !e.group && e.id == n) then { p.2 with holderDead := true } else p.2) }
  let (k, h) := nextSerial (setWork h q.m 0x309 [] [])
  ({ h with changes := h.changes ++ [{ kind := 2, mailbox := q.m, node := n, serial := k }] }, none)
def execAgentDead (m : Fin 16) (s : State) : Result := commit (fun s => runHw s m.val 0x309 [.f 12] false agentDead) s

/-- AGENT.REVIVE (R107, R134). -/
def agentRevive (q : Req) (h : Hw) : Hw × Option Reply :=
  ({ h with dead := h.dead.filter (fun n => n != q.p 0), suspects := h.suspects.filter (fun n => n != q.p 0) }, some (Reply.ok))
def execAgentRevive (m : Fin 16) (s : State) : Result := commit (fun s => runHw s m.val 0x30A [.f 12] false agentRevive) s

/-! ### Drain and recall -/

/-- What is parked is a request to one of the regions that passed its check before serial number `k`. -/
def Parked.ofRegions (x : Parked) (regions : List Nat) (k : Nat) : Bool :=
  match x with
  | .perform _ r => regions.contains r.region && r.serial < k
  | .store region _ _ _ => regions.contains region
  | .shard region _ serial _ => regions.contains region && serial < k
  | .grant .. | .poison _ | .notice .. => false

/-- Something that began before the change, in one of its regions, has not ended (R99). -/
def drains (h : Hw) (c : Change) : Bool :=
  let hit := fun (k : Chunk) => k.serial < c.serial && k.grants.any (fun g => c.regions.contains g.1)
  h.dirs.any (fun p => p.2.txns.any (fun x => x.2.serial < c.serial && c.regions.contains x.2.region)
      || p.2.overflow.any (fun w => w.serial < c.serial && c.regions.contains w.region))
    || h.bulk.any (fun p => p.1 < c.serial && c.regions.contains p.2.region)
    || h.parked.any (fun x => x.ofRegions c.regions c.serial)
    || (h.queues.any fun q => q.2.chunks.any hit) || (h.colls.any fun g => g.2.chunks.any hit)

/-- The sharers of an entry that the new rights do not allow (R99); an owner is one unless it keeps W. -/
def violators (h : Hw) (c : Change) (g : Nat) (e : DirEntry) : List Nat :=
  let r := h.region g
  if e.owned then e.ptrs.filter (fun n => !hasRight h r n .write)
  else if e.vector then (c.lost.filter fun x => x.2 == g && tbit e.groups (x.1 / 64)).map Prod.fst
  else e.ptrs.filter (fun n => !hasRight h r n .read)

/-- The COHERENT region of a change that holds a line. -/
def changedRegion (h : Hw) (c : Change) (line : Nat) : Option Nat :=
  match regionAt h (granuleOf (line * 128)) with
  | some g => if c.regions.contains g && (h.region g).kind == 0 then some g else none
  | none => none

/-- Recall what the new rights do not allow of one line (R99): pointers that lack R, or the whole line. -/
def recallRights (c : Change) (t line : Nat) (e : DirEntry) (s : State) : State :=
  match changedRegion s.hw c line with
  | none => s
  | some g =>
    let bad := violators s.hw c g e
    if bad.isEmpty || ((s.hw.dir t).txnOf line).isSome then s
    else if e.owned || e.vector then recallLine s t line g false
    else
      let stay := e.ptrs.filter (fun n => !bad.contains n)
      let l := bad.filter (fun n => !isDead s.hw n)
      let keep := fun h => if stay.isEmpty then dropEntry h t line else putEntry h t line { e with ptrs := stay }
      if l.isEmpty then s.onHw keep
      else
        let home := speaksAs s.hw (s.hw.region g).service
        let (tid, h) := homeTid s.hw t
        let r : LineReq := { region := g, serial := s.hw.stamp, home := home, requester := home, tid := tid, loc := line * 128 }
        match takeSlot h t none { txnFor r 3 with waits := l, snoop := 0x12 } with
        | none => s
        | some (k, h) => { s with hw := sendSnoops (keep h) t r k 0x12 l }

/-- A slice has scanned its entries for the change of a mailbox (R99, R105). -/
def scanEnd (t m : Nat) (s : State) : State :=
  match s.hw.changes.find? (fun c => c.mailbox == m) with
  | none => s
  | some c =>
    let s := (s.hw.dir t).entries.foldl (fun s p =>
      if c.kind == 2 then buryHolder c.node t p.1 p.2 s else recallRights c t p.1 p.2 s) s
    s.onHw fun h => { h with changes := h.changes.map fun d =>
      if d.serial == c.serial then { d with scanned := Nat.lor d.scanned (2 ^ t) } else d }
def execDirectoryScanEnd (tile : Fin 32) (m : Fin 16) (s : State) : Result := commit (scanEnd tile.val m.val) s

/-- Recalls under way or still to make (R100). -/
def recalls (h : Hw) (c : Change) : Bool :=
  c.scanned != 2 ^ 32 - 1
    || (c.removes && h.dirs.any fun p =>
      p.2.txns.any (fun x => x.2.serves == .recall && c.regions.contains x.2.region)
        || p.2.entries.any (fun e => match changedRegion h c e.1 with | some g => !(violators h c g e.2).isEmpty | none => false))

/-- The partner has not yet taken over a change of the list of one of these mirrored regions, or of the groups (R100). -/
def partnerBehind (h : Hw) (regions : List Nat) : Bool :=
  regions.any (fun g => (h.region g).mirrored) && h.pair.outgoing.any fun r => match r.1.item with
    | .region g _ => regions.contains g
    | .agents .. => true
    | _ => false

/-- A released region is WIPING: every MCS begins to write zeros over its share (R103, R104). -/
def beginWipe (g : Nat) (h : Hw) : Hw :=
  let r := h.region g
  startWipe (h.setRegion g { r with state := 3 }) g r.base (r.base + r.extent)

/-- Drain and recall have ended: the command answers OK, and a released region becomes WIPING (R100, R101, R103). -/
def drainEnd (m : Nat) (h : Hw) : Hw :=
  match h.changes.find? (fun c => c.mailbox == m && c.kind != 2) with
  | none => h
  | some c =>
    if drains h c || recalls h c || partnerBehind h c.regions then h
    else
      let h := { h with changes := h.changes.filter (fun d => d.serial != c.serial) }
      let h := if c.kind == 1 then forAll c.regions beginWipe h else h
      if c.answers then answer h m (Reply.ok) else h
def execRightsChangeDrainEnd (m : Fin 16) (s : State) : Result := commit (fun s => s.onHw (drainEnd m.val)) s

/-- What an agent had open at the serial number of its death may still grant it a line, which then is poisoned (R105). -/
def stillOpen (h : Hw) (n serial : Nat) : Bool :=
  h.dirs.any (fun p => p.2.txns.any (fun x => x.2.requester == n && x.2.serial < serial) || p.2.overflow.any fun w => w.packet.src == n)
    || h.parked.any fun x => match x with | .perform _ r | .grant _ r _ _ => r.requester == n | .store _ _ p _ | .shard _ _ _ p => p.src == n | _ => false

/-- Every slice has finished with a dead agent (R105). -/
def deadDone (n : Nat) (h : Hw) : Hw :=
  match h.changes.find? (fun c => c.kind == 2 && c.node == n) with
  | none => h
  | some c =>
    let held := h.dirs.any fun p => p.2.entries.any fun e => !e.2.vector && e.2.ptrs.contains n
    if c.scanned != 2 ^ 32 - 1 || held || stillOpen h n c.serial then h
    else
      let h := { h with changes := h.changes.filter (fun d => d.serial != c.serial) }
      raise (if c.answers then answer h c.mailbox (Reply.ok) else h) 0x312 n
def execAgentDeadDone (node : Nat) (s : State) : Result := commit (fun s => s.onHw (deadDone node)) s

/-! ### Release and wipe (R102, R103) -/

/-- The region holds one of the `n` bytes from an FPA on. -/
def holdsRange (h : Hw) (id a n : Nat) : Bool :=
  inPool h a && (List.range ((fpaOffset a + n - 1) / 2097152 - fpaOffset a / 2097152 + 1)).any fun i =>
    regionAt h (granuleOf (fpaOffset a) + i) == some id

/-- A bound context keeps its ROOT, TABLE_REGION or FAULT_RING in the region, or a queue its RING (R102). -/
def regionNamed (h : Hw) (id : Nat) : Bool :=
  h.contexts.any (fun p => p.2.bound && ((if p.2.mirrored then p.2.tableRegion == id else holdsRange h id p.2.root 4096)
      || holdsRange h id p.2.ring (64 * 2 ^ p.2.ringLog2)))
    || h.queues.any (fun p => holdsRange h id p.2.ring (64 * 2 ^ p.2.ringLog2))

/-- REGION.RELEASE (R102). -/
def regionRelease (q : Req) (h : Hw) : Hw × Option Reply :=
  let id := q.p 0
  let r := h.region id
  let x := h.snap id
  if id == 0 || r.state != 1 then (h, some (Reply.denied rState))
  else if regionNamed h id then (h, some (Reply.busy rState))
  else if r.kind == 3 && !x.bindings.isEmpty && q.p 1 == 0 then (h, some (Reply.busy rState))
  else
    let h' := h.setRegion id { r with state := 2, acl := [] }
    let h' := if r.kind == 3 then forAll (x.bindings.map (fun p => p.2.node)) (fun n h => closeBinding h id n) h' else h'
    (beginChange h h' q.m 0x302 1 [id], none)
def execRegionRelease (m : Fin 16) (s : State) : Result :=
  commit (fun s => runHw s m.val 0x302 [.f 16, .f 1] false regionRelease) s

/-- A wiped region is FREE, its other fields as they stood (R85, R103). -/
def freeRegion (h : Hw) (id : Nat) : Hw := raise ((h.setRegion id { h.region id with state := 0 }).setSnap id {}) 0x311 id

/-- All slices have zeroed the region's granules (R103); a mirrored region waits for the partner. -/
def wipeDone (id : Nat) (s : State) : State :=
  let r := s.hw.region id
  if r.state != 3 then s
  else
    let s := s.onPool fun p => p.wipe (r.base * 2097152) ((r.base + r.extent) * 2097152)
    s.onHw fun h =>
      let h := endWipe h id r.base (r.base + r.extent)
      if linesFlow h r.service && r.mirrored then
        (emit h r.service (.wipe id)).onPair fun p => { p with heldWipes := p.heldWipes ++ [(p.seq - 1, id)] }
      else freeRegion h id
def execRegionWipeDone (region : Nat) (s : State) : Result := commit (wipeDone region) s

end Sys2Proof.Machine
end

