-- ==== Sys2Proof/Machine/Bringup.lean ====
section
/-!
DEFINITION. Bring-up from Gokomos's start to the long-accumulator test (R546–R554, R561, R565), self-test and repair while the
module serves (R566–R575), and the end of the debug unlock's clearing (R571).
-/
namespace Sys2Proof.Machine
open Sys2Proof

/-- Change the identity and bring-up state. -/
def Hw.onSys (h : Hw) (f : Sys → Sys) : Hw := { h with sys := f h.sys }
/-- Change the self-test state. -/
def Hw.onBist (h : Hw) (f : SelfTest → SelfTest) : Hw := { h with bist := f h.bist }
/-- SYS_STATE changes a subsystem to FULL: source 0x310 (R549). -/
def reportFull (h : Hw) (full : Bool) : Hw := if full then raise h 0x310 (sysStateLow h) else h

/-! ### Step 3 (R550, R560, R80) -/

/-- The system region's entry (R80). -/
def systemRegion (h : Hw) : Region := { state := 1, kind := 1, base := systemBase, granules := 64, generation := 1, time := h.time.now }
/-- Gokomos starts (R550 step 3): PHASE FIRMWARE, SYS_FW, the boot configuration, the record's soft SRAM repairs, the system region. -/
def gokomosStart (h : Hw) : Hw :=
  if h.sys.step != 2 || h.sys.phase != 0 then h
  else
    match h.sys.loaded with
    | none => h
    | some (slot, trial) =>
      let h := applyConfig (writeSysFw (h.onSys fun x => { x with phase := 1, step := 3 }) slot trial)
      let soft := (recordedRepairs h.fw.flash).filter (fun r => r.kind == 0)
      let h := h.onBist fun b => { b with repairs := b.repairs ++ soft }
      h.setRegion 0 (systemRegion h)
def execGokomosStart (s : State) : Result := .next (s.onHw gokomosStart)

/-! ### Steps 4 and 5 (R550, R565) -/

/-- The record of a finished test (R568). -/
def testRecord (h : Hw) (o : TestOutcome) (mode : Nat) : TestRecord :=
  { mode := mode, result := o.result, fails := satView 16 o.fails, array := o.array, addr := o.addr, bit := o.bit, step := o.step,
    expected := o.expected, read := o.read, time := h.time.now }
/-- The repair of an SRAM array (R572, R575): the spare row or column used, and the row or column repaired. -/
def sramRepair (o : TestOutcome) : RepairEntry :=
  { kind := 0, block := o.block, index := o.index, array := o.array, addr := if o.column then o.bit else o.addr, spare := o.spare, column := o.column }
/-- A test made a repair: it is in force, and Gokomos records it (R572). -/
def addRepair (h : Hw) (o : TestOutcome) : Hw := recordRepairs (h.onBist fun b => { b with repairs := b.repairs ++ [sramRepair o] })
/-- Block instances (R568): tiles, home parts, MCSs, directory slices, links, slices of DRAM; one router, sequencer and Zenith core. -/
def blockCount (b : Nat) : Nat := [32, 32, 32, 32, 1, 64, 1, 32, 1].getD b 0
/-- Whether BLOCK and INDEX name a block. -/
def blockNamed (b i : Nat) : Bool := i < blockCount b
/-- The blocks that step 4 tests: all but DRAM, which trains and is written later (R565). -/
def bootBlocks : List (Nat × Nat) := [0, 1, 2, 3, 4, 5, 6, 8].flatMap fun b => (List.range (blockCount b)).map fun i => (b, i)
/-- What a block that still fails at boot makes of the module (R565). The code of the router's and the sequencer's FE is not given:
it is free (log entry 3). -/
def bootFailure (h : Hw) (b : Nat) : Hw :=
  match b with
  | 0 => h.onSys fun x => { x with compute := 3 }
  | 1 => h.onSys fun x => { x with memory := 3 }
  | 2 => h.onSys fun x => { x with memory := 3 }
  | 3 => h.onSys fun x => { x with memory := 3 }
  | 4 => let (c, h) := freshBits 8 h; logOpen h 160 3 c none (some 0)
  | 6 => let (c, h) := freshBits 8 h; logOpen h 161 3 c none (some 0)
  | _ => h
/-- One block's boot self-test ends (R565): its record, and for a failure UE 0x32, for a repair CE 0x33. INFO of both is free. -/
def bootTested (h : Hw) (o : TestOutcome) : Hw :=
  let key := o.block * 64 + o.index
  let mode := if h.sys.bistLevel && o.block != 8 then 1 else 0
  let h := h.onBist fun b => { b with records := KMap.set b.records key (testRecord h o mode) }
  match o.result with
  | 1 => logOpen (addRepair h o) 162 0 0x33 none (some 0)
  | 2 =>
    let h := logOpen h 162 2 0x32 none (some 0)
    let h := (h.onBist fun b => { b with failed := b.failed ++ [key] }).onSys fun x => { x with bistFails := satInc 8 x.bistFails }
    bootFailure h o.block
  | _ => h
/-- Step 5 (R550): the router is enabled unless it failed; the links of LINK_ENABLE enter DETECT; stack 0 begins to train. -/
def startFabric (h : Hw) : Hw :=
  let h := h.onSys fun x => { x with step := 5, routerOn := !h.bist.failed.contains (4 * 64) }
  let h := startDomain h 1
  let h := forAll (bitsOf 16 h.sys.linkEnable) (fun n h => linkEnable h n) h
  startDomain h 2
/-- The pseudo-channels of a stack that are not FAILED enter TRAINING (R348). -/
def startTraining (h : Hw) (stack : Nat) : Hw :=
  forBelow 4 (fun i h => forBelow 16 (fun k h =>
    modPc h (4 * stack + i) k fun p => if p.state == 5 then p else { p with state := 1 }) h) h
/-- Boot self-test ends (R550 steps 4 and 5): a block that the list does not name passed. The device key is loaded after it (R569). -/
def bootTestDone (h : Hw) (outcomes : List TestOutcome) : Hw :=
  if h.sys.step != 3 || h.sys.phase != 1 then h
  else
    let all := bootBlocks.map fun b => (List.find? (fun (o : TestOutcome) => o.block == b.1 && o.index == b.2) outcomes).getD { block := b.1, index := b.2 }
    let h := all.foldl bootTested h
    startTraining (startFabric { h with fw := { h.fw with keyLoaded := true } }) 0
def execBootSelfTestDone (outcomes : List TestOutcome) (s : State) : Result := .next (s.onHw fun h => bootTestDone h outcomes)

/-! ### Steps 6 and 7: training (R348–R350, R554) -/

/-- The sweeps of one stack pseudo-channel. -/
def sweepsOf (ws : List Sweep) (i k : Nat) : List Sweep := ws.filter fun w => w.pc == 16 * i + k
/-- Every sweep of a stack's half-rate phase: a pseudo-channel passes to HALF, or is FAILED and keeps the pool closed (R350, R351). -/
def halfRate (h : Hw) (stack : Nat) (ws : List Sweep) : Hw :=
  forBelow 4 (fun i h => forBelow 16 (fun k h =>
    let t := 4 * stack + i
    let (p, ok) := sweepAll sweepLane ((h.slice t).pc k) (sweepsOf ws i k)
    if p.state != 1 then h
    else if ok then modPc h t k fun _ => { p with state := 2 }
    else trainFail ((modPc h t k fun _ => { p with state := 5 }).onSys fun x => { x with memory := 3 }) t k) h) h
/-- Step 6 ends (R550): the bring-up store is released, and every stack begins its full-rate sweep. -/
def endHalfRate (h : Hw) : Hw := forBelow 8 (fun st h => startTraining h st) (h.onSys fun x => { x with step := 6 })
/-- The half-rate phase of a stack ends; the stacks train in turn, from stack 0 (R550 step 6). -/
def stackHalfDone (h : Hw) (stack : Nat) (ws : List Sweep) : Hw :=
  if h.sys.step != 5 || stack != h.sys.halfDone.length then h
  else
    let h := (halfRate h stack ws).onSys fun x => { x with halfDone := x.halfDone ++ [stack] }
    if stack == 7 then endHalfRate h else startTraining h (stack + 1)
def execStackHalfRateDone (stack : Fin 8) (sweeps : List Sweep) (s : State) : Result := .next (s.onHw fun h => stackHalfDone h stack.val sweeps)

/-- All pseudo-channels of a slice run at the lowest rate that one of them has reached (R348). -/
def oneRate (h : Hw) (t : Nat) : Hw :=
  if (List.range 16).any (fun k => ((h.slice t).pc k).state == 2) then
    forBelow 16 (fun k h => modPc h t k fun p => if p.state == 3 then { p with state := 2 } else p) h
  else h
/-- A stack's full-rate sweep (R554): a pseudo-channel that fails it stays at 4.0 Gb/s and holds its slice there. -/
def fullRate (h : Hw) (stack : Nat) (ws : List Sweep) : Hw :=
  forBelow 4 (fun i h =>
    let t := 4 * stack + i
    oneRate (forBelow 16 (fun k h =>
      let (p, ok) := sweepAll sweepLane ((h.slice t).pc k) (sweepsOf ws i k)
      if p.state != 1 then h else modPc h t k fun _ => { p with state := if ok then 3 else 2 }) h) t) h
/-- Re-make one recorded remap entry or soft post-package repair (R572), where an entry and its spare are still free. -/
def remake (h : Hw) (r : RepairEntry) : Hw :=
  let (t, k, bank, row) := (r.index, r.array, r.addr / 2 ^ 14, r.addr % 2 ^ 14)
  if r.kind == 3 then h.onBist fun b => { b with repairs := b.repairs ++ [r] }
  else
    let x := h.slice t
    match KMap.firstFree x.remaps 16 with
    | none => h
    | some i =>
      if (remapAt x k bank row).isSome || x.remaps.any (fun e => e.2.pc == k && e.2.spare == r.spare) then h
      else
        let h := h.setSlice t { x with remaps := KMap.ins x.remaps i { pc := k, bank := bank, row := row, spare := r.spare } }
        h.onBist fun b => { b with repairs := b.repairs ++ [r] }
/-- Step 7 ends and step 8 begins (R550, R552, R572). -/
def endFullRate (h : Hw) : Hw :=
  let h := ((recordedRepairs h.fw.flash).filter (fun r => r.kind == 2 || r.kind == 3)).foldl remake h
  let h := h.onSys fun x => { x with step := 7 }
  forBelow 32 (fun t h => h.setSlice t { h.slice t with rowCeLimit := 1 }) h
/-- The full-rate sweep of a stack ends. After the last, the pool is written with zeros (R552). -/
def fullRateDone (s : State) (stack : Nat) (ws : List Sweep) : State :=
  if s.hw.sys.step != 6 || s.hw.sys.fullDone.contains stack then s
  else
    let s := s.onHw fun h => (fullRate h stack ws).onSys fun x => { x with fullDone := x.fullDone ++ [stack] }
    if s.hw.sys.fullDone.length == 8 then { s.onHw endFullRate with pool := {} } else s
def execFullRateSweepDone (stack : Fin 8) (sweeps : List Sweep) (s : State) : Result := .next (fullRateDone s stack.val sweeps)

/-! ### Steps 8 to 10 (R551–R554, R561) -/

/-- Whether every pseudo-channel is in one of the states of `l`. -/
def allPcs (h : Hw) (l : List Nat) : Bool := (List.range 32).all fun t => (List.range 16).all fun k => l.contains ((h.slice t).pc k).state
/-- Step 9 (R550): MEMORY, COMPUTE and REDUCE take their values; slices and the tiles that passed are enabled, with their gates open
(R565, R587). -/
def openPool (h : Hw) (bad : List Nat) : Hw :=
  let bad := (List.range 262144).filter bad.contains
  let full := h.sys.memory != 3 && bad.all (fun g => g < systemBase) && allPcs h [2, 3]
  let memory := if !full then 3 else if allPcs h [3] then 2 else 1
  let compute := if h.sys.compute == 3 then 3 else 2
  let h := h.onSys fun x => { x with
    step := 9, retired := bad, memory := memory, compute := compute
    reduce := if x.reduce != 3 && memory != 3 then 1 else x.reduce }
  let h := forBelow 32 (fun t h => h.setSlice t { h.slice t with rowCeLimit := 4, enabled := memory != 3 }) h
  let h := startDomain h 0
  let h := h.onClk fun c => { c with gateTile := packBits ((List.range 32).map (isolated h)), seqGated := h.bist.failed.contains (6 * 64) }
  reportFull (reportFull h (memory == 2)) (compute == 2)
/-- The pool is written and read back (R552); `bad` names the granules with a word that cannot hold zero. -/
def poolZeroDone (s : State) (bad : List Nat) : State :=
  if s.hw.sys.step != 7 then s else { s.onHw (fun h => openPool h bad) with pool := {} }
def execPoolZeroDone (bad : List Nat) (s : State) : Result := .next (poolZeroDone s bad)

/-- A subsystem field of SYS_STATE reads FAILED. -/
def someFailed (h : Hw) : Bool := h.sys.memory == 3 || h.sys.compute == 3 || h.sys.reduce == 3
/-- AUTO_CONFIRM confirms a running TRIAL slot once step 10 has ended and nothing has FAILED (R561). -/
def autoConfirm (h : Hw) : Hw :=
  if h.sys.autoConfirm && h.sys.trial && !someFailed h then
    (h.onFlash fun fl => writeSelection fl h.sys.slot false 0).onSys fun x => { x with trial := false }
  else h
/-- The long-accumulator self-test ends (R553): REDUCE is FULL or FAILED. -/
def longAccDone (h : Hw) (pass : Bool) : Hw :=
  if h.sys.step != 9 then h
  else
    let h := h.onSys fun x => { x with step := 10, reduce := if pass && x.reduce != 3 then 2 else 3 }
    autoConfirm (reportFull h (h.sys.reduce == 2))
def execLongAccTestDone (pass : Bool) (s : State) : Result := .next (s.onHw fun h => longAccDone h pass)

/-- The limit of the step under way passes (R550): UE 0x32 with its number, its subsystem FAILED, and bring-up goes on. Steps 1 to 3
serve every subsystem and no one of R549's, and nothing can go on without their result; step 5 ends with step 4, step 9 with 8. -/
def stepLimit (s : State) : State :=
  if !s.hw.sys.fusesSensed || s.hw.sys.phase == 2 then s
  else
    let log := fun (n : Nat) (s : State) => s.onHw fun h => logOpen h 162 2 0x32 (some n) (some 0)
    match s.hw.sys.step with
    | 3 => (log 4 s).onHw fun h => startTraining (startFabric { h.onSys (fun x => { x with compute := 3 }) with fw := { h.fw with keyLoaded := true } }) 0
    | 5 => (log 6 s).onHw fun h => endHalfRate (h.onSys fun x => { x with memory := 3 })
    | 6 => { (log 7 s).onHw (fun h => endFullRate (h.onSys fun x => { x with memory := 3 })) with pool := {} }
    | 7 => poolZeroDone ((log 8 s).onHw fun h => h.onSys fun x => { x with memory := 3 }) []
    | 9 => (log 10 s).onHw fun h => h.onSys fun x => { x with step := 10, reduce := 3 }
    | 10 => s
    | n => log (n + 1) s
def execStepLimitExpiry (s : State) : Result := .next (stepLimit s)

/-! ### BIST.RUN and BIST.QUERY (R566–R570) -/

/-- A tile compute part that serves no queue and whose scratch no group reserves (R302, R566). -/
def tileIdle (h : Hw) (t : Nat) : Bool := !tileServes h t && !groupActive h
/-- BIST.RUN: the first result of R566 that applies; OK comes with the end of the test. -/
def bistRun (q : Req) (h : Hw) : Hw × Option Reply :=
  let (b, i, mode) := (q.p 0, q.p 1, q.p 2)
  let key := b * 64 + i
  let legal := blockNamed b i && (((b == 0 || b == 5) && mode ≤ 1) || (b == 7 && mode == 2))
  let ready := if b == 0 then tileIdle h i else if b == 5 then (h.link i).state == 0 else poolOpen h
  if !legal then (h, some (Reply.denied rRange))
  else if !ready || KMap.has h.bist.running key then (h, some (Reply.busy rState))
  else
    let h := h.onBist fun x => { x with running := KMap.ins x.running key (16 * mode + q.m) }
    (setWork h q.m 0xD01 [key] [mode], none)
def execBistRun (m : Fin 16) (s : State) : Result := .next (runHw s m.val 0xD01 [.f 4, .f 6, .f 2] false bistRun)

/-- A result record (R568). -/
def testBytes (b i : Nat) (r : TestRecord) : List Byte :=
  recordBytes 64 [(4, b), (6, i), (2, r.mode), (2, r.result), (2, 0), (16, r.fails), (16, r.array), (16, 0), (64, r.addr), (8, r.bit),
    (8, r.step), (48, 0), (64, r.expected), (64, r.read), (64, r.time)]
/-- A slice's share of the free granules is zero and clean after a PATTERN test (R566, R81). -/
def zeroFree (h : Hw) (t : Nat) (p : Pool) : Pool :=
  let mine := fun (a : Nat) => tileOf a == t && (regionAt h (granuleOf a)).isNone
  { p with mem := p.mem.filter (fun c => !mine c.1), poison := p.poison.filter (fun c => !mine (8 * c.1))
           errs := p.errs.filter (fun c => !mine (8 * c.1)) }
/-- Re-initialise a tested block (R567): its registers are reset and Gokomos restores its configuration. A tile's compute part keeps
its turn register; a link end its settings of LINK.* and LANE.*. The crossing of the unit closes (R594, R598). -/
def reinit (h : Hw) (b i : Nat) : Hw :=
  match b with
  | 0 => (shutCrossing h 2).setTile i { h.tile i with lastQueue := 0 }
  | 5 =>
    let l := h.link i
    (shutCrossing h 3).setLink i { ({} : Link) with
      widthMax := l.widthMax, rateMax := l.rateMax, precode := l.precode, drowse := l.drowseNext, drowseNext := l.drowseNext
      slumber := l.slumberNext, slumberNext := l.slumberNext, efmLow := l.efmLow, replayLimit := l.replayLimit
      replayTimer := l.replayTimerNext, replayTimerNext := l.replayTimerNext, widthAuto := l.widthAuto
      downs16 := l.downs16, gate := l.gate, autoShut := l.autoShut, laserLow := l.laserLow }
  | _ => h
/-- A BIST.RUN ends (R566–R568): its record is kept, a repair recorded, the block re-initialised and released, or left isolated. -/
def selfTestEnd (s : State) (m : Nat) (o : TestOutcome) : State :=
  let key := o.block * 64 + o.index
  match KMap.find? s.hw.bist.running key with
  | none => s
  | some w =>
    if w % 16 != m then s
    else
      let s := if o.block == 7 then { s with pool := zeroFree s.hw o.index s.pool } else s
      s.onHw fun h =>
        let r := testRecord h o (w / 16)
        let h := h.onBist fun x => { x with running := KMap.erase x.running key, records := KMap.set x.records key r }
        let h := if o.result == 1 && o.block != 7 then addRepair h o else h
        let h := if o.result == 2 && !h.bist.failed.contains key && !h.bist.stuck.contains key then
            (h.onBist fun x => { x with stuck := x.stuck ++ [key] }).onSys fun x => { x with bistFails := satInc 8 x.bistFails }
          else h
        let h := reinit h o.block o.index
        match workOf h m 0xD01 with
        | some k => if k.waits == [key] then answer h m (Reply.ok (testBytes o.block o.index r)) else h
        | none => h
def execSelfTestEnd (m : Fin 16) (outcome : TestOutcome) (s : State) : Result := .next (selfTestEnd s m.val outcome)

def execBistQuery (m : Fin 16) (s : State) : Result :=
  .next (runHw s m.val 0xD02 [.f 4, .f 6] true fun q h =>
    (h, some (if blockNamed (q.p 0) (q.p 1) then Reply.ok (testBytes (q.p 0) (q.p 1) (KMap.get h.bist.records (q.p 0 * 64 + q.p 1)))
      else Reply.denied rRange)))

/-! ### REPAIR.COMMIT and REPAIR.QUERY (R572–R575) -/

/-- Entries of the repair fuse bank (R572). -/
def fuseEntries : Nat := 1024
/-- Fuse the soft SRAM repairs of a list one after another; whether an entry reads back is free (log entry 3). -/
def fuseAll : List RepairEntry → Hw → Nat × Nat × List RepairEntry × Hw
  | [], h => (0, 0, [], h)
  | r :: rest, h =>
    if r.kind != 0 then let (a, b, l, h) := fuseAll rest h; (a, b, r :: l, h)
    else
      let (bad, h) := freshBits 1 h
      let f := { r with kind := 1, recorded := false }
      let h := if bad == 0 then { h with fuses := { h.fuses with repairs := h.fuses.repairs ++ [f] } } else h
      let (a, b, l, h) := fuseAll rest h
      if bad == 0 then (a + 1, b, f :: l, h) else (a, b + 1, r :: l, h)
/-- REPAIR.COMMIT (R574). -/
def repairCommit (_q : Req) (h : Hw) : Hw × Option Reply :=
  let need := (h.bist.repairs.filter (fun r => r.kind == 0)).length
  if !h.bist.running.isEmpty then (h, some (Reply.busy rState))
  else if fuseEntries - h.fuses.repairs.length < need then (h, some (Reply.denied rResource))
  else
    let (ok, bad, l, h) := fuseAll h.bist.repairs h
    (recordRepairs (h.onBist fun b => { b with repairs := l }), some (Reply.ok (items [.f 32 ok, .f 32 bad])))
def execRepairCommit (m : Fin 16) (s : State) : Result := .next (runHw s m.val 0xD03 [] false repairCommit)

/-- Mark the repairs that the record holds: the first 4,094 of those that a reset would lose (R573). -/
def markRecorded : Nat → List RepairEntry → List RepairEntry
  | _, [] => []
  | n, r :: rest =>
    if softRepair r then { r with recorded := n != 0 } :: markRecorded (n - 1) rest
    else { r with recorded := false } :: markRecorded n rest
/-- The answer of REPAIR.QUERY (R575): counts, then every repair, the retired granules last. -/
def repairItems (h : Hw) : List Byte :=
  let used := h.fuses.repairs.length
  let l := markRecorded 4094 h.bist.repairs ++ h.sys.retired.map (fun g => { kind := 5, block := 7, addr := g })
  items [.f 32 used, .f 32 (fuseEntries - used), .f 32 h.bist.lost, .f 32 h.sys.retired.length,
    .bytes ((l.map (fun r => leBytes 16 (repairNat r))).flatten)]
def execRepairQuery (m : Fin 16) (s : State) : Result :=
  .next (runHw s m.val 0xD04 [] true fun _ h => (h, some (Reply.ok (repairItems h))))

/-! ### The end of the clearing of a debug unlock (R571, R645) -/

/-- A slice with its queues, hot words, tracker and counts cleared; its settings and remap entries stay. -/
def clearSlice (x : Slice) : Slice :=
  { x with hot := [], tracker := [], upstream := [], pcs := x.pcs.map fun p => (p.1, { state := p.2.state, back := p.2.back }) }
/-- Every array that scan reaches is zero (R571 step 3): caches, directories, translation, queues, collectives, the router's tables and
buffers, and what waits for an answer. Mailboxes, the event controller, the logs and the pins keep what they report (log entry 30). -/
def clearArrays (h : Hw) : Hw :=
  { h with
    dirs := [], tiles := [], queues := [], colls := [], outs := [], answers := [], bulk := [], invalidations := []
    router := {}
    mems := { h.mems with slices := h.mems.slices.map fun x => (x.1, clearSlice x.2) }
    fw := { h.fw with keyLocked := true, keyLoaded := false } }
/-- Gates, links, pool and arrays are cleared and the key is locked: DEBUG reads 1 (R571). -/
def debugUnlocked (s : State) : State :=
  if s.hw.tap.unlock != 1 then s
  else
    let s := s.onHw fun h => ((clearArrays h).onTap fun t => { t with unlock := 2 }).onSys fun x => { x with debug := true }
    { s with pool := {} }
def execDebugUnlockDone (s : State) : Result := .next (debugUnlocked s)

end Sys2Proof.Machine
end

