-- ==== Sys2Proof/Machine/Contexts.lean ====
section
/-!
DEFINITION. Contexts (R39–R43): CTX.BIND, CTX.MODIFY, CTX.QUERY and CTX.UNBIND, and the tables that Gokomos holds for MIRRORED
contexts (XLT.SYNC, R53, R54).
-/
namespace Sys2Proof.Machine
open Sys2Proof

/-! ### Binding -/

/-- FAULT_TIMEOUT keeps its range (CTX.BIND). -/
def badTimeout (ms : Nat) : Bool := 60000 < ms
/-- CTX.BIND: the first result of R40 that applies, in a pair after R491's: the context is of the service that the module is active for. -/
def ctxBind (q : Req) (h : Hw) : Hw × Option Reply :=
  let (c, agent, mode, root, region) := (q.p 0, q.p 1, q.p 2, q.p 3, q.p 4)
  let (ring, log2, note, ms) := (q.p 5, q.p 6, q.p 7, q.p 8)
  let home := regionAt h (granuleOf (fpaOffset root))
  let v := (createService h).getD 0
  if !poolOpen h then (h, some (Reply.busy rNotReady))
  else if (h.ctx c).bound then (h, some (Reply.busy rClassI))
  else if (createService h).isNone then (h, some (Reply.denied rPair))
  else if ring % 4096 != 0 || !inPoolFor h v ring || log2 < 4 || 16 < log2 || poolSize < fpaOffset ring + 64 * 2 ^ log2 || badTimeout ms
      || (if mode == 0 then root % 4096 != 0 || !inPoolFor h v root || region != 0
          else root != 0 || region == 0 || (h.region region).state != 1) then (h, some (Reply.denied rRange))
  else if mode == 0 && !(match home with | some g => g != 0 && hasRight h (h.region g) agent .read | none => false) then
    (h, some (Reply.denied rRights))
  else if mode == 0 && h.pair.state != 0 && !(h.region (home.getD 0)).mirrored then (h, some (Reply.denied rPair))
  else
    (h.setCtx c { bound := true, agent := agent, mirrored := mode == 1, root := root, tableRegion := region, ring := ring, ringLog2 := log2
                  notify := note, timeout := ms, service := v }, some Reply.ok)
def execCtxBind (m : Fin 16) (s : State) : Result :=
  commit (fun s => busyFirst s m.val 0x201 [.f 16, .f 12, .f 1, .f 60, .f 16, .f 60, .f 5, .f 60, .f 32]
    rClassI (fun v h => poolOpen h && (h.ctx (v.getD 0 0)).bound) ctxBind) s

/-- CTX.MODIFY (R41). -/
def ctxModify (q : Req) (h : Hw) : Hw × Option Reply :=
  if !(h.ctx (q.p 0)).bound then (h, some (Reply.denied rState))
  else if badTimeout (q.p 2) then (h, some (Reply.denied rRange))
  else (h.setCtx (q.p 0) { h.ctx (q.p 0) with notify := q.p 1, timeout := q.p 2 }, some Reply.ok)
def execCtxModify (m : Fin 16) (s : State) : Result := commit (fun s => runHw s m.val 0x202 [.f 16, .f 60, .f 32] false ctxModify) s

/-- Queues and groups of a context. -/
def queuesOf (h : Hw) (c : Nat) : List (Nat × Queue) := h.queues.filter (fun q => q.2.ctx == c)
def groupsOf (h : Hw) (c : Nat) : List (Nat × Group) := h.colls.filter (fun g => g.2.ctx == c)
/-- Descriptors of a context that are outstanding, and those that are stalled (R43). -/
def outstandingOf (h : Hw) (c : Nat) : Nat := ((queuesOf h c).map fun q => q.2.execs.length).foldl (· + ·) 0
def stalledOf (h : Hw) (c : Nat) : Nat :=
  ((queuesOf h c).map fun q => (q.2.execs.filter (fun e => e.2.run.stall != 0)).length).foldl (· + ·) 0

/-- CTX.QUERY (R43). -/
def ctxRecord (h : Hw) (c : Nat) : List Byte :=
  let x := h.ctx c
  items ([.f 1 (b2n x.bound), .f 16 c, .f 12 x.agent, .f 1 (b2n x.mirrored), .f 60 x.root, .f 16 x.tableRegion, .f 60 x.ring, .f 5 x.ringLog2,
    .f 60 x.notify, .f 32 x.timeout, .f 12 x.service, .f 32 (outstandingOf h c), .f 32 (stalledOf h c)]
    ++ (List.range 7).map fun k => Item.f 32 (KMap.get x.counts k))
def ctxQuery (q : Req) (h : Hw) : Hw × Option Reply := (h, some (Reply.ok (ctxRecord h (q.p 0))))
def execCtxQuery (m : Fin 16) (s : State) : Result := .next (runHw s m.val 0x204 [.f 16] false ctxQuery)

/-! ### Unbinding (R42, R240, R304) -/

/-- A context is unbound: its pre-translated and walk-cache entries go, and the queues and groups that it still has. Its counts
stay until it is bound again (R43). -/
def unbind (c : Nat) (h : Hw) : Hw :=
  { h.setCtx c { counts := (h.ctx c).counts } with
    queues := h.queues.filter (fun q => q.2.ctx != c)
    colls := h.colls.filter (fun g => g.2.ctx != c)
    tiles := h.tiles.map (fun (p : Nat × Tile) =>
      (p.1, { p.2 with pre := p.2.pre.filter (fun e => e.ctx != c), walks := p.2.walks.filter (fun e => e.ctx != c) })) }

/-- CTX.UNBIND: with FORCE, the descriptors and instances of the context end first. -/
def ctxUnbind (q : Req) (h : Hw) : Hw × Option Reply :=
  let c := q.p 0
  let busy := outstandingOf h c != 0 || (groupsOf h c).any (fun g => g.2.inst.isSome)
  if !(h.ctx c).bound then (h, some (Reply.denied rState))
  else if !busy then (unbind c h, some Reply.ok)
  else if q.p 1 == 0 then (h, some (Reply.busy rState))
  else
    let h := (queuesOf h c).foldl (fun h p => abortQueue p.1 (some q.m) h) h
    let h := (groupsOf h c).foldl (fun h p => forceDestroy h p.1 16) h
    (setWork h q.m 0x203 [] [c], none)

/-- The command answers once its last queue and group have gone. -/
def settleUnbind (m : Nat) (h : Hw) : Hw :=
  match workOf h m 0x203 with
  | some w =>
    let c := w.args.headD 0
    if (queuesOf h c).isEmpty && (groupsOf h c).isEmpty then answer (unbind c h) m Reply.ok else h
  | none => h
def execCtxUnbind (m : Fin 16) (s : State) : Result :=
  commit (fun s => (runHw s m.val 0x203 [.f 16, .f 1] false ctxUnbind).onHw (settleUnbind m.val)) s

/-! ### XLT.SYNC (R53, R54) -/

/-- Tables while a command works on them: the pages, root first, the words it has changed, and the pages it has taken. -/
structure Tables where
  pool : Pool
  /-- node ID of the pages, and the 4 KiB pages that it may take -/
  node : Nat
  first : Nat
  count : Nat
  /-- pages of other contexts -/
  taken : List Nat
  pages : List Nat
  words : KMap Nat := []
  new : List Nat := []
deriving DecidableEq

/-- The entry at an FPA. -/
def Tables.read (x : Tables) (fpa : Nat) : Nat :=
  match KMap.find? x.words fpa with
  | some v => v
  | none => if x.new.contains (fpa / 4096 * 4096) then 0 else leNat (x.pool.bytes (fpaOffset fpa) 8)
def Tables.write (x : Tables) (fpa v : Nat) : Tables := { x with words := KMap.ins x.words fpa v }
/-- Take the lowest free page (log entry 23). -/
def Tables.take (x : Tables) : Option (Nat × Tables) :=
  ((List.range x.count).map (fun i => x.node * 2 ^ 48 + x.first + 4096 * i)).find? (fun p => !x.taken.contains p && !x.pages.contains p)
    |>.map fun p => (p, { x with pages := x.pages ++ [p], new := x.new ++ [p] })

/-- A non-leaf entry. -/
def isTable (e : Nat) : Bool := tbit e 0 && !leafBit e
/-- Whether a table, or one under it, holds a leaf. -/
def Tables.holdsLeaf : Nat → Tables → Nat → Bool
  | 0, _, _ => false
  | n + 1, x, fpa => (List.range 512).any fun i =>
    let e := x.read (fpa + 8 * i)
    tbit e 0 && (leafBit e || Tables.holdsLeaf n x (frameOf e))

/-- Why an update is refused (R54). -/
inductive SyncResult where
  | ok (x : Tables)
  | refused (reason : Nat)

/-- Put a leaf at its level under the table at `fpa`, taking the tables that it needs. -/
def Tables.place (va target v : Nat) : Nat → Nat → Tables → SyncResult
  | 0, _, x => .ok x
  | l + 1, fpa, x =>
    let level := l + 1
    let at' := fpa + 8 * (va / 2 ^ (3 + 9 * level) % 512)
    let e := x.read at'
    let map := tbit v 0
    if level == target then
      if isTable e && 1 < level then
        if !map then .ok x
        else if Tables.holdsLeaf l x (frameOf e) then .refused 0x102
        else .ok (x.write at' v)
      else .ok (x.write at' v)
    else if tbit e 0 && leafBit e then (if map then .refused 0x102 else .ok x)
    else if isTable e then Tables.place va target v l (frameOf e) x
    else if !map then .ok x
    else
      match x.take with
      | none => .refused 0x103
      | some (p, x) => Tables.place va target v l p (x.write at' (15 + p))

/-- Size of a page of a level. -/
def levelSize (level : Nat) : Nat := 2 ^ (3 + 9 * level)
/-- One 16-byte update (R53). -/
def Tables.update (h : Hw) (u : Nat) (x : Tables) : SyncResult :=
  let level := fld u 0 3
  let va := fld u 12 52 * 4096
  let v := fld u 64 64
  if level == 0 || 3 < level || fld u 3 9 != 0 || 2 ^ 57 ≤ va || va % levelSize level != 0 then .refused 0x101
  else if tbit v 0 && (!leafBit v || badEntry h 0 level v) then .refused 0x101
  else
    match x.pages with
    | root :: _ => Tables.place va level v 5 root x
    | [] =>
      if !tbit v 0 then .ok x
      else match x.take with
        | none => .refused 0x103
        | some (p, x) => Tables.place va level v 5 p x

/-- The updates in order: the tables, or the first update refused and its reason. -/
def Tables.updates (h : Hw) : List Nat → Nat → Tables → Except (Nat × Nat) Tables
  | [], _, x => .ok x
  | u :: r, i, x =>
    match x.update h u with
    | .ok x => Tables.updates h r (i + 1) x
    | .refused why => .error (i, why)

/-- Free the intermediate tables that hold nothing: one level of them. -/
def Tables.prune (x : Tables) : Tables :=
  let empty := (x.pages.drop 1).filter fun p => (List.range 512).all fun i => !tbit (x.read (p + 8 * i)) 0
  if empty.isEmpty then x
  else
    let x := { x with pages := x.pages.filter (fun p => !empty.contains p) }
    x.pages.foldl (fun x p => (List.range 512).foldl (fun x i =>
      let e := x.read (p + 8 * i)
      if isTable e && empty.contains (frameOf e) then x.write (p + 8 * i) 0 else x) x) x
/-- Pages that the root reaches no more are free too. -/
def Tables.reach : Nat → Tables → Nat → List Nat
  | 0, _, fpa => [fpa]
  | n + 1, x, fpa => fpa :: ((List.range 512).map fun i =>
    let e := x.read (fpa + 8 * i)
    if isTable e then Tables.reach n x (frameOf e) else []).flatten
def Tables.settle (x : Tables) : Tables :=
  let x := x.prune.prune.prune.prune
  match x.pages with
  | root :: _ => { x with pages := Tables.reach 4 x root }
  | [] => x

/-- Write the tables back: new pages are zeroed, then the changed words of the pages that are kept; a standby gets the lines. -/
def Tables.writeBack (x : Tables) (service : Nat) (s : State) : State :=
  let zero := (x.new.filter x.pages.contains).map fun (p : Nat) => (fpaOffset p, List.replicate 4096 0#8)
  let kept := List.filter (fun w : Nat × Nat => x.pages.contains (w.1 / 4096 * 4096)) x.words
  let words := kept.map fun (w : Nat × Nat) => (fpaOffset w.1, leBytes 8 w.2)
  let s := (zero ++ words).foldl (fun (s : State) (w : Nat × List Byte) => store s false 0 w.1 w.2 false) s
  if mirrors s.hw then
    let lines := ((zero.map fun (w : Nat × List Byte) => (List.range 32).map (fun i => w.1 + 128 * i)).flatten
      ++ words.map (fun (w : Nat × List Byte) => w.1 / 128 * 128)).eraseDups
    s.onHw fun h => lines.foldl (fun h l =>
      emit h service (lineItem s.pool l)) h
  else s

/-- The tables of context `c` as XLT.SYNC finds them, and the updates of its request. -/
def syncTables (s : State) (c : Nat) : Tables :=
  let x := s.hw.ctx c
  let r := s.hw.region x.tableRegion
  { pool := s.pool, node := speaksAs s.hw x.service, first := r.base * 2097152, count := 512 * r.granules
    taken := (s.hw.contexts.map fun (k : Nat × Context) => if k.1 == c then [] else k.2.pages).flatten, pages := x.pages }
def syncUpdates (n v : Nat) : List Nat := (List.range n).map fun i => fld v (128 * i) 128
/-- The tables are changed: they are written back, and an invalidation of the changed pages begins. -/
def syncApply (s : State) (m c : Nat) (us : List Nat) (y : Tables) : State :=
  (y.writeBack (s.hw.ctx c).service s).onHw fun h =>
    let h := h.setCtx c { h.ctx c with pages := y.pages }
    let ranges := us.map fun u => (fld u 12 52 * 4096, levelSize (fld u 0 3))
    setWork (announceInvalidation h { mailbox := some m, ctx := c, ranges := ranges }) m 0x205 [] [c]

/-- XLT.SYNC: refused whole, or applied, with one invalidation of the changed pages. -/
def xltSync (q : Req) (s : State) : State × Option Reply :=
  let c := q.p 0
  let n := q.p 1
  if n == 0 || 120 < n then (s, some (Reply.denied rRange))
  else if !(s.hw.ctx c).bound || !(s.hw.ctx c).mirrored then (s, some (Reply.denied rState))
  else
    match Tables.updates s.hw (syncUpdates n (q.p 2)) 0 (syncTables s c) with
    | .error (i, why) => (s, some { status := stDenied, reason := why, index := i })
    | .ok y => (syncApply s q.m c (syncUpdates n (q.p 2)) y.settle, none)
def execXltSync (m : Fin 16) (s : State) : Result :=
  commit (fun s => (runCommand s m.val 0x205 [.f 16, .f 7, .arr 1 16] false xltSync).onHw (settleInvalidation m.val)) s

end Sys2Proof.Machine
end

