-- ==== Sys2Proof/Machine/Events.lean ====
section
/-!
DEFINITION. The event controller's commands (R531–R540, R658, R659) and clearing an error-log slot (R543, R661).
-/
namespace Sys2Proof.Machine
open Sys2Proof

/-! ### Claims and completions -/

/-- The source that a claim of vector `v` takes (R535): urgent ones first, in each tier the first after the last claimed, with
wrap. -/
def claimPick (h : Hw) (v : Nat) : Option Nat :=
  let ps := pendingOf h v
  let last := (h.vector v).lastClaimed
  let tier := if ps.any (fun n => (h.source n).urgent) then ps.filter (fun n => (h.source n).urgent) else ps
  match tier.find? (fun n => last < n) with
  | some n => some n
  | none => tier.head?

/-- The value that EVC_CLAIM returns for a source (R534). -/
def claimWord (n : Nat) (x : Source) : Nat :=
  pack [(10, n), (5, 0), (1, 1), (8, x.count), (1, b2n x.urgent), (7, 0), (32, x.info)]

/-- An 8-byte read of EVC_CLAIM of vector `v` (R535, R658): the result, and the controller after it. Every claim clears
UNANSWERED. -/
def claim (h : Hw) (v : Nat) : Nat × Hw :=
  let x := h.vector v
  match (if 16 ≤ x.outstanding then none else claimPick h v) with
  | none => (0, h.setVector v { x with unanswered := false, attempted := false, claimResult := 0 })
  | some n =>
    let y := h.source n
    let w := claimWord n y
    let h := h.setSource n { y with count := 0, inService := some v }
    (w, h.setVector v { x with unanswered := false, attempted := false, outstanding := x.outstanding + 1, lastClaimed := n, claimResult := w })

def execEvcClaim (v : Fin 68) (s : State) : Result := .next (s.onHw fun h => (claim h v.val).2)

/-- A write of EVC_COMPLETE of vector `v` (R536): service of the source ends, and it pends again if its COUNT is non-zero. -/
def complete (h : Hw) (v n : Nat) : Hw :=
  let x := h.vector v
  let y := h.source n
  if y.inService == some v then
    let h := h.setSource n { y with inService := none }
    let h := settleTarget h n
    h.setVector v { x with outstanding := x.outstanding - 1, attempted := false }
  else h.setVector v { x with badComplete := satInc 16 x.badComplete }

def execEvcComplete (v : Fin 68) (value : Word) (s : State) : Result :=
  .next (s.onHw fun h => complete h v.val (value.toNat % 1024))

/-! ### Registers of a source and of a vector -/

/-- When a vector sends (R537). -/
def mayMessage (h : Hw) (v : Nat) : Bool :=
  let x := h.vector v
  let ps := pendingOf h v
  x.enable && !ps.isEmpty && !x.unanswered
    && (x.outstanding == 0 || ps.any (fun n => (h.source n).urgent) || x.modPassed)

/-- Where the conditions of R537 no longer hold for vector `v`, their coming to hold again is a new attempt (R659). -/
def settleAttempt (h : Hw) (v : Nat) : Hw :=
  if mayMessage h v then h else h.setVector v { h.vector v with attempted := false }

/-- A write of EVC_SRC (R533): ENABLE and URGENT at once, TARGET when the source is next neither pending nor in service, which
comes before ENABLE takes effect (R11). A
source of the Zenith core ignores it, and so does a number that R532 does not name. -/
def writeSource (h : Hw) (n value : Nat) : Hw :=
  if ownedByCore n || !sourceNamed n then h
  else
    let h := settleTarget (h.setSource n { h.source n with targetNext := fld value 2 6 }) n
    let h := h.setSource n { h.source n with enable := tbit value 0, urgent := tbit value 1 }
    let h := settleTarget h n
    settleAttempt h (h.source n).target

/-- EVC_SRC as it reads (R533). -/
def readSource (h : Hw) (n : Nat) : Nat :=
  if !sourceNamed n then 0
  else
    let x := h.source n
    pack [(1, b2n x.enable), (1, b2n x.urgent), (6, x.targetNext), (1, b2n x.active), (1, b2n (pendingSource h n)),
      (1, b2n x.inService.isSome), (1, b2n (ownedByCore n)), (4, 0), (8, x.count), (8, 0), (32, x.info)]

/-- A write of EVC_VEC_CFG (R534, R655): DELIVERY is class I, taken first when the write also enables. -/
def writeVecCfg (h : Hw) (v value : Nat) : Hw :=
  let x := h.vector v
  let d := tbit value 1
  let ignored := x.enable && d != x.delivery
  let en := tbit value 0
  h.setVector v { x with
    enable := en, delivery := if ignored then x.delivery else d, cfgIgnored := x.cfgIgnored || ignored,
    modNext := fld value 16 16, modUs := if en && x.enable then x.modUs else fld value 16 16,
    attempted := x.attempted && en }

def readVecCfg (h : Hw) (v : Nat) : Nat :=
  let x := h.vector v
  pack [(1, b2n x.enable), (1, b2n x.delivery), (14, 0), (16, x.modNext)]

/-- A write of EVC_VEC_STAT clears CFG_IGNORED where bit 6 is 1 (R534). -/
def writeVecStat (h : Hw) (v value : Nat) : Hw :=
  if tbit value 6 then h.setVector v { h.vector v with cfgIgnored := false } else h

def readVecStat (h : Hw) (v : Nat) : Nat :=
  let x := h.vector v
  pack [(5, x.outstanding), (1, b2n x.unanswered), (1, b2n x.cfgIgnored), (9, 0), (11, (pendingOf h v).length), (5, 0),
    (16, x.msgs), (16, x.badComplete)]

/-! ### Messages (R537–R539, R659) -/

/-- What holds an MSI-X message (R538, R636, R637, R598): the entry's mask; for PCI Express also the function mask, MSI-X disabled,
Bus Master Enable clear, D3hot, and a link that is not up. -/
def messageHeld (h : Hw) (v : Nat) : Bool :=
  let x := h.vector v
  x.msixMask || (!x.delivery && (h.pcie.msixMaskAll || !h.pcie.msixEnable || !tbit h.pcie.command 2 || h.pcie.d3hot || h.pcie.link != 1))

/-- The message has gone: UNANSWERED is set, MSGS counts, the latched MOD_US applies and its interval begins. -/
def messageSent (h : Hw) (v : Nat) : Hw :=
  let x := h.vector v
  h.setVector v { x with unanswered := true, msgs := satInc 16 x.msgs, modUs := x.modNext, modPassed := x.modNext == 0,
                         held := false, attempted := true }

/-- A vector whose conditions hold makes an attempt (R537, R538, R659): its message is held as a PBA bit, goes as a PCI Express
write or as a 4-byte BWR, or, with an address that is no FPA, is not sent and logs CE 0x70. A Zenith core target is served by
Gokomos inside the module (R539). -/
def sendMessage (h : Hw) (v : Nat) : Hw :=
  let x := h.vector v
  if !mayMessage h v || x.attempted then h
  else if 64 ≤ v then messageSent h v
  else if messageHeld h v then h.setVector v { x with held := true, attempted := true }
  else if !x.delivery then
    messageSent { h with pcie := { h.pcie with mastered := some (x.msixAddr, x.msixData) } } v
  else if x.msixAddr / 2 ^ 60 != 0 then logOpen (h.setVector v { x with attempted := true }) 164 0 0x70 none none
  else
    let (tid, h) := newTid h 31
    let p := mkPacket 0x41 4 0 (fpaNode x.msixAddr) h.sys.moduleId tid
      (leBytes 16 (pack [(60, x.msixAddr), (4, 0), (13, 4)]) ++ leBytes 4 x.msixData)
    messageSent (send h p) v

def execVectorMessageSend (v : Fin 68) (s : State) : Result := .next (s.onHw fun h => sendMessage h v.val)

/-- 10 ms without a claim: UNANSWERED clears, and the rule applies again (R537). -/
def unansweredTimeout (h : Hw) (v : Nat) : Hw :=
  let x := h.vector v
  if x.unanswered then h.setVector v { x with unanswered := false, attempted := false } else h
def execUnansweredTimeout (v : Fin 68) (s : State) : Result := .next (s.onHw fun h => unansweredTimeout h v.val)

/-- MOD_US has passed since the vector's last message (R537). -/
def moderationExpiry (h : Hw) (v : Nat) : Hw := h.setVector v { h.vector v with modPassed := true }
def execModerationExpiry (v : Fin 68) (s : State) : Result := .next (s.onHw fun h => moderationExpiry h v.val)

/-- A write of EVC_MSIX_ADDR or EVC_MSIX_CTL of vector `v` (R659): the vector may try again; on unmask a held message is sent if
R537 still holds (R538). -/
def writeMsixAddr (h : Hw) (v value : Nat) : Hw := h.setVector v { h.vector v with msixAddr := value % 2 ^ 64, attempted := false }
def writeMsixCtl (h : Hw) (v value : Nat) : Hw :=
  let x := h.vector v
  let unmask := x.msixMask && !tbit value 32
  let h := h.setVector v { x with msixData := fld value 0 32, msixMask := tbit value 32, attempted := false, held := x.held && !unmask }
  if unmask && x.held then sendMessage h v else h
def readMsixCtl (h : Hw) (v : Nat) : Nat := let x := h.vector v; pack [(32, x.msixData), (1, b2n x.msixMask)]

def execEvcMsixCtlWrite (v : Fin 64) (value : Word) (s : State) : Result := .next (s.onHw fun h => writeMsixCtl h v.val value.toNat)

/-- Held messages that nothing but the function's own controls held are tried again when those change (R538, R636, R598). -/
def retryHeld (h : Hw) : Hw :=
  forBelow 64 (fun v h =>
    let x := h.vector v
    if x.held && !messageHeld h v then sendMessage (h.setVector v { x with held := false, attempted := false }) v else h) h

/-! ### Error-log slots -/

/-- An aligned 8-byte write with bit 0 set clears VALID of slot 0 FIRST, 1 LATEST or 2 FATAL (R543, R661); the last FATAL slot of
a group takes ERR_FE to ACTIVE 0, and of the module releases FAULT_N. -/
def clearSlot (h : Hw) (l slot value : Nat) : Hw :=
  if value % 2 == 0 then h
  else
    let g := h.log l
    let off := fun (s : LogSlot) => { s with valid := false }
    let g := match slot with
      | 0 => { g with first := off g.first }
      | 1 => { g with latest := off g.latest }
      | _ => { g with fatal := off g.fatal }
    settleFatal (h.setLog l g) l

def execErrSlotClear (log : Fin 165) (slot : Fin 3) (value : Word) (s : State) : Result :=
  .next (s.onHw fun h => clearSlot h log.val slot.val value.toNat)

end Sys2Proof.Machine
end

