-- ==== Sys2Proof/Machine/Gpio.lean ====
section
/-!
DEFINITION. GPIO (R648, R649): pins, their filtered levels as event sources 0x330–0x337, and the GPIO.* commands.
-/
namespace Sys2Proof.Machine
open Sys2Proof

/-- Source 0x330 + p is ACTIVE while the filtered level of GPIOp equals its POLARITY (R648). -/
def settlePin (h : Hw) (p : Nat) : Hw := setLevel h (0x330 + p) ((h.pin p).level == (h.pin p).polarity) 0

/-- A level has held for FILTER_US and is taken. -/
def gpioFilter (h : Hw) (p : Nat) (high : Bool) : Hw := settlePin (h.setPin p { h.pin p with level := high }) p
def execGpioFilterExpiry (pin : Fin 8) (high : Bool) (s : State) : Result := .next (s.onHw fun h => gpioFilter h pin.val high)

/-- GPIO.CONFIG sets direction, drive, pull, polarity and filter of the pins in PIN_MASK. -/
def gpioConfig (q : Req) (h : Hw) : Hw × Option Reply :=
  if q.p 3 == 3 || 1000 < q.p 5 then (h, some (Reply.denied rRange))
  else (forAll (bitsOf 8 (q.p 0)) (fun p h =>
    settlePin (h.setPin p { h.pin p with dir := q.p 1 == 1, od := q.p 2 == 1, pull := q.p 3, polarity := q.p 4 == 1, filterUs := q.p 5 }) p) h,
    some (Reply.ok))
def execGpioConfig (m : Fin 16) (s : State) : Result :=
  .next (runHw s m.val 0x1001 [.f 8, .f 1, .f 1, .f 2, .f 1, .f 10] false fun q h => gpioConfig q h)

/-- GPIO.SET writes the output latches of the pins in MASK. -/
def gpioSet (q : Req) (h : Hw) : Hw × Option Reply :=
  (forAll (bitsOf 8 (q.p 0)) (fun p h => h.setPin p { h.pin p with latch := tbit (q.p 1) p }) h, some (Reply.ok))
def execGpioSet (m : Fin 16) (s : State) : Result :=
  .next (runHw s m.val 0x1002 [.f 8, .f 8] false fun q h => gpioSet q h)

/-- GPIO.QUERY: each pin's configuration, output latch and filtered level. -/
def gpioItems (h : Hw) : List Byte :=
  items (((List.range 8).map (fun p =>
    let x := h.pin p
    [Item.f 1 (b2n x.dir), .f 1 (b2n x.od), .f 2 x.pull, .f 1 (b2n x.polarity), .f 10 x.filterUs, .f 1 (b2n x.latch), .f 1 (b2n x.level)])).flatten)
def execGpioQuery (m : Fin 16) (s : State) : Result :=
  .next (runHw s m.val 0x1003 [] false fun _ h => (h, some (Reply.ok (gpioItems h))))

end Sys2Proof.Machine
end

