-- ==== Sys2Proof/Machine/Mailbox.lean ====
section
/-!
DEFINITION. The commands of the mailbox service itself: a ring (R518), MBX.INFO and MBX.NOP (R529), and the restart of the
Zenith core as mailboxes see it (R523).
-/
namespace Sys2Proof.Machine
open Sys2Proof

/-- The PCI Express host and management agents reach the mailboxes, the event controller, the logs and the status areas (R93, R94);
a dead node reaches nothing (R105). -/
def mayManage (h : Hw) (who : Requester) : Bool :=
  match who with
  | .pcie => true
  | .fabric n => !h.dead.contains n && h.sys.mgmt.contains n

/-- MBX_RING: a write of the register; with RING 0 it has no effect (R518). -/
def mbxRingWrite (s : State) (who : Requester) (m value : Nat) : State :=
  if tbit value 0 && mayManage s.hw who then s.onHw (fun h => ring h who m) else s

def execMbxRing (who : Requester) (m : Fin 16) (value : Word) (s : State) : Result :=
  .next (mbxRingWrite s who m.val value.toNat)

/-- The record of MBX.INFO (R529). -/
def infoRecord (h : Hw) : List Byte :=
  recordBytes 8 [(16, h.sys.patch), (8, h.sys.minor), (8, h.sys.major), (1, h.sys.slot), (15, 0), (16, 2016)]

/-- MBX.INFO returns the release, the booted slot and BODY_MAX (R529). -/
def execMbxInfo (m : Fin 16) (s : State) : Result :=
  .next (runHw s m.val 0x101 [] false fun _ h => (h, some (Reply.ok (infoRecord h))))

/-- MBX.NOP returns its request body unchanged (R529): it takes any LEN that is a multiple of 8 up to 2,016. -/
def nop (s : State) (m : Nat) : State :=
  if mayRun s.hw m 0x102 then
    let x := s.hw.mailbox m
    let reply :=
      if s.hw.tap.unlock == 1 then Reply.busy rState
      else if x.len % 8 != 0 || 2016 < x.len then Reply.denied rLength
      else if x.reserved != 0 then Reply.denied rReserved
      else if x.part != 0 then Reply.denied rRange
      else Reply.ok (leBytes x.len x.body)
    s.onHw (fun h => answer h m reply)
  else s

def execMbxNop (m : Fin 16) (s : State) : Result := .next (nop s m.val)

end Sys2Proof.Machine
end

