-- ==== Sys2Proof/Machine/Pair.lean ====
section
/-!
DEFINITION. Mirror pairs (chapter 16): joining and resynchronisation (R508, R511), mirror records and their acknowledgements
(R493–R495), divergence and its outcome (R497–R500), takeover and fencing (R501–R504), switches (R510), PAIR.* (R511–R514).
-/
namespace Sys2Proof.Machine
open Sys2Proof

/-! ### Pieces -/

/-- The Zenith core's error log (R541). -/
def coreLog : Nat := 162
def pairCount (h : Hw) (i : Nat) : Hw := h.onPair fun p => { p with counts := KMap.mod p.counts i (satInc 32) }
/-- A record that asks for no acknowledgement. -/
def sendControl (h : Hw) (i : MirrorItem) : Hw := h.onPair fun p => { p with control := (i :: p.control).take 16 }
/-- The next pair epoch (R488). -/
def nextEpoch (e : Nat) : Nat := if e == 255 then 1 else e + 1
/-- Change what the module is for a service. -/
def setRole (h : Hw) (v role : Nat) : Hw :=
  h.onPair fun p =>
    if p.service0 == v then { p with role0 := role } else if p.service1 == v && p.symmetric then { p with role1 := role } else p
def setEpoch (h : Hw) (v e : Nat) : Hw :=
  h.onPair fun p =>
    if p.service0 == v then { p with pepoch0 := e } else if p.service1 == v && p.symmetric then { p with pepoch1 := e } else p
/-- The services of the pair. -/
def Pair.services (p : Pair) : List Nat := if p.symmetric then [p.service0, p.service1] else [p.service0]

/-- SYS_PAIR (R514). -/
def sysPair (h : Hw) : Nat :=
  let p := h.pair
  if p.state == 0 then 0
  else pack [(3, p.state), (1, b2n p.symmetric), (2, p.role0), (2, p.role1), (2, p.check), (1, b2n p.fenceIn), (1, b2n p.fenceOut), (12, p.partner),
    (12, p.service0), (12, p.service1), (8, p.pepoch0), (8, p.pepoch1)]

/-- A packet held goes where it now belongs: its receive buffer is free, and it is decoded here if the module is active for its service,
and routed on otherwise (R440, R486, R504). -/
def releasePacket (h : Hw) (a : Arrived) : Hw :=
  let h := if a.port < 64 then leaveBuffer h a.port a.packet else h
  if isOwn h a.packet.dst then queueAt h (destPort a.packet) false a.packet else routeBy h h.router.epoch a.packet
/-- Packets held for services that hold them no more. -/
def releaseHeld (h : Hw) : Hw :=
  let l := h.pair.heldPackets.filter (fun p => !heldService h p.packet.dst)
  let h := h.onPair fun p => { p with heldPackets := p.heldPackets.filter (fun q => heldService h q.packet.dst) }
  l.foldl releasePacket h

/-- Answers that waited for records up to number `n` leave (R103, R173, R494). -/
def releaseAnswers (h : Hw) (n : Nat) : Hw :=
  let x := h.pair
  let h := h.onPair fun p => { p with
    heldAnswers := p.heldAnswers.filter (fun a => n < a.1), heldTiles := p.heldTiles.filter (fun a => n < a.1)
    heldReplies := p.heldReplies.filter (fun a => n < a.1), heldWipes := p.heldWipes.filter (fun a => n < a.1) }
  let h := (x.heldAnswers.filter (fun a => a.1 ≤ n)).foldl (fun h a => send h a.2) h
  let h := (x.heldTiles.filter (fun a => a.1 ≤ n)).foldl (fun h a => { h with answers := KMap.ins h.answers a.2.1 a.2.2 }) h
  let h := (x.heldReplies.filter (fun a => a.1 ≤ n)).foldl (fun h a => answer h a.2.1 { status := a.2.2.1, body := a.2.2.2 }) h
  (x.heldWipes.filter (fun a => a.1 ≤ n)).foldl (fun h a => freeRegion h a.2) h
/-- The records outstanding are given up; what waited for them completes on this module's own commit (R500). -/
def completeAlone (h : Hw) : Hw := releaseAnswers (h.onPair fun p => { p with outgoing := [] }) h.pair.seq
/-- The records of one service are given up while others are still mirrored; what waited for none but them completes (R500). -/
def completeService (v : Nat) (h : Hw) : Hw :=
  let h := h.onPair fun p => { p with outgoing := p.outgoing.filter fun r => r.1.service != v }
  match h.pair.outgoing with
  | [] => releaseAnswers h h.pair.seq
  | r :: _ => if r.1.seq == 0 then h else releaseAnswers h (r.1.seq - 1)
/-- The records outstanding are given up, and what waited for them does not happen (R503, R505). -/
def dropOutgoing (h : Hw) : Hw := h.onPair fun p => { p with outgoing := [], heldAnswers := [], heldTiles := [], heldReplies := [], heldWipes := [] }

/-- Chunks in progress of the services that the module no longer serves are abandoned uncommitted (R503). -/
def dropChunk (r : Run) : Run := { r with chunk := none, walkReads := [] }
def abandonChunks (h : Hw) : Hw :=
  { h with
    queues := h.queues.map (fun (q : Nat × Queue) =>
      if runsFor h q.2.service then q else (q.1, { q.2 with execs := q.2.execs.map fun (e : Nat × Exec) => (e.1, { e.2 with run := dropChunk e.2.run }) }))
    colls := h.colls.map (fun (g : Nat × Group) =>
      if runsFor h g.2.service then g else (g.1, { g.2 with inst := g.2.inst.map fun (i : Instance) =>
        { i with segs := i.segs.map (fun (x : Nat × Segment) => (x.1, { x.2 with run := dropChunk x.2.run })), record := dropChunk i.record } })) }

/-! ### Leaving (R512) -/

/-- Objects of services that the module is not active for are released, and their granules wiped under R103. -/
def releaseForeign (h : Hw) : Hw :=
  let mine := fun (v : Nat) => runsFor h v
  let h := (h.contexts.filter (fun c => !mine c.2.service)).foldl (fun h c => unbind c.1 h) h
  let h := { h with
    queues := h.queues.filter (fun q => mine q.2.service), colls := h.colls.filter (fun g => mine g.2.service)
    snaps := h.snaps.filter (fun x => mine (h.region x.1).service) }
  (h.regions.filter (fun r => r.2.state != 0 && !mine r.2.service)).foldl (fun h r => h.setRegion r.1 { r.2 with state := 3, acl := [] }) h

/-- The pair ends here: the services that the module is active for stay, with PEPOCH 0. -/
def leavePair (h : Hw) : Hw :=
  let mine := activeServices h
  let h := setLevel (completeAlone h) 0x324 false 0
  let h := releaseForeign (abandonChunks h)
  let p := h.pair
  releaseHeld (h.onPair fun _ => { kept := mine, heldPackets := p.heldPackets, counts := p.counts, seq := p.seq, partnerLogs := p.partnerLogs, control := p.control })

/-- PAIR.LEAVE. -/
def pairLeave (_ : Req) (h : Hw) : Hw × Option Reply :=
  if h.pair.state == 0 then (h, some (Reply.denied rState))
  else (leavePair (if h.pair.state == 4 then h else sendControl h .leave), some Reply.ok)
def execPairLeave (m : Fin 16) (s : State) : Result := .next (runHw s m.val 0xC02 [] false pairLeave)

/-! ### Joining (R508, R511) -/

/-- Regions of this module for the check of R511: ID, base, granules. -/
def regionExtents (h : Hw) : List (Nat × Nat × Nat) :=
  (List.filter (fun r : Nat × Region => r.1 != 0 && r.2.state != 0) h.regions).map fun r => (r.1, r.2.base, r.2.extent)
/-- Two modules' regions share an ID or a granule. -/
def regionsMeet (a b : List (Nat × Nat × Nat)) : Bool :=
  a.any fun x => b.any fun y => x.1 == y.1 || (x.2.1 < y.2.1 + y.2.2 && y.2.1 < x.2.1 + x.2.2)
/-- Two joins match in mode, services and opposite roles; a module that returns is standby for every service. -/
def joinsMatch (a b : JoinInfo) : Bool :=
  a.partner == b.node && b.partner == a.node && a.symmetric == b.symmetric
    && (if a.symmetric then a.service0 == b.service1 && a.service1 == b.service0
        else a.service0 == b.service0 && (if !b.serving.isEmpty then a.standby else if !a.serving.isEmpty then b.standby else a.standby != b.standby))
/-- This module's own join, from the pair that it is in. -/
def ownJoin (h : Hw) : JoinInfo :=
  let p := h.pair
  { node := h.sys.moduleId, partner := p.partner, symmetric := p.symmetric, service0 := p.service0, service1 := p.service1, standby := p.standby
    regions := regionExtents h
    serving := (activeServices h).map fun v => (v, pepochOf h v) }

/-- Objects that the active had before the pair formed belong to its service from now on (R491). -/
def adopt (v : Nat) (h : Hw) : Hw :=
  { h with
    regions := h.regions.map (fun (r : Nat × Region) => if r.1 == 0 || r.2.service != 0 then r else (r.1, { r.2 with service := v }))
    contexts := h.contexts.map (fun (c : Nat × Context) => if c.2.bound && c.2.service == 0 then (c.1, { c.2 with service := v }) else c)
    queues := h.queues.map (fun (q : Nat × Queue) => if q.2.service == 0 then (q.1, { q.2 with service := v }) else q)
    colls := h.colls.map (fun (g : Nat × Group) => if g.2.service == 0 then (g.1, { g.2 with service := v }) else g) }

/-- All metadata of R493 as records: the first step of a resynchronisation (R508). -/
def sendMetadata (h : Hw) : Hw :=
  let none' : Hw := { pair := h.pair }
  let h := (mirrorItems none' h).foldl (fun h p => emit h p.1 p.2) h
  h.logs.foldl (fun h l => emit h (mirrorHead h) (.log l.1 l.2)) h

/-- The pair forms, with resynchronisation under way. -/
def formPair (links ret : Nat) (a b : JoinInfo) (h : Hw) : Hw :=
  let back := !b.serving.isEmpty
  let epoch := fun (v : Nat) => match b.serving.find? (fun s => s.1 == v) with | some s => s.2 | none => 1
  let q := h.pair
  let h := setLevel h 0x324 false 0
  let h := h.onPair fun p =>
    if !a.serving.isEmpty then { p with state := 1, alone := [], linkLost := false, diverged := [], own := none, other := none, syncPhase := 1, offered := some b }
    else
      { state := 1, symmetric := a.symmetric, partner := b.node, service0 := a.service0, service1 := a.service1, links := links, ret := ret
        standby := a.standby, returned := back, syncPhase := 1, offered := some b, fenceIn := p.fenceIn
        role0 := if back || a.standby then 2 else 1, role1 := if a.symmetric then 2 else 0
        pepoch0 := epoch a.service0, pepoch1 := if a.symmetric then epoch a.service1 else 0
        heldPackets := q.heldPackets, counts := q.counts, seq := q.seq, partnerLogs := q.partnerLogs, control := q.control }
  let h := if h.pair.role0 == 1 then adopt h.pair.service0 h else h
  sendMetadata h

/-- The joins of both modules stand: the pair forms, or the last conditions of R511 refuse it. -/
def tryForm (h : Hw) : Hw :=
  match h.pair.asked, h.pair.offered with
  | some (m, links, ret, a), some b =>
    if !joinsMatch a b then h
    else if a.symmetric && regionsMeet a.regions b.regions then
      answer (h.onPair fun p => { p with asked := none }) m (Reply.denied rState)
    else answer (formPair links ret a b (h.onPair fun p => { p with asked := none })) m Reply.ok
  | _, _ => h

/-- PAIR.JOIN: the first result of R511 that applies, or the join stands and waits for the partner's. -/
def pairJoin (q : Req) (h : Hw) : Hw × Option Reply :=
  let (partner, links, sym, s0, s1, standby, ret) := (q.p 0, q.p 1, q.p 2 == 1, q.p 3, q.p 4, q.p 5 == 1, q.p 6)
  let me := h.sys.moduleId
  let holds := h.regions.any (fun r => r.1 != 0 && r.2.state != 0) || contextBound h || groupActive h
  if !poolOpen h then (h, some (Reply.busy rNotReady))
  else if h.pair.state != 0 && h.pair.state != 4 then (h, some (Reply.busy rState))
  else if popcount 16 links == 0 || 4 < popcount 16 links || ret == 3 || partner == me || s0 == me || s0 == partner || (sym && (s1 == me || s1 == partner))
      || (if sym then standby || s0 == s1 else s1 != 0) then (h, some (Reply.denied rRange))
  else if (bitsOf 16 links).any (fun n => (h.link n).state != 3 || (h.link n).partner != partner) then (h, some (Reply.denied rState))
  else if ((!sym && standby) || h.pair.state == 4) && holds then (h, some (Reply.denied rState))
  else
    let j : JoinInfo := { node := me, partner := partner, symmetric := sym, service0 := s0, service1 := s1, standby := standby, regions := regionExtents h }
    let h := setWork (sendControl h (.join j)) q.m 0xC01 [] []
    (tryForm (h.onPair fun p => { p with asked := some (q.m, links, ret, j) }), none)
def execPairJoin (m : Fin 16) (s : State) : Result :=
  .next (busyFirst s m.val 0xC01 [.f 12, .f 16, .f 1, .f 12, .f 12, .f 1, .f 2]
    rState (fun _ h => poolOpen h && h.pair.state != 0 && h.pair.state != 4) pairJoin)

/-- No matching join within 1 s (R511). -/
def joinTimeout (h : Hw) : Hw :=
  match h.pair.asked with
  | some (m, _) => answer (h.onPair fun p => { p with asked := none }) m { status := stTimeout }
  | none => h
def execPairJoinTimeout (s : State) : Result := .next (s.onHw joinTimeout)

/-- The partner's join arrives: it completes this module's own, or the SOLO module of a pair takes its partner back (R508). -/
def takeJoin (j : JoinInfo) (h : Hw) : Hw :=
  let a := ownJoin h
  if h.pair.state == 3 && !a.serving.isEmpty && j.serving.isEmpty && joinsMatch a j then
    formPair h.pair.links h.pair.ret a j (sendControl h (.join a))
  else if h.pair.state == 0 || h.pair.state == 4 then tryForm (h.onPair fun p => { p with offered := some j })
  else h

/-! ### Divergence (R497–R500) -/

/-- A service diverges: the self-check runs. -/
def diverge (v : Nat) (lost : Bool) (h : Hw) : Hw :=
  if h.pair.diverged.contains v || !(h.pair.state == 1 || h.pair.state == 2 || h.pair.state == 3) || h.pair.alone.contains v then h
  else
    let h := raise (pairCount h (if lost then 2 else 1)) 0x320 v
    h.onPair fun p => { p with
      diverged := p.diverged ++ [v], linkLost := p.linkLost || lost, check := 1, own := none
      other := if p.diverged.isEmpty then none else p.other, probes := if p.diverged.isEmpty then 0 else p.probes }

/-- One probe of the partner's SYS_PAIR (R499). -/
def probe (h : Hw) : Hw :=
  let (tid, h) := newTid h 0
  let h := (pairCount h 4).onPair fun p => { p with probes := p.probes + 1, probeTid := tid }
  let a := h.pair.partner * 2 ^ 48 + 0xFF0000000020
  send h (mkPacket 0x60 (opcodeVc 0x60) 0 h.pair.partner h.sys.moduleId tid (leBytes 16 (pack [(60, a), (4, 0), (13, 8)])))

/-- Whether the module is standby for a service that diverges. -/
def standsBy (h : Hw) : Bool := h.pair.diverged.any (standbyServices h).contains

/-- A service is yielded (R500): it is mirrored no more, and its packets go on to the partner. -/
def yieldService (v : Nat) (h : Hw) : Hw :=
  let h := setRole (pairCount h 7) v 3
  raise (abandonChunks h) 0x322 v
/-- A service goes on SOLO (R500). -/
def goAlone (v : Nat) (h : Hw) : Hw := h.onPair fun p => { p with alone := p.alone ++ [v] }

/-- The outcome for one diverged service, once what it needs is known (R499): this module's result, and the partner's or the
probe's; an active whose mirror links are all lost decides by its own. -/
def decideService (v : Nat) (h : Hw) : Hw :=
  let p := h.pair
  let active := (activeServices h).contains v
  match p.own with
  | none => h
  | some fails =>
    if p.other.isNone && !(active && p.linkLost) then h
    else
      let otherFails := p.other.getD true
      let h := h.onPair fun p => { p with diverged := p.diverged.filter (fun x => x != v) }
      if !active && !fails && otherFails && p.state != 1 then
        h.onPair fun p => { p with taking := p.taking ++ [v], fenceWait := p.linkLost && p.partner < h.sys.moduleId }
      else
        let h := logOpen h coreLog 0 0x38 none (some 0)
        let h := if p.linkLost then logOpen h coreLog 0 0x3B none (some 0) else h
        let h := h.onPair fun p => { p with state := 3 }
        if active && !(fails && !otherFails) then
          let h := if fails then raise h 0x321 v else h
          let h := goAlone v h
          if (activeServices h).all (fun x => h.pair.alone.contains x) then completeAlone h else completeService v h
        else
          let h := yieldService v (goAlone v h)
          releaseHeld (if (activeServices h).isEmpty then dropOutgoing h else h)
/-- Decide what can be decided. -/
def decide' (h : Hw) : Hw := forAll h.pair.diverged decideService h

/-- MIRROR_LINK_LOST: 100 µs without a record (R497). -/
def mirrorLinkLost (h : Hw) : Hw :=
  if h.pair.state == 0 || h.pair.state == 4 || h.pair.linkLost then h
  else
    let h := forAll h.pair.services (fun v h => diverge v true h) h
    if standsBy h then probe h else h
def execMirrorLinkLost (s : State) : Result := .next (s.onHw mirrorLinkLost)

/-- What the self-check reads of the module itself (R498): FATAL slots, CLK_LOSS, the feed supervisors. -/
def selfCheckFails (h : Hw) : Bool := faultN h || h.clk.loss || h.pwr.holdup
/-- SELF_CHECK_END: `fails` says whether digests, the Zenith core or a tile failed their part. -/
def selfCheckEnd (fails : Bool) (h : Hw) : Hw :=
  if h.pair.check != 1 || h.pair.diverged.isEmpty then h
  else
    let bad := fails || selfCheckFails h
    let h := if bad then pairCount h 3 else h
    let h := h.onPair fun p => { p with check := if bad then 3 else 2, own := some bad }
    decide' (if h.pair.linkLost then h else sendControl h (.check bad))
def execSelfCheckEnd (fails : Bool) (s : State) : Result := .next (s.onHw (selfCheckEnd fails))

/-- 5 µs after a probe: the next of four, or, 20 µs after the first, the active counts as failed (R499). -/
def probeTimer (h : Hw) : Hw :=
  if !h.pair.linkLost || h.pair.probes == 0 || h.pair.other.isSome || !standsBy h then h
  else if h.pair.probes < 4 then probe h
  else decide' (h.onPair fun p => { p with other := some true })
def execPairProbeTimer (s : State) : Result := .next (s.onHw probeTimer)

/-- An answer to a probe (R499): the partner's SYS_PAIR. -/
def takeProbeAnswer (v : Nat) (h : Hw) : Hw :=
  let state := fld v 0 3
  let check := fld v 8 2
  let activeFor := fun (x : Nat) => (fld v 24 12 == x && fld v 4 2 == 1) || (tbit v 3 && fld v 36 12 == x && fld v 6 2 == 1)
  if !h.pair.linkLost || h.pair.other.isSome || !standsBy h then h
  else if state == 4 || check == 3 then decide' (h.onPair fun p => { p with other := some true })
  else if (check == 1 || check == 2) && (h.pair.diverged.filter (standbyServices h).contains).all activeFor then
    decide' (h.onPair fun p => { p with other := some false })
  else h

/-! ### Fencing and takeover (R501–R505) -/

/-- The module enters FENCED (R503). -/
def enterFenced (h : Hw) : Hw :=
  let v := h.pair.service0
  let h := h.onPair fun p => { p with
    state := 4, fenceIn := true, role0 := 0, role1 := 0, diverged := [], taking := [], fenceWait := false, writeHold := false, moving := none, syncPhase := 0 }
  let h := dropOutgoing (abandonChunks h)
  let h := logOpen h coreLog 2 0x3A none (some 0)
  releaseHeld (setLevel h 0x324 true v)
/-- PAIR_FENCE_N low and not driven here; it is sensed only in a pair (R503, R651). -/
def fenceLow (h : Hw) : Hw := if h.pair.state == 0 || h.pair.state == 4 || h.pair.fenceOut then h else enterFenced h
def execPairFenceNLow (s : State) : Result := .next (s.onHw fenceLow)

/-- An open transaction is probed (R138): its requester, whom it awaits, and whom the entry lists. -/
def probeTxn (t k : Nat) (s : State) : State :=
  match KMap.find? (s.hw.dir t).txns k with
  | none => s
  | some x =>
    let e := match KMap.find? (s.hw.dir t).entries x.line with | some e => reachable s.hw e | none => []
    let owner := if x.state == 4 || x.state == 5 then [x.owner] else []
    let l := ((x.requester :: x.waits ++ owner ++ e).eraseDups).filter (fun n => !isOwn s.hw n && !isDead s.hw n)
    let x := { x with state := 7, waits := l, found := [], snoop := 0x15, reopened := false, hadOwner := x.state == 4 || x.state == 5, data := false }
    let r : LineReq := { serves := x.serves, region := x.region, serial := x.serial, home := x.home, requester := x.requester, tid := x.tid
                         opcode := x.opcode, sclass := x.sclass, loc := x.line * 128 }
    let s := s.onHw fun h => sendSnoops (h.modTxn t k fun _ => x) t r k 0x15 l
    if l.isEmpty then rebuildLine s t k x false else s
/-- Every open transaction of a service is probed. -/
def probeOpen (v : Nat) (s : State) : State :=
  s.hw.dirs.foldl (fun s d => (d.2.txns.filter (fun x => x.2.home == v)).foldl (fun s x => probeTxn d.1 x.1 s) s) s

/-- A descriptor whose slot was still being read at the former active is fetched again (R244). -/
def refetch (q : Queue) : Queue :=
  match List.find? (fun e : Nat × Exec => e.2.desc.isEmpty) q.execs with
  | some e => { q with head := e.1, execs := q.execs.filter (fun x => !x.2.desc.isEmpty) }
  | none => q
/-- The module becomes active for a service that it was standby for. -/
def becomeActive (v : Nat) (h : Hw) : Hw :=
  let h := setRole h v 1
  let h := { h with queues := h.queues.map (fun (q : Nat × Queue) => if q.2.service == v then (q.1, refetch q.2) else q) }
  releaseHeld h

/-- TAKEOVER (R501): a low line fences the module instead. -/
def takeOver (s : State) : State :=
  let p := s.hw.pair
  if p.taking.isEmpty || p.fenceWait then s
  else if p.fenceIn && !p.fenceOut then s.onHw enterFenced
  else
    let s := s.onHw fun h => h.onPair fun p => { p with fenceOut := true, fenceIn := true, state := 3, writeHold := true, taking := [], alone := p.services }
    let s := s.onHw completeAlone
    p.taking.foldl (fun s v =>
      let s := s.onHw fun h => becomeActive v (setEpoch h v (nextEpoch (pepochOf h v)))
      let s := probeOpen v s
      s.onHw fun h => logOpen (raise (pairCount h 5) 0x323 v) coreLog 2 0x39 none (some 0)) s |>.onHw (resendInstances p.taking)
def execTakeover (s : State) : Result := .next (takeOver s)

/-- The 10 µs of the module with the higher ID end (R501). -/
def execTakeoverFenceWaitEnd (s : State) : Result := .next (s.onHw fun h => h.onPair fun p => { p with fenceWait := false })
/-- The 2 µs of R501 step 4 end, and the writes that they held back go on. -/
def execTakeoverWriteHoldEnd (s : State) : Result := commit (fun s => resumeParked (s.onHw fun h => h.onPair fun p => { p with writeHold := false })) s

/-! ### Switching (R509, R510) -/

/-- Begin to move a service away. -/
def beginSwitch (v : Nat) (m : Option Nat) (h : Hw) : Hw := h.onPair fun p => { p with moving := some (v, m) }
/-- PAIR.SWITCH (R512). -/
def pairSwitch (q : Req) (h : Hw) : Hw × Option Reply :=
  if h.pair.state == 0 || !(activeServices h).contains (q.p 0) then (h, some (Reply.denied rState))
  else if h.pair.state != 2 || h.pair.moving.isSome then (h, some (Reply.busy rState))
  else (setWork (beginSwitch (q.p 0) (some q.m) h) q.m 0xC03 [] [q.p 0], none)
def execPairSwitch (m : Fin 16) (s : State) : Result := .next (runHw s m.val 0xC03 [.f 12] false pairSwitch)

/-- Something of a service is still open: a transaction, a BULK access, or a chunk whose writes are on their way. -/
def serviceBusy (h : Hw) (v : Nat) : Bool :=
  h.dirs.any (fun d => d.2.txns.any (fun x => x.2.home == v) || d.2.overflow.any (fun w => w.packet.dst == v))
    || h.bulk.any (fun b => (h.region b.2.region).service == v)
    || h.queues.any (fun q => q.2.service == v && q.2.execs.any (fun e => match e.2.run.chunk with | some c => c.wrote | none => false))
/-- SWITCH_DRAIN_DONE: the last record hands the service over, and the packets held go to the new active. -/
def switchDrained (h : Hw) : Hw :=
  match h.pair.moving with
  | none => h
  | some (v, m) =>
    if serviceBusy h v || h.pair.state != 2 then h
    else
      let e := nextEpoch (pepochOf h v)
      let held := h.pair.heldPackets.filter (fun p => p.packet.dst == v)
      let h := emit h v (.handOver v e)
      let h := setRole (setEpoch (pairCount h 6) v e) v 2
      let h := abandonChunks (h.onPair fun p => { p with moving := none, heldPackets := p.heldPackets.filter (fun q => q.packet.dst != v) })
      let h := held.foldl releasePacket h
      match m with | some m => answer h m Reply.ok | none => h
def execSwitchDrainDone (s : State) : Result := .next (s.onHw switchDrained)

/-! ### Resynchronisation (R508, R509) -/

/-- RESYNC_METADATA_DONE: the data of mirrored regions follows. -/
def metadataDone (s : State) : State :=
  let p := s.hw.pair
  if p.state != 1 || p.syncPhase != 1 then s
  else
    let s := s.onHw fun h => h.onPair fun p => { p with syncPhase := 2 }
    s.onHw fun h => (List.filter (fun r : Nat × Region => r.2.mirrored && r.2.state != 0) h.regions).foldl (fun h r =>
      let lo := r.2.base * 2097152
      let hi := (r.2.base + r.2.extent) * 2097152
      let lines := ((List.filter (fun c : Nat × Byte => lo ≤ c.1 && c.1 < hi) s.pool.mem).map (fun (c : Nat × Byte) => c.1 / 128)
        ++ (List.filter (fun c : Nat × Bool => lo ≤ 8 * c.1 && 8 * c.1 < hi) s.pool.poison).map (fun (c : Nat × Bool) => c.1 / 16)).eraseDups
      lines.foldl (fun h l => emit h r.2.service (lineItem s.pool (128 * l))) (emit h r.2.service (.wipe r.1))) (emit h (mirrorHead h) .metadataDone)
def execResyncMetadataDone (s : State) : Result := .next (metadataDone s)

/-- PAIR_RETURN asks for the service back (R509). -/
def reclaims (p : Pair) : Bool := p.returned && p.symmetric && (p.ret == 2 || (p.ret == 0 && Config.fullBoard))
/-- RESYNC_DONE: the pair is PAIRED, and PAIR_FENCE_N is released (R503). -/
def resyncDone (h : Hw) : Hw :=
  if h.pair.state != 1 || h.pair.syncPhase != 2 then h
  else
    let back := reclaims h.pair
    let h := h.onPair fun p => { p with state := 2, syncPhase := 0, fenceIn := false, fenceOut := false, returned := false }
    let h := raise (emit h (mirrorHead h) .dataDone) 0x325 h.pair.service0
    if back then sendControl h (.reclaim h.pair.service0) else h
def execResyncDone (s : State) : Result := .next (s.onHw resyncDone)

/-! ### Records (R493–R495) -/

/-- A region of a service that the module stands by for: where the region is new and not mirrored, its granules are poisoned (R495); where
it becomes FREE they are zero again (R81). -/
def applyRegion (id : Nat) (r : Region) (s : State) : State :=
  let new := (s.hw.region id).state != 1 && r.state == 1
  let gone := (s.hw.region id).state != 0 && r.state == 0
  let s := s.onHw fun h => h.setRegion id r
  if new && !r.mirrored then s.onPool fun p => p.poisonGranules r.base r.extent
  else if gone then s.onPool fun p => p.wipe (r.base * 2097152) ((r.base + r.extent) * 2097152)
  else s

/-- What a metadata update or a data write changes here. -/
def applyItem (i : MirrorItem) (s : State) : State :=
  match i with
  | .line off data pz => storeFlagged s false 3 off data (fun w => pz.getD (w - off / 8) false)
  | .region id r => applyRegion id r s
  | .wipe id => let r := s.hw.region id; s.onPool fun p => p.wipe (r.base * 2097152) ((r.base + r.extent) * 2097152)
  | .snap id x => s.onHw fun h => h.setSnap id x
  | .agents groups mgmt dead => s.onHw fun h => { h with groups := groups, dead := dead, sys := { h.sys with mgmt := mgmt } }
  | .context id c => s.onHw fun h => h.setCtx id c
  | .faults t table => s.onHw fun h => h.setTile t { h.tile t with faults := table }
  | .queue id q => s.onHw fun h => { h with queues := match q with | some q => KMap.ins h.queues id q | none => KMap.erase h.queues id }
  | .entry t line e => s.onHw fun h => h.modDir t fun d => { d with entries := match e with | some e => KMap.ins d.entries line e | none => KMap.erase d.entries line }
  | .txn t slot x g => s.onHw fun h => h.modDir t fun d =>
      { d with txns := (match x with | some x => KMap.ins d.txns slot x | none => KMap.erase d.txns slot), gens := KMap.set d.gens slot g }
  | .executed t e => s.onHw fun h => h.modDir t fun d => { d with filter := d.filter ++ [e] }
  | .group id g => s.onHw fun h => { h with colls := match g with | some g => KMap.ins h.colls id g | none => KMap.erase h.colls id }
  | .log k l => s.onHw fun h => h.onPair fun p => { p with partnerLogs := KMap.set p.partnerLogs k l }
  | .invalidated i => s.onHw fun h =>
      let h := acceptInvalidation h i
      { h with invalidations := h.invalidations.filter (fun j => j.serial + 1 != h.stamp) }
  | .handOver v e => s.onHw fun h => resendInstances [v] (becomeActive v (setEpoch (pairCount h 6) v e))
  | .metadataDone | .dataDone | .message .. => s
  | .heartbeat | .join _ | .diverge _ | .check _ | .reclaim _ | .leave => s

/-- Records that ask for no acknowledgement. -/
def isControl (i : MirrorItem) : Bool :=
  match i with | .heartbeat | .join _ | .diverge _ | .check _ | .reclaim _ | .leave => true | _ => false
/-- What such a record does. -/
def applyControl (i : MirrorItem) (h : Hw) : Hw :=
  match i with
  | .join j => takeJoin j h
  | .diverge v => diverge v false h
  | .check fails => if h.pair.diverged.isEmpty then h else decide' (h.onPair fun p => { p with other := some fails })
  | .reclaim v => if h.pair.state == 2 && (activeServices h).contains v && h.pair.moving.isNone then beginSwitch v none h else h
  | .leave => if h.pair.state == 0 || h.pair.state == 4 then h else leavePair h
  | _ => h

/-- MIRROR_RECORD: a standby applies the record and acknowledges it with its digest (R494); a module that has driven PAIR_FENCE_N,
or is FENCED, takes none (R501, R503). -/
def takeRecord (link : Nat) (r : MirrorRec) (s : State) : State :=
  let p := s.hw.pair
  if isControl r.item then
    if (p.state == 0 || p.state == 4) || (tbit p.links link && (!p.fenceOut || (match r.item with | .join _ => true | _ => false))) then
      s.onHw (applyControl r.item)
    else s
  else if !(p.state == 1 || p.state == 2 || p.state == 3) || !tbit p.links link || (p.fenceOut && p.state != 1)
      || !(standbyServices s.hw).contains r.service then s
  else (applyItem r.item s).onHw fun h => h.onPair fun p => { p with acks := (Config.mirrorDigest r.item :: p.acks).take 16 }
def execMirrorRecord (link : Fin 16) (record : MirrorRec) (s : State) : Result := .next (takeRecord link.val record s)

/-- A metadata update, whose digests are compared; a data write carries none. -/
def isMetadata (i : MirrorItem) : Bool := match i with | .line .. => false | _ => true
/-- MIRROR_ACKNOWLEDGEMENT: the oldest record is committed on both modules; a digest that differs makes its service diverge
(R494, R497), and what waits for the record waits on. -/
def takeMirrorAck (d : Word) (h : Hw) : Hw :=
  match h.pair.outgoing with
  | [] => h
  | (r, mine) :: rest =>
    let h := if isMetadata r.item then pairCount h 0 else h
    let h := h.onPair fun p => { p with outgoing := rest }
    let h := if isMetadata r.item && d != mine then sendControl (diverge r.service false h) (.diverge r.service) else h
    if h.pair.diverged.isEmpty then releaseAnswers h r.seq else h
def execMirrorAcknowledgement (digest : Word) (s : State) : Result := .next (s.onHw (takeMirrorAck digest))

/-- HEARTBEAT_TIMER: 10 µs without a record (R497). -/
def execHeartbeatTimer (s : State) : Result :=
  .next (s.onHw fun h => if h.pair.state == 1 || h.pair.state == 2 || h.pair.state == 3 then sendControl h .heartbeat else h)

/-! ### PAIR.CONFIG and PAIR.QUERY (R512, R513) -/

def pairConfig (q : Req) (h : Hw) : Hw × Option Reply :=
  if h.pair.state == 0 then (h, some (Reply.denied rState))
  else if q.p 0 == 3 then (h, some (Reply.denied rRange))
  else (h.onPair fun p => { p with ret := q.p 0 }, some Reply.ok)
def execPairConfig (m : Fin 16) (s : State) : Result := .next (runHw s m.val 0xC04 [.f 2] false pairConfig)

/-- The bytes of an error-log slot (R382). -/
def slotBytes (x : LogSlot) : List Byte :=
  recordBytes 32 [(1, b2n x.valid), (2, x.sev), (5, 0), (8, x.code), (16, x.source), (32, x.info), (64, x.addr), (64, x.detail), (64, x.time)]
/-- The next granule to copy: measured progress (log entry 16); 0 outside the data copy (R663). -/
def syncGranule (h : Hw) : Nat × Hw := if h.pair.syncPhase == 2 then freshBits 18 h else (0, h)
def pairRecord (h : Hw) (granule : Nat) : List Byte :=
  let p := h.pair
  items ([.f 64 (sysPair h), .f 12 p.partner, .f 16 p.links, .f 1 (b2n p.symmetric), .f 12 p.service0, .f 12 p.service1, .f 1 (b2n p.standby), .f 2 p.ret,
      .f 18 granule]
    ++ ((List.range 8).map fun i => Item.f 32 (KMap.get p.counts i))
    ++ (List.range 165).map fun k =>
        let l : ErrorLog := KMap.get p.partnerLogs k
        .bytes (slotBytes l.first ++ slotBytes l.latest ++ slotBytes l.fatal))
def pairQuery (_ : Req) (h : Hw) : Hw × Option Reply :=
  let (g, h) := syncGranule h
  (h, some (Reply.ok (pairRecord h g)))
def execPairQuery (m : Fin 16) (s : State) : Result := .next (runHw s m.val 0xC05 [] false pairQuery)

end Sys2Proof.Machine
end

