-- ==== Sys2Proof/Machine/Pmbus.lean ====
section
/-!
DEFINITION. The SMBus target (R639–R642, R684) and its PMBus commands. Status bits and number forms are those of PMBus 1.4
(log entry 22).
-/
namespace Sys2Proof.Machine
open Sys2Proof

def Hw.onSmb (h : Hw) (f : Smbus → Smbus) : Hw := { h with smb := f h.smb }

/-- Whether the target answers: ALWAYS_ON runs (R639). -/
def smbOn (h : Hw) : Bool := h.pwr.alwaysOn

/-- The CML bit of STATUS_CML for an unsupported or malformed transaction, a bad PEC or a timeout (R641, R684). -/
def cmlBit (h : Hw) (bit : Nat) : Hw := h.onSmb fun b => { b with cml := Nat.lor b.cml bit }

/-- The address of the target (R639). -/
def smbAddress (h : Hw) : Nat := 0x58 + h.smb.straps % 4

/-- ALERT_N is asserted while any status bit of any page stands (R642). -/
def alertN (h : Hw) : Bool :=
  h.smb.cml != 0 || h.smb.pages.any (fun p => p.2.vout != 0 || p.2.iout != 0 || p.2.input != 0 || p.2.temperature != 0)

/-- A read on the pages that `on` accepts, by a right PEC, returns bytes; any other form sets CML, returns 0xFF bytes and changes
nothing (R641). -/
def smbRead (h : Hw) (x : SmbXfer) (on : Nat → Bool) (n : Nat) (value : Hw → List Byte) : Hw :=
  if !smbOn h then h
  else if x.read && x.data.isEmpty && on h.smb.page then h.onSmb fun b => { b with returned := value h }
  else (cmlBit h 0x02).onSmb fun b => { b with returned := List.replicate n 0xFF#8 }

/-- Pages of a command: every page, the input pages, the rails; a page of 0xFF takes no read. -/
def allPages (p : Nat) : Bool := p ≤ 11
def inputPages (p : Nat) : Bool := p ≤ 1
def railPages (p : Nat) : Bool := 2 ≤ p && p ≤ 11
/-- Commands without a page. -/
def noPage (_p : Nat) : Bool := true

/-- Linear11 of a value in thousandths: the smallest exponent whose mantissa fits in 0–1,023, rounded to nearest (log entry 22). -/
def linear11 (milli : Nat) : Nat :=
  let m := fun (e : Nat) => if e < 16 then (milli * 2 ^ (16 - e) + 500) / 1000 else (milli + 500 * 2 ^ (e - 16)) / (1000 * 2 ^ (e - 16))
  match (List.range 32).find? (fun e => m e ≤ 1023) with
  | some e => m e + 2048 * ((e + 16) % 32)
  | none => 1023 + 2048 * 15

/-- Linear16 with exponent −12 of a value in thousandths. -/
def linear16 (milli : Nat) : Nat := ((milli * 4096 + 500) / 1000) % 65536

/-- The page's status, and the summary bits of STATUS_WORD that it gives (PMBus 1.4). -/
def pageStatus (h : Hw) : PmbusStatus := KMap.get h.smb.pages h.smb.page
def statusWord (h : Hw) : Nat :=
  let x := pageStatus h
  let off := !tbit h.pwr.railsOn h.smb.page
  let low := [false, h.smb.cml != 0, x.temperature != 0, tbit x.input 4, tbit x.iout 7, tbit x.vout 7, off, false]
  let high := [false, false, false, off, false, x.input != 0, x.iout != 0, x.vout != 0]
  let other := (tbit x.vout 4 || tbit x.vout 5 || tbit x.vout 6 || tbit x.iout 5 || Nat.land x.input 0xEF != 0)
  packBits ((low.set 0 other) ++ high)

/-- SYS_STATE (R548). UP_MS is a measured time, so it is free; every field is zero while MODULE is in reset (R640, log entry 16). -/
def readSysState (h : Hw) : Nat × Hw :=
  if !h.sys.fusesSensed then (0, h)
  else let (ms, h) := freshBits 32 h; (sysStateLow h + 2 ^ 32 * ms, h)

/-- SYS_DIE (R547): zero until the fuses are sensed. -/
def sysDie (h : Hw) : Nat :=
  if h.sys.fusesSensed then pack [(32, Config.fuseLot.toNat), (5, Config.fuseWafer.toNat), (3, 0), (8, Config.fuseDieX.toNat), (8, Config.fuseDieY.toNat)]
  else 0
/-- SYS_SERIAL (R547). -/
def sysSerial (h : Hw) : Nat := if h.sys.fusesSensed then Config.fuseSerial.toNat else 0

/-- A block read: its length, then its bytes. -/
def blockRead (b : List Byte) : List Byte := leBytes 1 b.length ++ b

/-- PAGE reads, or selects 0–11 or 0xFF (R640, R641); a write whose PEC does not match sets CML and has no effect. -/
def pmbusPage (h : Hw) (x : SmbXfer) : Hw :=
  if !smbOn h then h
  else if x.read then smbRead h x noPage 1 (fun h => leBytes 1 h.smb.page)
  else
    match x.data with
    | [b] => if x.badPec then cmlBit h 0x20 else if b.toNat ≤ 11 || b.toNat == 0xFF then h.onSmb fun s => { s with page := b.toNat } else cmlBit h 0x02
    | _ => cmlBit h 0x02
def execPmbusPage (x : SmbXfer) (s : State) : Result := .next (s.onHw fun h => pmbusPage h x)

/-- CLEAR_FAULTS clears the status bits of the selected pages, and STATUS_CML (R640, R642), but not with a PEC that does not match (R641). -/
def clearFaults (h : Hw) (x : SmbXfer) : Hw :=
  if !smbOn h then h
  else if x.read || !x.data.isEmpty then cmlBit h 0x02
  else if x.badPec then cmlBit h 0x20
  else h.onSmb fun b => { b with cml := 0, pages := if b.page == 0xFF then [] else KMap.erase b.pages b.page }
def execPmbusClearFaults (x : SmbXfer) (s : State) : Result := .next (s.onHw fun h => clearFaults h x)

def execPmbusCapability (x : SmbXfer) (s : State) : Result := .next (s.onHw fun h => smbRead h x allPages 1 fun _ => leBytes 1 0xD0)
def execPmbusVoutMode (x : SmbXfer) (s : State) : Result := .next (s.onHw fun h => smbRead h x railPages 1 fun _ => leBytes 1 0x14)
def execPmbusStatusByte (x : SmbXfer) (s : State) : Result := .next (s.onHw fun h => smbRead h x allPages 1 fun h => leBytes 1 (statusWord h))
def execPmbusStatusWord (x : SmbXfer) (s : State) : Result := .next (s.onHw fun h => smbRead h x allPages 2 fun h => leBytes 2 (statusWord h))
def execPmbusStatusVout (x : SmbXfer) (s : State) : Result := .next (s.onHw fun h => smbRead h x railPages 1 fun h => leBytes 1 (pageStatus h).vout)
def execPmbusStatusIout (x : SmbXfer) (s : State) : Result := .next (s.onHw fun h => smbRead h x railPages 1 fun h => leBytes 1 (pageStatus h).iout)
def execPmbusStatusInput (x : SmbXfer) (s : State) : Result := .next (s.onHw fun h => smbRead h x inputPages 1 fun h => leBytes 1 (pageStatus h).input)
def execPmbusStatusTemperature (x : SmbXfer) (s : State) : Result := .next (s.onHw fun h => smbRead h x allPages 1 fun h => leBytes 1 (pageStatus h).temperature)
def execPmbusStatusCml (x : SmbXfer) (s : State) : Result := .next (s.onHw fun h => smbRead h x allPages 1 fun h => leBytes 1 h.smb.cml)

/-- The sample of the selected page. -/
def pageSample (h : Hw) : Nat × Nat × Nat := railSample h.pwr.sample h.smb.page
def execPmbusReadVin (x : SmbXfer) (s : State) : Result := .next (s.onHw fun h => smbRead h x inputPages 2 fun h => leBytes 2 (linear11 (pageSample h).1))
def execPmbusReadIin (x : SmbXfer) (s : State) : Result := .next (s.onHw fun h => smbRead h x inputPages 2 fun h => leBytes 2 (linear11 (pageSample h).2.1))
/-- Power is the product of voltage and current (R611), here in mW. -/
def pagePower (h : Hw) : Nat := (pageSample h).1 * (pageSample h).2.1 / 1000
def execPmbusReadPin (x : SmbXfer) (s : State) : Result := .next (s.onHw fun h => smbRead h x inputPages 2 fun h => leBytes 2 (linear11 (pagePower h)))
def execPmbusReadVout (x : SmbXfer) (s : State) : Result := .next (s.onHw fun h => smbRead h x railPages 2 fun h => leBytes 2 (linear16 (pageSample h).1))
def execPmbusReadIout (x : SmbXfer) (s : State) : Result := .next (s.onHw fun h => smbRead h x railPages 2 fun h => leBytes 2 (linear11 (pageSample h).2.1))
def execPmbusReadPout (x : SmbXfer) (s : State) : Result := .next (s.onHw fun h => smbRead h x railPages 2 fun h => leBytes 2 (linear11 (pagePower h)))
def execPmbusReadTemperature1 (x : SmbXfer) (s : State) : Result :=
  .next (s.onHw fun h => smbRead h x allPages 2 fun h => leBytes 2 (linear11 (1000 * (pageSample h).2.2)))
def execPmbusRevision (x : SmbXfer) (s : State) : Result := .next (s.onHw fun h => smbRead h x noPage 1 fun _ => leBytes 1 0x44)
def execPmbusMfrId (x : SmbXfer) (s : State) : Result := .next (s.onHw fun h => smbRead h x noPage 4 fun _ => blockRead [0x4C#8, 0x4D#8, 0x5A#8])
def execPmbusMfrModel (x : SmbXfer) (s : State) : Result :=
  .next (s.onHw fun h => smbRead h x noPage 7 fun _ => blockRead [0x4E#8, 0x4B#8, 0x36#8, 0x34#8, 0x30#8, 0x30#8])
def execPmbusMfrSerial (x : SmbXfer) (s : State) : Result := .next (s.onHw fun h => smbRead h x noPage 9 fun h => blockRead (leBytes 8 (sysSerial h)))
def execPmbusMfrSysState (x : SmbXfer) (s : State) : Result := .next (s.onHw fun h => let (v, h) := readSysState h; smbRead h x noPage 9 fun _ => blockRead (leBytes 8 v))
def execPmbusMfrSysDie (x : SmbXfer) (s : State) : Result := .next (s.onHw fun h => smbRead h x noPage 9 fun h => blockRead (leBytes 8 (sysDie h)))
def execPmbusMfrTemp (x : SmbXfer) (s : State) : Result := .next (s.onHw fun h => smbRead h x noPage 9 fun h => blockRead (leBytes 8 (pwrTemp h)))
def execPmbusMfrFeed (x : SmbXfer) (s : State) : Result := .next (s.onHw fun h => smbRead h x noPage 9 fun h => blockRead (leBytes 8 (pwrFeed h)))

/-- An unsupported code sets CML; so does any other malformed transaction (R641). It returns 0xFF bytes. -/
def execPmbusInvalidCommand (_code : Nat) (s : State) : Result :=
  .next (s.onHw fun h => if !smbOn h then h
    else (cmlBit h 0x02).onSmb fun b => { b with returned := [0xFF#8] })

/-- The Alert Response Address is answered with the target's own address while ALERT_N is asserted (R642). -/
def execSmbusAlertResponse (s : State) : Result :=
  .next (s.onHw fun h => if smbOn h && alertN h then h.onSmb fun b => { b with returned := leBytes 1 (2 * smbAddress h) } else h)

/-- SMB_CLK low for 25–35 ms: the interface resets, and the transaction that it cut off changes nothing and sets CML (R684). -/
def execSmbusTimeout (s : State) : Result := .next (s.onHw fun h => if smbOn h then (cmlBit h 0x02).onSmb fun b => { b with returned := [] } else h)

end Sys2Proof.Machine
end

