-- ==== Sys2Proof/Machine/RegMap.lean ====
section
/-!
DEFINITION. The control window (R22, R652): what every register reads and how a write of it acts (R5–R8, R652–R666), who may reach it
(R93), and the fabric's accesses to it (R24, R429, R687).
-/
namespace Sys2Proof.Machine
open Sys2Proof

/-! ### Reading -/

/-- SYS_ID (R547). -/
def sysId : Nat := pack [(16, 0x6400), (8, 0xB0), (8, 0), (16, 0x4C4D)]
/-- SYS_FW (R547). -/
def sysFw (h : Hw) : Nat :=
  let x := h.sys
  pack [(16, x.patch), (8, x.minor), (8, x.major), (1, x.slot), (1, b2n x.trial), (6, x.svn), (6, if x.fusesSensed then h.fuses.svn else 0)]
/-- SYS_NODE (R656). -/
def sysNode (h : Hw) : Nat := pack [(12, h.sys.moduleId), (2, h.sys.cfgSrc), (2, 0), (5, h.sys.mgmt.length)]
/-- The identity block; UP_MS of SYS_STATE is a free value (log entry 16). -/
def readIdentity (h : Hw) (o : Nat) : Nat × Hw :=
  match o with
  | 0x00 => (sysId, h)
  | 0x08 => (sysDie h, h)
  | 0x10 => (sysSerial h, h)
  | 0x18 => (sysFw h, h)
  | 0x20 => (sysPair h, h)
  | 0x28 => readSysState h
  | 0x30 => (sysNode h, h)
  | _ => (0, h)

def mbxStat (x : Mailbox) : Nat := pack [(2, x.state), (6, 0), (8, x.status), (16, x.reason), (12, x.rlen), (8, x.parts)]
def mbxDetail (x : Mailbox) : Nat := pack [(32, x.index), (32, x.elapsed)]
def mbxSrc (x : Mailbox) : Nat := pack [(12, x.ringer), (1, b2n x.pcie), (3, 0), (16, x.ignored), (32, x.seq)]
/-- A mailbox page (R515–R517). While the mailbox is BUSY its response body is undefined: a free value (R520). -/
def readMailbox (h : Hw) (m o : Nat) : Nat × Hw :=
  let x := h.mailbox m
  if o == 0x000 then (x.cmd, h)
  else if o == 0x008 then (x.tag, h)
  else if o < 0x020 then (0, h)
  else if o < 0x800 then ((KMap.get x.req ((o - 0x020) / 8)).toNat, h)
  else if o == 0x800 then (mbxStat x, h)
  else if o == 0x808 then (x.rtag, h)
  else if o == 0x810 then (mbxDetail x, h)
  else if o == 0x818 then (mbxSrc x, h)
  else if x.state == 1 then fresh h
  else ((KMap.get x.rsp ((o - 0x820) / 8)).toNat, h)

/-- The event controller's registers (R533, R534, R657–R659); EVC_CLAIM holds the last claim's result. -/
def readEvents (h : Hw) (o : Nat) : Nat :=
  if o < 0x2000 then readSource h (o / 8)
  else if o < 0x2800 then
    let v := (o - 0x2000) / 32
    match o % 32 / 8 with
    | 0 => readVecCfg h v
    | 1 => readVecStat h v
    | 2 => (h.vector v).claimResult
    | _ => 0
  else if 0x3000 ≤ o && o < 0x3080 then packBits ((List.range 64).map fun b => pendingSource h (64 * ((o - 0x3000) / 8) + b))
  else if 0x3080 ≤ o && o < 0x3100 then packBits ((List.range 64).map fun b => (h.source (64 * ((o - 0x3080) / 8) + b)).inService.isSome)
  else if 0x8000 ≤ o && o < 0x8400 then
    let v := (o - 0x8000) / 16
    if o % 16 == 0 then (h.vector v).msixAddr else readMsixCtl h v
  else if o == 0x9000 then packBits ((List.range 64).map fun v => (h.vector v).held)
  else 0

/-- A word of an error-log slot (R660); a slot that is not VALID reads its last entry (R661). -/
def slotWord (x : LogSlot) (i : Nat) : Nat :=
  match i with
  | 0 => pack [(1, b2n x.valid), (2, x.sev), (5, 0), (8, x.code), (16, x.source), (32, x.info)]
  | 1 => x.addr
  | 2 => x.detail
  | _ => x.time
/-- Whether some slot of a log is VALID. -/
def ErrorLog.any (l : ErrorLog) : Bool := l.first.valid || l.latest.valid || l.fatal.valid
/-- Error logs and their maps (R660–R662). -/
def readLogs (h : Hw) (o : Nat) : Nat :=
  if o < 128 * 165 then
    let l := h.log (o / 128)
    let r := o % 128
    match r / 32 with
    | 0 => if r == 0 then pack [(32, l.count), (1, b2n l.overflow)] else 0
    | 1 => slotWord l.first (r % 32 / 8)
    | 2 => slotWord l.latest (r % 32 / 8)
    | _ => slotWord l.fatal (r % 32 / 8)
  else if 0xF000 ≤ o && o < 0xF018 then packBits ((List.range 64).map fun b => (h.log (64 * ((o - 0xF000) / 8) + b)).any)
  else if 0xF018 ≤ o && o < 0xF030 then packBits ((List.range 64).map fun b => (h.log (64 * ((o - 0xF018) / 8) + b)).fatal.valid)
  else 0

/-- The clock and power block (R579, R580, R591, R592, R596, R624–R626). -/
def readClkPwr (h : Hw) (o : Nat) : Nat :=
  match o with
  | 0x00 => clkStatus h
  | 0x30 => h.clk.gateTile
  | 0x38 => h.clk.gateLink
  | 0x40 => clkObs h
  | 0x48 => rstCause h
  | 0x50 => pwrFeed h
  | 0x58 => pwrStateReg h
  | 0x60 => pwrTemp h
  | _ => if 0x08 ≤ o && o < 0x30 then clkDom h ((o - 8) / 8) else 0

/-- MLINKS_UP: the mirror links that are ACTIVE and carry records or heartbeats (R663). -/
def mlinksUp (h : Hw) : Nat :=
  if (h.pair.state == 1 || h.pair.state == 2) && !h.pair.linkLost then packBits ((List.range 16).map fun n => tbit h.pair.links n && (h.link n).state == 3)
  else 0
/-- PAIR_MIRROR (R663). -/
def pairMirror (h : Hw) : Nat × Hw :=
  let (g, h) := syncGranule h
  (pack [(16, mirrorLinks h), (16, mlinksUp h), (2, h.pair.syncPhase), (2, 0), (18, g)], h)
/-- PAIR_COUNTS: 16-bit views (R663). -/
def pairCounts (h : Hw) : Nat :=
  let c := fun i => KMap.get h.pair.counts i
  pack [(16, satView 16 (c 1 + c 2)), (16, satView 16 (c 5)), (16, satView 16 (c 6)), (16, satView 16 (c 7))]
/-- EFM_WORST: the lowest EFM of the lanes in use, zero unless ACTIVE (R665). -/
def efmWorst (h : Hw) (n : Nat) : Nat :=
  if (h.link n).state == 3 then ((lanesInUse h n).map (fun k => (h.lane k).efm)).foldl Nat.min 255 else 0
/-- LNK_STATUS n (R665). -/
def lnkStatus (h : Hw) (n : Nat) : Nat :=
  let l := h.link n
  pack [(3, l.state), (2, l.rate), (4, l.lanes), (1, b2n l.rx.recover), (12, l.partner), (2, l.tx.sleep), (2, l.rx.sleep), (4, degradedLanes h n),
    (1, b2n (16 ≤ n)), (3, l.gate), (8, efmWorst h n), (6, 0), (16, l.downs16)]
/-- LNK_ROUTER (R666). -/
def lnkRouter (h : Hw) : Nat :=
  pack [(1, h.router.epoch), (1, b2n h.router.holding), (3, h.time.state), (3, 0), (8, h.time.steps),
    (12, if h.time.state == 0 then 0 else h.time.root)]
/-- The pair and link summaries (R663–R666). -/
def readSummary (h : Hw) (o : Nat) : Nat × Hw :=
  let map := fun (n : Nat) (f : Nat → Bool) => packBits ((List.range n).map f)
  match o with
  | 0x000 => pairMirror h
  | 0x008 => (pairCounts h, h)
  | 0x100 => (map 64 fun n => (h.link n).state == 3, h)
  | 0x108 => (map 64 fun n => Nat.land (h.link n).lanes (degradedLanes h n) != 0, h)
  | 0x110 => (map 64 fun n => (h.link n).held, h)
  | 0x118 => (map 48 fun n => (h.link (16 + n)).gate == 1 || (h.link (16 + n)).gate == 3, h)
  | 0x120 => (lnkRouter h, h)
  | 0x128 => (h.time.now % 2 ^ 64, h)
  | _ => (if 0x1000 ≤ o && o < 0x1200 then lnkStatus h ((o - 0x1000) / 8) else 0, h)

/-- What an 8-byte-aligned register reads, a claim apart; an offset that holds no register, and a doorbell, read zero (R6, R23). In
BOOT_FAILED only the identity of the die and SYS_STATE are to be read (R559). -/
def readWord (h : Hw) (off : Nat) : Nat × Hw :=
  if h.sys.phase == 2 then (if off == 0x00 || off == 0x08 || off == 0x10 || off == 0x28 then readIdentity h off else (0, h))
  else
    match off / 0x10000 with
    | 0 => readIdentity h off
    | 1 => readMailbox h (off % 0x10000 / 0x1000) (off % 0x1000)
    | 2 => (readEvents h (off % 0x10000), h)
    | 3 => (readLogs h (off % 0x10000), h)
    | 4 => (readClkPwr h (off % 0x10000), h)
    | 5 => readSummary h (off % 0x10000)
    | _ => (0, h)

/-- EVC_CLAIM of vector `v` lies at this offset (R534). -/
def claimAt (off : Nat) : Option Nat := if 0x22000 ≤ off && off < 0x22800 && off % 32 == 0x10 then some ((off - 0x22000) / 32) else none
/-- Sizes and alignments of a register access (R5). -/
def accessLegal (off size : Nat) : Bool := (size == 8 && off % 8 == 0) || (size == 4 && off % 4 == 0)
/-- A read of the control window (R5): 8 bytes at once, the addressed half, or zero for any other size or alignment. An 8-byte read of
EVC_CLAIM is a claim (R535). -/
def readReg (h : Hw) (off size : Nat) : Nat × Hw :=
  if !accessLegal off size then (0, h)
  else if size == 8 then
    match (if h.sys.phase == 2 then none else claimAt off) with
    | some v => claim h v
    | none => readWord h off
  else
    let (v, h) := readWord h (off / 8 * 8)
    (fld v (off % 8 * 8) 32, h)

/-! ### Writing -/

/-- Registers with a W1C, W1S or WO field, of which a 4-byte write is ignored (R5). -/
def wholeOnly (off : Nat) : Bool :=
  match off / 0x10000 with
  | 1 => off % 0x1000 == 0x018
  | 2 => 0x22000 ≤ off && off < 0x22800 && (off % 32 == 0x08 || off % 32 == 0x18)
  | 3 => off % 0x10000 < 128 * 165 && off % 32 == 0 && off % 128 != 0
  | 4 => off == 0x40040 || off == 0x40048
  | _ => 0x100000 ≤ off
/-- A write to the request half of a mailbox (R515, R516, R519): ignored and counted while BUSY. -/
def writeMailbox (h : Hw) (m o value : Nat) : Hw :=
  let x := h.mailbox m
  if 0x800 ≤ o then h
  else if x.state == 1 then h.setMailbox m { x with ignored := satInc 16 x.ignored }
  else if o == 0x000 then h.setMailbox m { x with cmd := Nat.land value 0x000000FF1FFFFFFF }
  else if o == 0x008 then h.setMailbox m { x with tag := value }
  else if 0x020 ≤ o then h.setMailbox m { x with req := KMap.set x.req ((o - 0x020) / 8) (BitVec.ofNat 64 value) }
  else h
/-- A write to a register of the event controller (R533, R534, R536, R659). -/
def writeEvents (h : Hw) (o value : Nat) : Hw :=
  if o < 0x2000 then writeSource h (o / 8) value
  else if o < 0x2800 then
    let v := (o - 0x2000) / 32
    match o % 32 / 8 with
    | 0 => writeVecCfg h v value
    | 1 => writeVecStat h v value
    | 3 => complete h v (value % 1024)
    | _ => h
  else if 0x8000 ≤ o && o < 0x8400 then
    let v := (o - 0x8000) / 16
    if o % 16 == 0 then writeMsixAddr h v value else writeMsixCtl h v value
  else h
/-- A write to the error logs: only word 0 of a slot takes one (R661). -/
def writeLogs (h : Hw) (o value : Nat) : Hw :=
  if o < 128 * 165 && o % 32 == 0 && o % 128 != 0 then clearSlot h (o / 128) (o % 128 / 32 - 1) value else h
/-- A write to a doorbell page (R73, R242). -/
def writeDoorbell (h : Hw) (who : Requester) (o value : Nat) : Hw :=
  let c := o / 64
  match o % 64 / 8 with
  | 0 => doorbell who c value h
  | 1 => if fld value 32 2 == 1 then faultReply who c value 1 h else if fld value 32 2 == 2 then faultReply who c value 2 h else h
  | 2 => restart who c value h
  | _ => h
/-- A write of all 64 bits of a register; read-only registers and unassigned offsets ignore it (R6, R23). -/
def writeWord (h : Hw) (who : Requester) (off value : Nat) : Hw :=
  match off / 0x10000 with
  | 1 => if off % 0x1000 == 0x018 then (if tbit value 0 then ring h who (off % 0x10000 / 0x1000) else h)
         else writeMailbox h (off % 0x10000 / 0x1000) (off % 0x1000) value
  | 2 => writeEvents h (off % 0x10000) value
  | 3 => writeLogs h (off % 0x10000) value
  | 4 => if off == 0x40040 then h.onClk fun c => writeObs c value else if off == 0x40048 then writeRstCause h value else h
  | _ => if 0x100000 ≤ off && off < 0x500000 then writeDoorbell h who (off - 0x100000) value else h
/-- A 4-byte write gives the addressed half of what the register holds (R5). -/
def mergeHalf (old off value : Nat) : Nat := if off % 8 == 0 then fld old 32 32 * 2 ^ 32 + value % 2 ^ 32 else value % 2 ^ 32 * 2 ^ 32 + fld old 0 32
/-- A write of the control window (R5): any size or alignment but those of R5 is ignored. -/
def writeReg (h : Hw) (who : Requester) (off size value : Nat) : Hw :=
  if !accessLegal off size then h
  else if size == 8 then writeWord h who off value
  else
    let o := off / 8 * 8
    if wholeOnly o then h else writeWord h who o (mergeHalf (readWord h o).1 off value)

/-! ### Who may reach what (R93, R94) -/

/-- The context of a doorbell offset. -/
def doorbellCtx (off : Nat) : Option Nat := if 0x100000 ≤ off && off < 0x500000 then some ((off - 0x100000) / 64) else none
/-- Whether R93 serves a requester at an offset. -/
def mayReach (h : Hw) (who : Requester) (write : Bool) (off : Nat) : Bool :=
  match who with
  | .pcie => true
  | .fabric n =>
    if h.dead.contains n then false
    else if off < 0x10000 then !write || h.sys.mgmt.contains n
    else if off < 0x60000 then h.sys.mgmt.contains n
    else match doorbellCtx off with
      | some c => ((h.ctx c).bound && (h.ctx c).agent == n) || h.sys.mgmt.contains n
      | none => true
/-- The control window is open from step 3 of R550 on (R544, R559). -/
def windowOpen (h : Hw) : Bool := h.sys.phase != 0

/-- REGISTER_WRITE: a write to a register of the control window (R652–R655). -/
def registerWrite (h : Hw) (who : Requester) (off size value : Nat) : Hw :=
  if windowOpen h && off < 0x1000000 && mayReach h who true off then writeReg h who off size value else h
def execRegisterWrite (who : Requester) (off size : Nat) (value : Word) (s : State) : Result :=
  commit (fun s => s.onHw fun h => registerWrite h who off size value.toNat) s

/-! ### The fabric's accesses (R24, R429, R486, R687) -/

/-- CW_RDATA or CW_DONE: the echo of the control part, STATUS and the register's bytes (R429). -/
def windowAnswer (p : Packet) (status : Nat) (data : List Byte) : Packet :=
  let ctl := leBytes 16 (pack [(60, Packet.addr p), (4, 0), (13, Packet.cf p 64 13), (3, 0), (4, status)])
  if p.opcode == 0x60 then mkPacket 0x62 3 p.sclass p.src p.dst p.tid (ctl ++ data) else mkPacket 0x63 2 p.sclass p.src p.dst p.tid ctl
/-- A rule of its own fields that a CW_RD or CW_WR breaks (R429, R687). -/
def badWindow (p : Packet) : Bool :=
  let n := Packet.cf p 64 13
  Packet.cf p 60 4 != 0 || Packet.cf p 77 51 != 0 || !(n == 4 || n == 8) || fpaNode (Packet.addr p) != p.dst
    || p.data.length != (if p.opcode == 0x60 then 16 else 16 + n)
/-- Whether an access keeps R24: size and alignment of R5, doorbell writes in BULK, everything else in MGT. -/
def windowVc (p : Packet) (off : Nat) : Bool :=
  accessLegal off (Packet.cf p 64 13) && p.vc == (if p.opcode == 0x61 && (doorbellCtx off).isSome then 4 else 6)
/-- A CW_RD or CW_WR arrives: refused under R105, R687, R24 or R93, else served. At a service ID only doorbell pages are decoded, and the
rest of the window is unassigned (R486). -/
def windowArrives (op : Nat) (p : Packet) (h : Hw) : Hw :=
  if p.opcode != op || !isOwn h p.dst || !windowOpen h then h
  else
    let h := takeInbox h p
    let a := fpaOffset (Packet.addr p)
    let off := a - 0xFF0000000000
    let n := Packet.cf p 64 13
    let deny := fun (h : Hw) => send h (windowAnswer p stDenied [])
    let unassigned := p.dst != h.sys.moduleId && (doorbellCtx off).isNone
    if h.dead.contains p.src then deny h
    else if badWindow p then deny (logMalformed h)
    else if a < poolSize then deny h
    else if !inWindow a then deny (logUnassigned h)
    else if !windowVc p off then deny h
    else if unassigned then send h (windowAnswer p stOK (leBytes n 0))
    else if !mayReach h (.fabric p.src) (op == 0x61) off then deny h
    else if op == 0x60 then
      let (v, h) := readReg h off n
      send h (windowAnswer p stOK (leBytes n v))
    else send (writeReg h (.fabric p.src) off n (leNat ((Packet.body p).take n))) (windowAnswer p stOK [])
def execCwRd (p : Packet) (s : State) : Result := commit (fun s => s.onHw (windowArrives 0x60 p)) s
def execCwWr (p : Packet) (s : State) : Result := commit (fun s => s.onHw (windowArrives 0x61 p)) s

/-- CW_RDATA: the answer to a probe of the partner's SYS_PAIR (R499); any other answers nothing that is open and is discarded (R460). -/
def takeRdata (p : Packet) (h : Hw) : Hw :=
  if p.opcode != 0x62 || !isOwn h p.dst then h
  else
    let h := takeInbox h p
    if badBulkAnswer p || p.data.length != (if Packet.cf p 80 4 == 0 then 16 + Packet.cf p 64 13 else 16) then logMalformed h
    else if h.pair.state != 0 && p.src == h.pair.partner && p.tid == h.pair.probeTid && Packet.cf p 80 4 == 0 then
      takeProbeAnswer (leNat ((Packet.body p).take 8)) h
    else h
def execCwRdata (p : Packet) (s : State) : Result := commit (fun s => s.onHw (takeRdata p)) s

end Sys2Proof.Machine
end

