-- ==== Sys2Proof/Machine/Pcie.lean ====
section
/-!
DEFINITION. The PCI Express endpoint (R634–R638): its resets, configuration space, memory requests in BAR0, D3hot and L2/L3 Ready. The
places and the fields of the capability structures are those of PCI Express 5.0, at offsets that the manual does not give (log entry 18).
-/
namespace Sys2Proof.Machine
open Sys2Proof

/-- Change the endpoint. -/
def Hw.onPcie (h : Hw) (f : PcieEndpoint → PcieEndpoint) : Hw := { h with pcie := f h.pcie }

/-! ### Link and resets (R594, R634, R681) -/

/-- The link trains once PERST_N is high and step 1 of bring-up has ended (R681). -/
def pcieTrain (h : Hw) : Hw := if !h.pcie.perstLow && h.sys.step != 0 then h.onPcie fun p => { p with link := 1 } else h
/-- PERST_N: low holds the link down and resets the PCIE domain (R634); high lets the link train. -/
def perst (h : Hw) (low : Bool) : Hw :=
  if low then pcieDomainReset (h.onPcie fun p => { p with perstLow := true }) else pcieTrain (h.onPcie fun p => { p with perstLow := false })
def execPerstN (low : Bool) (s : State) : Result := .next (s.onHw fun h => perst h low)
/-- A hot reset, or the link going down (R594): the domain is reset and the link trains again. -/
def hotReset (h : Hw) : Hw := if h.pcie.link == 0 then h else pcieTrain (pcieDomainReset h)
def execPcieHotReset (s : State) : Result := .next (s.onHw hotReset)
/-- A function-level reset (R638): the domain is reset, and the link stays as it is. -/
def functionReset (h : Hw) : Hw :=
  if h.pcie.link == 0 then h else
    let l := h.pcie.link
    (pcieDomainReset h).onPcie fun p => { p with link := l }
def execPcieFlr (s : State) : Result := .next (s.onHw functionReset)
/-- D3hot and back (R637): the link goes to L1 and returns; nothing is lost, and held messages go on. -/
def d3hot (h : Hw) (enter : Bool) : Hw :=
  if h.pcie.link != 1 && h.pcie.link != 2 then h
  else if enter then h.onPcie fun p => { p with d3hot := true, link := 2 }
  else retryHeld (h.onPcie fun p => { p with d3hot := false, link := 1 })
def execPcieD3hot (enter : Bool) (s : State) : Result := .next (s.onHw fun h => d3hot h enter)
/-- PME_Turn_Off takes the link to L2/L3 Ready (R637). -/
def turnOff (h : Hw) : Hw := if h.pcie.link == 0 then h else h.onPcie fun p => { p with link := 3 }
def execPmeTurnOff (s : State) : Result := .next (s.onHw turnOff)

/-! ### Configuration space (R635, R636) -/

/-- Header fields, capabilities and their links; `none` for a register of a listed capability that the manual does not describe, whose
value is free, and zero where the function has nothing (R635, log entry 18). -/
def configWord (h : Hw) (o : Nat) : Option Nat :=
  let p := h.pcie
  let cap := fun (id ver next : Nat) => some (pack [(16, id), (4, ver), (12, next)])
  match o with
  | 0x00 => some 0x64001F4C
  | 0x04 => some (p.command + 0x00100000)
  | 0x08 => some 0x120000B0
  | 0x10 => some (fld p.bar 0 32 + 0xC)
  | 0x14 => some (fld p.bar 32 32)
  | 0x2C => some 0x00011F4C
  | 0x34 => some 0x40
  | 0x40 => some 0x00035001
  | 0x44 => some (8 + if p.d3hot then 3 else 0)
  | 0x50 => some (pack [(8, 0x11), (8, 0x70), (11, 63), (3, 0), (1, b2n p.msixMaskAll), (1, b2n p.msixEnable)])
  | 0x54 => some 0x28000
  | 0x58 => some 0x29000
  | 0x70 => some 0x00020010
  | 0x74 => some 0x10008002
  | 0x78 => some (pack [(16, p.devCtl), (4, p.devSta)])
  | 0x100 => cap 1 2 0x150
  | 0x104 => some (if p.aerPoison then 0x1000 else 0)
  | 0x150 => cap 3 1 0x160
  | 0x154 => some (fld (sysSerial h) 0 32)
  | 0x158 => some (fld (sysSerial h) 32 32)
  | 0x160 => cap 0x19 1 0x180
  | 0x180 => cap 0x26 1 0x1B0
  | 0x1B0 => cap 0x2A 1 0x1E0
  | 0x1E0 => cap 0x27 1 0
  | _ => if (0x7C ≤ o && o < 0xAC) || (0x108 ≤ o && o < 0x148) || (0x164 ≤ o && o < 0x178) || (0x184 ≤ o && o < 0x1A8)
          || (0x1B4 ≤ o && o < 0x1D4) || (0x1E4 ≤ o && o < 0x1F8) then none else some 0
/-- A configuration read. -/
def configRead (h : Hw) (o : Nat) : Nat × Hw :=
  match configWord h o with
  | some v => (v, h)
  | none => freshBits 32 h
/-- The bits that the byte enables select. -/
def enabledBits (be : Nat) : Nat := (if tbit be 0 then 0xFF else 0) + (if tbit be 1 then 0xFF00 else 0) + (if tbit be 2 then 0xFF0000 else 0) + (if tbit be 3 then 0xFF000000 else 0)
/-- What a write under byte enables leaves of an old value. -/
def mergeBytes (old be value : Nat) : Nat :=
  let m := enabledBits be
  Nat.lor (Nat.land old (0xFFFFFFFF - m)) (Nat.land value m)
/-- A configuration write: command, BAR, power state, MSI-X control, device control and the write-1-to-clear error bits. -/
def configWrite (h : Hw) (o be value : Nat) : Hw :=
  let p := h.pcie
  let m := Nat.land value (enabledBits be)
  match o with
  | 0x04 => retryHeld (h.onPcie fun p => { p with command := Nat.land (mergeBytes p.command be value) 0x546 })
  | 0x10 => h.onPcie fun p => { p with bar := fld p.bar 32 32 * 2 ^ 32 + Nat.land (mergeBytes (fld p.bar 0 32) be value) 0xFF000000 }
  | 0x14 => h.onPcie fun p => { p with bar := mergeBytes (fld p.bar 32 32) be value * 2 ^ 32 + fld p.bar 0 32 }
  | 0x44 =>
    let want := mergeBytes (if p.d3hot then 3 else 0) be value % 4
    if want == 3 then d3hot h true else if want == 0 then (if p.d3hot then d3hot h false else h) else h
  | 0x50 =>
    let w := mergeBytes (pack [(30, 0), (1, b2n p.msixMaskAll), (1, b2n p.msixEnable)]) be value
    retryHeld (h.onPcie fun p => { p with msixMaskAll := tbit w 30, msixEnable := tbit w 31 })
  | 0x78 =>
    let w := mergeBytes p.devCtl be value
    let h := h.onPcie fun p => { p with devCtl := fld w 0 15, devSta := p.devSta - Nat.land p.devSta (fld m 16 4) }
    if tbit w 15 && tbit be 1 then functionReset h else h
  | 0x104 => h.onPcie fun p => { p with aerPoison := p.aerPoison && !tbit m 12 }
  | _ => h
/-- A configuration request (R544, R635): answered from step 1 on while the link is up; a write completes successfully. -/
def configRequest (h : Hw) (write : Bool) (off be value : Nat) : Hw :=
  let o := off / 4 * 4 % 4096
  if h.pcie.link == 0 || h.pcie.link == 3 then h
  else if write then (configWrite h o be value).onPcie fun p => { p with completion := (0, 0) }
  else
    let (v, h) := configRead h o
    h.onPcie fun p => { p with completion := (0, v) }
def execPcieConfigRequest (write : Bool) (off be value : Nat) (s : State) : Result :=
  .next (s.onHw fun h => configRequest h write off be value)

/-! ### Memory requests (R5, R23, R94, R544, R637, R638) -/

/-- A request completed with Unsupported Request; Device Status notes it. -/
def unsupported (h : Hw) : Hw := h.onPcie fun p => { p with completion := (1, 0), devSta := Nat.lor p.devSta 8 }
/-- A memory request of the host: served in BAR0 while the function is in D0, memory space is enabled and the window is open. A poisoned
write is discarded and reported. -/
def memoryRequest (h : Hw) (write poisoned : Bool) (addr size value : Nat) : Hw :=
  let p := h.pcie
  if p.link == 0 || p.link == 3 then h
  else if p.d3hot || !tbit p.command 1 || !windowOpen h || addr < p.bar || p.bar + 0x1000000 ≤ addr then unsupported h
  else if write && poisoned then h.onPcie fun p => { p with aerPoison := true, devSta := Nat.lor p.devSta 2 }
  else if write then writeReg h .pcie (addr - p.bar) size value
  else
    let (v, h) := readReg h (addr - p.bar) size
    h.onPcie fun p => { p with completion := (0, v) }
def execPcieMemoryRequest (write poisoned : Bool) (addr size : Nat) (value : Word) (s : State) : Result :=
  commit (fun s => s.onHw fun h => memoryRequest h write poisoned addr size value.toNat) s

end Sys2Proof.Machine
end

