-- ==== Sys2Proof/Machine/Protection.lean ====
section
/-!
DEFINITION. Stored bits that a read finds in error, wherever they are stored (R363, R364, R377, R378): words of DRAM, hot words,
directory and fault tables, caches, and the scratch and registers of a tile.
-/
namespace Sys2Proof.Machine
open Sys2Proof

/-- An error pattern that the code of R361 cannot correct; the decoding depends on the pattern alone. -/
def uncorrectable (err : Nat) : Bool := (decodeWord (nxor (encodeWord 0 false) (err % 2 ^ 80))).flips.isNone

/-- Record an error for which R383 lists no code: CODE, INFO, ADDR and DETAIL are free values (log entry 3). -/
def logUncoded (h : Hw) (l sev : Nat) : Hw :=
  let (c, h) := freshBits 8 h
  logOpen h l sev c none none

/-- Flip stored bits of a word of the pool; the next access that reads it decodes them. -/
def flipStored (s : State) (w err : Nat) : State :=
  s.onPool fun p => { p with errs := KMap.setD p.errs w (nxor (KMap.getD p.errs w 0) (err % 2 ^ 80)) 0 }

/-- A hot word that cannot be corrected is stored poisoned, and its pair is hot no longer (R356, R377). -/
def hotError (s : State) (w err : Nat) : State :=
  let t := tileOf (8 * w)
  if !(s.hw.slice t).hot.contains (w / 2) || !uncorrectable err then s
  else
    let s := s.onPool fun p => (p.writeBytes (8 * w) (leBytes 8 0)).setPoison w true
    s.onHw fun h => logUncoded (hotWritten h (w / 2)) t 1

/-- A slot of a fault table that cannot be corrected: UE, and its waiters complete with FAULT (R76, R377). -/
def faultSlotError (t k err : Nat) (h : Hw) : Hw :=
  let sl : FaultSlot := KMap.get (h.tile t).faults k
  if !sl.isOpen || !uncorrectable err then h
  else onWaiters t k Run.abort (freeFault (logUncoded h (32 + t) 2) t k)

/-- A cache entry of a tile is discarded, and fetched or walked again (R377). -/
def dropPre (t c page : Nat) (h : Hw) : Hw :=
  let x := h.tile t
  let hit := fun (e : PreEntry) => e.ctx == c && e.va ≤ 4096 * page && 4096 * page < e.va + e.size
  if x.pre.any hit then logUncoded (h.setTile t { x with pre := x.pre.filter fun e => !hit e }) (32 + t) 0 else h
def dropWalk (t c fpa : Nat) (h : Hw) : Hw :=
  let x := h.tile t
  let hit := fun (e : WalkEntry) => e.ctx == c && e.fpa == fpa
  if x.walks.any hit then logUncoded (h.setTile t { x with walks := x.walks.filter fun e => !hit e }) (32 + t) 0 else h

/-- Four bytes of scratch whose parity is wrong: their 64-bit word is poisoned, UE 0x13 (R366, R377, R383). -/
def scratchError (id a : Nat) (h : Hw) : Hw :=
  let q := h.queue id
  if !KMap.has h.queues id || 65536 * q.scratch ≤ a then h
  else logOpen (h.setQueue id { q with memPz := KMap.setD q.memPz (a / 8) true false }) (32 + q.tile) 2 0x13 none none

/-- A descriptor whose data stand in a register with a wrong parity (R368, R377): one that moves data carries the poison on in the word that it
has read, and any other ends with POISON. -/
def Exec.registerError (e : Exec) (h : Hw) : Exec × Hw :=
  let p := e.run.pieces.headD {}
  if e.type == 1 || e.type == 2 || e.type == 8 || e.type == 9 then
    match (match e.run.chunk with | some c => c.reads | none => []).find? (fun (r : Part) => KMap.has h.answers r.serial) with
    | some r => (e, { h with answers := KMap.upd h.answers r.serial fun a => { a with pz := List.replicate 8 true ++ a.pz.drop 8 } })
    | none => (e, h)
  else
    let h := match e.run.chunk with | some c => if c.wrote then h else abandonParts h c.reads | none => h
    let o := if p.src.isSome then operandOf p.src else operandOf p.dst
    ({ e with ended := true, code := stPoison, cursor := p.cursor, operand := o, run := e.run.stop }, h)
/-- The oldest descriptor of a queue that is in its body and does not stall meets the error; UE 0x13. -/
def registerError (id : Nat) (h : Hw) : Hw :=
  let q := h.queue id
  match q.executing.find? (fun x => x.2.phase == 1 && !x.2.ended && x.2.run.stall == 0) with
  | none => h
  | some (i, e) =>
    let (e, h) := e.registerError h
    logOpen (h.setExec id i e) (32 + q.tile) 2 0x13 none none

/-- DRAM_READ_DECODE: a read finds stored bits with those of `err` flipped (R363, R377). A corrected error of a table changes nothing there, and
for storage under parity the row says that its parity is wrong. -/
def readDecode (cell : Storage) (err : BitVec 80) (s : State) : State :=
  match cell with
  | .word w => if readsDram s.hw w then dramRead s w (nxor (KMap.getD s.pool.errs w 0) err.toNat) else s
  | .later w => if 8 * w < poolSize && !(s.hw.slice (tileOf (8 * w))).hot.contains (w / 2) then flipStored s w err.toNat else s
  | .hot w => hotError s w err.toNat
  | .entry line => if uncorrectable err.toNat then rebuildEntry s line else s
  | .fault t k => s.onHw (faultSlotError t.val k err.toNat)
  | .regionCache t => s.onHw fun h => logUncoded h (32 + t.val) 0
  | .preTranslation t c page => s.onHw (dropPre t.val c page)
  | .walkCache t c fpa => s.onHw (dropWalk t.val c fpa)
  | .scratch id a => s.onHw (scratchError id a)
  | .register id => s.onHw (registerError id)
def execDramReadDecode (cell : Storage) (err : BitVec 80) (s : State) : Result := commit (readDecode cell err) s

end Sys2Proof.Machine
end

