-- ==== Sys2Proof/Machine/Dispatch.lean ====
section
/-!
DEFINITION. The dispatcher: one arm per command, each a direct call of the command's meaning.
-/
namespace Sys2Proof.Machine
open Sys2Proof

/-- The effect of a command on everything but the queue of waiting commands. -/
def exec (i : Instr) (s : State) : Host.Outcome State Fault Refusal :=
  match i with
  | .mbxRing who m value => Sys2Proof.Machine.execMbxRing who m value s
  | .mbxInfo m => Sys2Proof.Machine.execMbxInfo m s
  | .mbxNop m => Sys2Proof.Machine.execMbxNop m s
  | .ctxBind m => Sys2Proof.Machine.execCtxBind m s
  | .ctxModify m => Sys2Proof.Machine.execCtxModify m s
  | .ctxUnbind m => Sys2Proof.Machine.execCtxUnbind m s
  | .ctxQuery m => Sys2Proof.Machine.execCtxQuery m s
  | .xltSync m => Sys2Proof.Machine.execXltSync m s
  | .xltInvalidate m => Sys2Proof.Machine.execXltInvalidate m s
  | .regionCreate m => Sys2Proof.Machine.execRegionCreate m s
  | .regionRelease m => Sys2Proof.Machine.execRegionRelease m s
  | .regionQuery m => Sys2Proof.Machine.execRegionQuery m s
  | .regionAclSet m => Sys2Proof.Machine.execRegionAclSet m s
  | .regionAclAdd m => Sys2Proof.Machine.execRegionAclAdd m s
  | .regionAclRemove m => Sys2Proof.Machine.execRegionAclRemove m s
  | .agentGroupSet m => Sys2Proof.Machine.execAgentGroupSet m s
  | .agentMgmtSet m => Sys2Proof.Machine.execAgentMgmtSet m s
  | .agentDead m => Sys2Proof.Machine.execAgentDead m s
  | .agentRevive m => Sys2Proof.Machine.execAgentRevive m s
  | .cohConfig m => Sys2Proof.Machine.execCohConfig m s
  | .cohQuery m => Sys2Proof.Machine.execCohQuery m s
  | .cohLineQuery m => Sys2Proof.Machine.execCohLineQuery m s
  | .cohSuspectClear m => Sys2Proof.Machine.execCohSuspectClear m s
  | .snapOpen m => Sys2Proof.Machine.execSnapOpen m s
  | .snapPublish m => Sys2Proof.Machine.execSnapPublish m s
  | .snapRebase m => Sys2Proof.Machine.execSnapRebase m s
  | .snapClose m => Sys2Proof.Machine.execSnapClose m s
  | .snapConfig m => Sys2Proof.Machine.execSnapConfig m s
  | .snapQuery m => Sys2Proof.Machine.execSnapQuery m s
  | .queueCreate m => Sys2Proof.Machine.execQueueCreate m s
  | .queueDestroy m => Sys2Proof.Machine.execQueueDestroy m s
  | .queueQuery m => Sys2Proof.Machine.execQueueQuery m s
  | .collGroupCreate m => Sys2Proof.Machine.execCollGroupCreate m s
  | .collGroupConfig m => Sys2Proof.Machine.execCollGroupConfig m s
  | .collGroupDestroy m => Sys2Proof.Machine.execCollGroupDestroy m s
  | .collGroupQuery m => Sys2Proof.Machine.execCollGroupQuery m s
  | .collMemberAdd m => Sys2Proof.Machine.execCollMemberAdd m s
  | .collMemberRemove m => Sys2Proof.Machine.execCollMemberRemove m s
  | .collInstanceEnd m => Sys2Proof.Machine.execCollInstanceEnd m s
  | .memConfig m => Sys2Proof.Machine.execMemConfig m s
  | .memQuery m => Sys2Proof.Machine.execMemQuery m s
  | .memRetrain m => Sys2Proof.Machine.execMemRetrain m s
  | .memEccConfig m => Sys2Proof.Machine.execMemEccConfig m s
  | .memEccQuery m => Sys2Proof.Machine.execMemEccQuery m s
  | .memRemap m => Sys2Proof.Machine.execMemRemap m s
  | .memPpr m => Sys2Proof.Machine.execMemPpr m s
  | .laneConfig m => Sys2Proof.Machine.execLaneConfig m s
  | .lanePower m => Sys2Proof.Machine.execLanePower m s
  | .laneQuery m => Sys2Proof.Machine.execLaneQuery m s
  | .optEngine m => Sys2Proof.Machine.execOptEngine m s
  | .optGate m => Sys2Proof.Machine.execOptGate m s
  | .optQuery m => Sys2Proof.Machine.execOptQuery m s
  | .linkEnable m => Sys2Proof.Machine.execLinkEnable m s
  | .linkConfig m => Sys2Proof.Machine.execLinkConfig m s
  | .linkTune m => Sys2Proof.Machine.execLinkTune m s
  | .linkRetrain m => Sys2Proof.Machine.execLinkRetrain m s
  | .linkWidth m => Sys2Proof.Machine.execLinkWidth m s
  | .linkQuery m => Sys2Proof.Machine.execLinkQuery m s
  | .routeConfig m => Sys2Proof.Machine.execRouteConfig m s
  | .routeLoad m => Sys2Proof.Machine.execRouteLoad m s
  | .routeFlip m => Sys2Proof.Machine.execRouteFlip m s
  | .routeQuery m => Sys2Proof.Machine.execRouteQuery m s
  | .qosMode m => Sys2Proof.Machine.execQosMode m s
  | .qosPort m => Sys2Proof.Machine.execQosPort m s
  | .qosPolice m => Sys2Proof.Machine.execQosPolice m s
  | .horizonLoad m => Sys2Proof.Machine.execHorizonLoad m s
  | .timeConfig m => Sys2Proof.Machine.execTimeConfig m s
  | .timeLink m => Sys2Proof.Machine.execTimeLink m s
  | .timeSet m => Sys2Proof.Machine.execTimeSet m s
  | .timeQuery m => Sys2Proof.Machine.execTimeQuery m s
  | .pairJoin m => Sys2Proof.Machine.execPairJoin m s
  | .pairLeave m => Sys2Proof.Machine.execPairLeave m s
  | .pairSwitch m => Sys2Proof.Machine.execPairSwitch m s
  | .pairConfig m => Sys2Proof.Machine.execPairConfig m s
  | .pairQuery m => Sys2Proof.Machine.execPairQuery m s
  | .bistRun m => Sys2Proof.Machine.execBistRun m s
  | .bistQuery m => Sys2Proof.Machine.execBistQuery m s
  | .repairCommit m => Sys2Proof.Machine.execRepairCommit m s
  | .repairQuery m => Sys2Proof.Machine.execRepairQuery m s
  | .fwUpdate m => Sys2Proof.Machine.execFwUpdate m s
  | .fwQuery m => Sys2Proof.Machine.execFwQuery m s
  | .fwActivate m => Sys2Proof.Machine.execFwActivate m s
  | .clkGate m => Sys2Proof.Machine.execClkGate m s
  | .clkSwitch m => Sys2Proof.Machine.execClkSwitch m s
  | .clkQuery m => Sys2Proof.Machine.execClkQuery m s
  | .pwrState m => Sys2Proof.Machine.execPwrState m s
  | .pwrLimit m => Sys2Proof.Machine.execPwrLimit m s
  | .pwrQuery m => Sys2Proof.Machine.execPwrQuery m s
  | .gpioConfig m => Sys2Proof.Machine.execGpioConfig m s
  | .gpioSet m => Sys2Proof.Machine.execGpioSet m s
  | .gpioQuery m => Sys2Proof.Machine.execGpioQuery m s
  | .registerWrite who off size value => Sys2Proof.Machine.execRegisterWrite who off size value s
  | .dblRing who ctx value => Sys2Proof.Machine.execDblRing who ctx value s
  | .faultReplyResume who ctx value => Sys2Proof.Machine.execFaultReplyResume who ctx value s
  | .faultReplyAbort who ctx value => Sys2Proof.Machine.execFaultReplyAbort who ctx value s
  | .queueRestart who ctx value => Sys2Proof.Machine.execQueueRestart who ctx value s
  | .evcClaim v => Sys2Proof.Machine.execEvcClaim v s
  | .evcComplete v value => Sys2Proof.Machine.execEvcComplete v value s
  | .errSlotClear log slot value => Sys2Proof.Machine.execErrSlotClear log slot value s
  | .evcMsixCtlWrite v value => Sys2Proof.Machine.execEvcMsixCtlWrite v value s
  | .clkObsWrite value => Sys2Proof.Machine.execClkObsWrite value s
  | .cwRd p => Sys2Proof.Machine.execCwRd p s
  | .cwWr p => Sys2Proof.Machine.execCwWr p s
  | .cwRdata p => Sys2Proof.Machine.execCwRdata p s
  | .packetRoute port p => Sys2Proof.Machine.execPacketRoute port p s
  | .rdShared p => Sys2Proof.Machine.execRdShared p s
  | .rdOwn p => Sys2Proof.Machine.execRdOwn p s
  | .upgrade p => Sys2Proof.Machine.execUpgrade p s
  | .rdOnce p => Sys2Proof.Machine.execRdOnce p s
  | .wrLine p => Sys2Proof.Machine.execWrLine p s
  | .wrPart p => Sys2Proof.Machine.execWrPart p s
  | .atomic p => Sys2Proof.Machine.execAtomic p s
  | .evict p => Sys2Proof.Machine.execEvict p s
  | .snprspI p => Sys2Proof.Machine.execSnprspI p s
  | .snprspFwd p => Sys2Proof.Machine.execSnprspFwd p s
  | .snprspWbif p => Sys2Proof.Machine.execSnprspWbif p s
  | .cmpAck p => Sys2Proof.Machine.execCmpAck p s
  | .probeRsp p => Sys2Proof.Machine.execProbeRsp p s
  | .wbData p => Sys2Proof.Machine.execWbData p s
  | .snpData p => Sys2Proof.Machine.execSnpData p s
  | .probeData p => Sys2Proof.Machine.execProbeData p s
  | .dataOnceAtHome p => Sys2Proof.Machine.execDataOnceAtHome p s
  | .snoopAtModule p => Sys2Proof.Machine.execSnoopAtModule p s
  | .overflowRequestServed tile => Sys2Proof.Machine.execOverflowRequestServed tile s
  | .resvExpiry tile => Sys2Proof.Machine.execResvExpiry tile s
  | .homeTimeout tile slot => Sys2Proof.Machine.execHomeTimeout tile slot s
  | .brd p => Sys2Proof.Machine.execBrd p s
  | .bwr p => Sys2Proof.Machine.execBwr p s
  | .bulkHeldReleased tile => Sys2Proof.Machine.execBulkHeldReleased tile s
  | .filterEntryRelease tile => Sys2Proof.Machine.execFilterEntryRelease tile s
  | .brdData p => Sys2Proof.Machine.execBrdData p s
  | .bdone p => Sys2Proof.Machine.execBdone p s
  | .atomicRet p => Sys2Proof.Machine.execAtomicRet p s
  | .retry p => Sys2Proof.Machine.execRetry p s
  | .deny p => Sys2Proof.Machine.execDeny p s
  | .tileRetryReissue tid => Sys2Proof.Machine.execTileRetryReissue tid s
  | .xltInv p => Sys2Proof.Machine.execXltInv p s
  | .xltInvAckSend src tid => Sys2Proof.Machine.execXltInvAckSend src tid s
  | .descFetch qid => Sys2Proof.Machine.execDescFetch qid s
  | .preTranslationWalk qid idx => Sys2Proof.Machine.execPreTranslationWalk qid idx s
  | .descStart qid idx => Sys2Proof.Machine.execDescStart qid idx s
  | .chunkStart qid idx => Sys2Proof.Machine.execChunkStart qid idx s
  | .faultSlotFreed tile => Sys2Proof.Machine.execFaultSlotFreed tile s
  | .faultTimeout tile slot => Sys2Proof.Machine.execFaultTimeout tile slot s
  | .chunkCommit qid idx => Sys2Proof.Machine.execChunkCommit qid idx s
  | .descComplete qid idx => Sys2Proof.Machine.execDescComplete qid idx s
  | .tileE2eTimeout tid => Sys2Proof.Machine.execTileE2eTimeout tid s
  | .dfencePoll qid idx => Sys2Proof.Machine.execDfencePoll qid idx s
  | .dmergeStampPoll qid idx => Sys2Proof.Machine.execDmergeStampPoll qid idx s
  | .rightsChangeDrainEnd m => Sys2Proof.Machine.execRightsChangeDrainEnd m s
  | .directoryScanEnd tile m => Sys2Proof.Machine.execDirectoryScanEnd tile m s
  | .regionWipeDone region => Sys2Proof.Machine.execRegionWipeDone region s
  | .agentDeadDone node => Sys2Proof.Machine.execAgentDeadDone node s
  | .snapSwitch m => Sys2Proof.Machine.execSnapSwitch m s
  | .cowCopyDone region shard slot => Sys2Proof.Machine.execCowCopyDone region shard slot s
  | .snapReclaimDone region slot => Sys2Proof.Machine.execSnapReclaimDone region slot s
  | .colSeg p => Sys2Proof.Machine.execColSeg p s
  | .colSegmentDone group seg => Sys2Proof.Machine.execColSegmentDone group seg s
  | .colInstanceDone group => Sys2Proof.Machine.execColInstanceDone group s
  | .colMemberTimeout group member => Sys2Proof.Machine.execColMemberTimeout group member s
  | .dramReadDecode cell err => Sys2Proof.Machine.execDramReadDecode cell err s
  | .trackWindowExpiry slice pc bank row => Sys2Proof.Machine.execTrackWindowExpiry slice pc bank row s
  | .mcsSlotIssue slice pc => Sys2Proof.Machine.execMcsSlotIssue slice pc s
  | .refreshDue slice pc bank => Sys2Proof.Machine.execRefreshDue slice pc bank s
  | .rfmRequest slice pc bank => Sys2Proof.Machine.execRfmRequest slice pc bank s
  | .stackTemperatureChange stack temp => Sys2Proof.Machine.execStackTemperatureChange stack temp s
  | .powerDownEntry slice pc => Sys2Proof.Machine.execPowerDownEntry slice pc s
  | .rowCloseTimer slice pc bank => Sys2Proof.Machine.execRowCloseTimer slice pc bank s
  | .hotWordWriteBack slice word => Sys2Proof.Machine.execHotWordWriteBack slice word s
  | .dawnLinkRateReq link => Sys2Proof.Machine.execDawnLinkRateReq link s
  | .dataFlit link flit => Sys2Proof.Machine.execDataFlit link flit s
  | .idleFlit link flit => Sys2Proof.Machine.execIdleFlit link flit s
  | .replayStart link flit => Sys2Proof.Machine.execReplayStart link flit s
  | .flitFail link flit => Sys2Proof.Machine.execFlitFail link flit s
  | .widthReq link flit => Sys2Proof.Machine.execWidthReq link flit s
  | .widthAck link flit => Sys2Proof.Machine.execWidthAck link flit s
  | .widthGo link flit => Sys2Proof.Machine.execWidthGo link flit s
  | .retrainReq link flit => Sys2Proof.Machine.execRetrainReq link flit s
  | .rateReq link flit => Sys2Proof.Machine.execRateReq link flit s
  | .widthAbandon link flit => Sys2Proof.Machine.execWidthAbandon link flit s
  | .ctrlResendTimer link => Sys2Proof.Machine.execCtrlResendTimer link s
  | .ctrlAnswerTimeout link => Sys2Proof.Machine.execCtrlAnswerTimeout link s
  | .widenLanesPass link => Sys2Proof.Machine.execWidenLanesPass link s
  | .widenTimeout link => Sys2Proof.Machine.execWidenTimeout link s
  | .tsCap link block => Sys2Proof.Machine.execTsCap link block s
  | .tsReady link block => Sys2Proof.Machine.execTsReady link block s
  | .tsEq link block => Sys2Proof.Machine.execTsEq link block s
  | .rateTrainEnd link trials => Sys2Proof.Machine.execRateTrainEnd link trials s
  | .retrainEnd link trials => Sys2Proof.Machine.execRetrainEnd link trials s
  | .configTimeout link => Sys2Proof.Machine.execConfigTimeout link s
  | .downTimeout link => Sys2Proof.Machine.execDownTimeout link s
  | .replayTimerExpiry link => Sys2Proof.Machine.execReplayTimerExpiry link s
  | .fillerSend link => Sys2Proof.Machine.execFillerSend link s
  | .filler link block => Sys2Proof.Machine.execFiller link block s
  | .drowseMarker link block => Sys2Proof.Machine.execDrowseMarker link block s
  | .slumberMarker link block => Sys2Proof.Machine.execSlumberMarker link block s
  | .wakePattern link => Sys2Proof.Machine.execWakePattern link s
  | .drowseIdleTimer link => Sys2Proof.Machine.execDrowseIdleTimer link s
  | .slumberIdleTimer link => Sys2Proof.Machine.execSlumberIdleTimer link s
  | .transmitWake link => Sys2Proof.Machine.execTransmitWake link s
  | .wakeLate link => Sys2Proof.Machine.execWakeLate link s
  | .efmWindowEnd lane eyes swing => Sys2Proof.Machine.execEfmWindowEnd lane eyes swing s
  | .losTimeout link power => Sys2Proof.Machine.execLosTimeout link power s
  | .losEndInShut link power => Sys2Proof.Machine.execLosEndInShut link power s
  | .shutProbeTimer link => Sys2Proof.Machine.execShutProbeTimer link s
  | .probeEnd link power => Sys2Proof.Machine.execProbeEnd link power s
  | .optOvertemp engine temp => Sys2Proof.Machine.execOptOvertemp engine temp s
  | .optLaserLow link power => Sys2Proof.Machine.execOptLaserLow link power s
  | .egressPacketStart port => Sys2Proof.Machine.execEgressPacketStart port s
  | .shaperRefill => Sys2Proof.Machine.execShaperRefill s
  | .horizonCycleStart port => Sys2Proof.Machine.execHorizonCycleStart port s
  | .horizonEntryBoundary port => Sys2Proof.Machine.execHorizonEntryBoundary port s
  | .flipHoldExpiry => Sys2Proof.Machine.execFlipHoldExpiry s
  | .salvageHoldExpiry => Sys2Proof.Machine.execSalvageHoldExpiry s
  | .sync port p arrival => Sys2Proof.Machine.execSync port p arrival s
  | .delayReq port p arrival => Sys2Proof.Machine.execDelayReq port p arrival s
  | .delayResp port p arrival => Sys2Proof.Machine.execDelayResp port p arrival s
  | .announce port p arrival => Sys2Proof.Machine.execAnnounce port p arrival s
  | .syncIntervalTimer => Sys2Proof.Machine.execSyncIntervalTimer s
  | .delayIntervalTimer => Sys2Proof.Machine.execDelayIntervalTimer s
  | .syncLoss => Sys2Proof.Machine.execSyncLoss s
  | .holdoverLimitExpiry => Sys2Proof.Machine.execHoldoverLimitExpiry s
  | .vectorMessageSend v => Sys2Proof.Machine.execVectorMessageSend v s
  | .unansweredTimeout v => Sys2Proof.Machine.execUnansweredTimeout v s
  | .moderationExpiry v => Sys2Proof.Machine.execModerationExpiry v s
  | .mirrorRecord link record => Sys2Proof.Machine.execMirrorRecord link record s
  | .heartbeatTimer => Sys2Proof.Machine.execHeartbeatTimer s
  | .mirrorLinkLost => Sys2Proof.Machine.execMirrorLinkLost s
  | .selfCheckEnd fails => Sys2Proof.Machine.execSelfCheckEnd fails s
  | .pairProbeTimer => Sys2Proof.Machine.execPairProbeTimer s
  | .takeover => Sys2Proof.Machine.execTakeover s
  | .takeoverFenceWaitEnd => Sys2Proof.Machine.execTakeoverFenceWaitEnd s
  | .takeoverWriteHoldEnd => Sys2Proof.Machine.execTakeoverWriteHoldEnd s
  | .pairFenceNLow => Sys2Proof.Machine.execPairFenceNLow s
  | .resyncMetadataDone => Sys2Proof.Machine.execResyncMetadataDone s
  | .resyncDone => Sys2Proof.Machine.execResyncDone s
  | .switchDrainDone => Sys2Proof.Machine.execSwitchDrainDone s
  | .clkMonitorWindow edges => Sys2Proof.Machine.execClkMonitorWindow edges s
  | .pllLockDone => Sys2Proof.Machine.execPllLockDone s
  | .pllLockTimeout => Sys2Proof.Machine.execPllLockTimeout s
  | .pllLossOfLock => Sys2Proof.Machine.execPllLossOfLock s
  | .rampStep domain => Sys2Proof.Machine.execRampStep domain s
  | .gateQuiesceWindowEnd unit index => Sys2Proof.Machine.execGateQuiesceWindowEnd unit index s
  | .crossingOpen crossing => Sys2Proof.Machine.execCrossingOpen crossing s
  | .feedGood feedB => Sys2Proof.Machine.execFeedGood feedB s
  | .feedLost feedB => Sys2Proof.Machine.execFeedLost feedB s
  | .busUndervoltage => Sys2Proof.Machine.execBusUndervoltage s
  | .alwaysOnLoss => Sys2Proof.Machine.execAlwaysOnLoss s
  | .powerOnReset => Sys2Proof.Machine.execPowerOnReset s
  | .telemetrySample t => Sys2Proof.Machine.execTelemetrySample t s
  | .regulatorFault rail => Sys2Proof.Machine.execRegulatorFault rail s
  | .limiterPeriod watts => Sys2Proof.Machine.execLimiterPeriod watts s
  | .thermalThrottle sensor => Sys2Proof.Machine.execThermalThrottle sensor s
  | .thermalThrottleEnd sensor => Sys2Proof.Machine.execThermalThrottleEnd sensor s
  | .thermalTrip sensor => Sys2Proof.Machine.execThermalTrip sensor s
  | .holdWake => Sys2Proof.Machine.execHoldWake s
  | .resetN => Sys2Proof.Machine.execResetN s
  | .resetNRelease => Sys2Proof.Machine.execResetNRelease s
  | .bootImageSelect => Sys2Proof.Machine.execBootImageSelect s
  | .gokomosStart => Sys2Proof.Machine.execGokomosStart s
  | .bootSelfTestDone outcomes => Sys2Proof.Machine.execBootSelfTestDone outcomes s
  | .stackHalfRateDone stack sweeps => Sys2Proof.Machine.execStackHalfRateDone stack sweeps s
  | .fullRateSweepDone stack sweeps => Sys2Proof.Machine.execFullRateSweepDone stack sweeps s
  | .poolZeroDone bad => Sys2Proof.Machine.execPoolZeroDone bad s
  | .longAccTestDone pass => Sys2Proof.Machine.execLongAccTestDone pass s
  | .stepLimitExpiry => Sys2Proof.Machine.execStepLimitExpiry s
  | .zenithPoisonFetch addr => Sys2Proof.Machine.execZenithPoisonFetch addr s
  | .zenithRestart => Sys2Proof.Machine.execZenithRestart s
  | .perstN low => Sys2Proof.Machine.execPerstN low s
  | .pcieConfigRequest write off be value => Sys2Proof.Machine.execPcieConfigRequest write off be value s
  | .pcieMemoryRequest write poisoned addr size value => Sys2Proof.Machine.execPcieMemoryRequest write poisoned addr size value s
  | .pcieFlr => Sys2Proof.Machine.execPcieFlr s
  | .pcieHotReset => Sys2Proof.Machine.execPcieHotReset s
  | .pcieD3hot enter => Sys2Proof.Machine.execPcieD3hot enter s
  | .pmeTurnOff => Sys2Proof.Machine.execPmeTurnOff s
  | .gpioFilterExpiry pin high => Sys2Proof.Machine.execGpioFilterExpiry pin high s
  | .pmbusPage x => Sys2Proof.Machine.execPmbusPage x s
  | .pmbusClearFaults x => Sys2Proof.Machine.execPmbusClearFaults x s
  | .pmbusCapability x => Sys2Proof.Machine.execPmbusCapability x s
  | .pmbusVoutMode x => Sys2Proof.Machine.execPmbusVoutMode x s
  | .pmbusStatusByte x => Sys2Proof.Machine.execPmbusStatusByte x s
  | .pmbusStatusWord x => Sys2Proof.Machine.execPmbusStatusWord x s
  | .pmbusStatusVout x => Sys2Proof.Machine.execPmbusStatusVout x s
  | .pmbusStatusIout x => Sys2Proof.Machine.execPmbusStatusIout x s
  | .pmbusStatusInput x => Sys2Proof.Machine.execPmbusStatusInput x s
  | .pmbusStatusTemperature x => Sys2Proof.Machine.execPmbusStatusTemperature x s
  | .pmbusStatusCml x => Sys2Proof.Machine.execPmbusStatusCml x s
  | .pmbusReadVin x => Sys2Proof.Machine.execPmbusReadVin x s
  | .pmbusReadIin x => Sys2Proof.Machine.execPmbusReadIin x s
  | .pmbusReadPin x => Sys2Proof.Machine.execPmbusReadPin x s
  | .pmbusReadVout x => Sys2Proof.Machine.execPmbusReadVout x s
  | .pmbusReadIout x => Sys2Proof.Machine.execPmbusReadIout x s
  | .pmbusReadPout x => Sys2Proof.Machine.execPmbusReadPout x s
  | .pmbusReadTemperature1 x => Sys2Proof.Machine.execPmbusReadTemperature1 x s
  | .pmbusRevision x => Sys2Proof.Machine.execPmbusRevision x s
  | .pmbusMfrId x => Sys2Proof.Machine.execPmbusMfrId x s
  | .pmbusMfrModel x => Sys2Proof.Machine.execPmbusMfrModel x s
  | .pmbusMfrSerial x => Sys2Proof.Machine.execPmbusMfrSerial x s
  | .pmbusMfrSysState x => Sys2Proof.Machine.execPmbusMfrSysState x s
  | .pmbusMfrSysDie x => Sys2Proof.Machine.execPmbusMfrSysDie x s
  | .pmbusMfrTemp x => Sys2Proof.Machine.execPmbusMfrTemp x s
  | .pmbusMfrFeed x => Sys2Proof.Machine.execPmbusMfrFeed x s
  | .pmbusInvalidCommand code => Sys2Proof.Machine.execPmbusInvalidCommand code s
  | .smbusAlertResponse => Sys2Proof.Machine.execSmbusAlertResponse s
  | .smbusTimeout => Sys2Proof.Machine.execSmbusTimeout s
  | .jtagIdcode tdi => Sys2Proof.Machine.execJtagIdcode tdi s
  | .jtagSamplePreload tdi => Sys2Proof.Machine.execJtagSamplePreload tdi s
  | .jtagExtest tdi => Sys2Proof.Machine.execJtagExtest tdi s
  | .jtagExtestPulse tdi => Sys2Proof.Machine.execJtagExtestPulse tdi s
  | .jtagExtestTrain tdi => Sys2Proof.Machine.execJtagExtestTrain tdi s
  | .jtagHighz tdi => Sys2Proof.Machine.execJtagHighz tdi s
  | .jtagClamp tdi => Sys2Proof.Machine.execJtagClamp tdi s
  | .jtagDbgChallenge tdi => Sys2Proof.Machine.execJtagDbgChallenge tdi s
  | .jtagDbgUnlock tdi => Sys2Proof.Machine.execJtagDbgUnlock tdi s
  | .jtagDbgStatus tdi => Sys2Proof.Machine.execJtagDbgStatus tdi s
  | .jtagBypass tdi => Sys2Proof.Machine.execJtagBypass tdi s
  | .tapReset => Sys2Proof.Machine.execTapReset s
  | .debugUnlockDone => Sys2Proof.Machine.execDebugUnlockDone s
  | .mirrorAcknowledgement digest => Sys2Proof.Machine.execMirrorAcknowledgement digest s
  | .pairJoinTimeout => Sys2Proof.Machine.execPairJoinTimeout s
  | .pseudoChannelRetrainEnd slice pc sweeps => Sys2Proof.Machine.execPseudoChannelRetrainEnd slice pc sweeps s
  | .selfTestEnd m outcome => Sys2Proof.Machine.execSelfTestEnd m outcome s
  | .thermtripRelease => Sys2Proof.Machine.execThermtripRelease s
  | .modulatorsAtTemperature engine => Sys2Proof.Machine.execModulatorsAtTemperature engine s

end Sys2Proof.Machine
end

