-- ==== Sys2Proof/Machine/Step.lean ====
section
/-!
DEFINITION. One step of the block: the command at the front of the queue takes effect; with none waiting, one cycle of
CLK_FAB passes for fabric time (log entry 2).
-/
namespace Sys2Proof.Machine
open Sys2Proof

/-- CLK_FAB runs, so fabric time counts (R475, R577). -/
def fabricRuns (h : Hw) : Bool := (h.domain 1).source != 3

/-- What happens while no command waits: fabric time advances by one cycle of CLK_FAB if that clock runs (R475, log entry 2). -/
def idle (s : State) : State :=
  if fabricRuns s.hw then { s with hw := { s.hw with time := tickTime s.hw.clk.loss s.hw.time } } else s

/-- One step: the front command's effect on the rest, or the idle cycle. -/
def step (s : State) : Host.Outcome State Fault Refusal :=
  match s.pending with
  | [] => .next (idle s)
  | c :: rest => exec c { s with pending := rest }

/-- `s` with the command that the word spells in front; no word spells one. -/
def State.withFetchWord (s : State) (nbits w : Nat) : State :=
  match decodeTableWord nbits w with
  | some c => { s with pending := c :: s.pending }
  | none => s

end Sys2Proof.Machine
end

