-- ==== Sys2Proof/Laws/Exec.lean ====
section
/-!
SUPPORT. Each command's meaning, by its own name, so that no proof unfolds the dispatch.
-/
namespace Sys2Proof.Machine
open Sys2Proof

@[simp] theorem exec_mbxRing (who : Requester) (m : Fin 16) (value : Word) (s : State) : exec (.mbxRing who m value) s = execMbxRing who m value s := rfl
@[simp] theorem exec_mbxInfo (m : Fin 16) (s : State) : exec (.mbxInfo m) s = execMbxInfo m s := rfl
@[simp] theorem exec_mbxNop (m : Fin 16) (s : State) : exec (.mbxNop m) s = execMbxNop m s := rfl
@[simp] theorem exec_ctxBind (m : Fin 16) (s : State) : exec (.ctxBind m) s = execCtxBind m s := rfl
@[simp] theorem exec_ctxModify (m : Fin 16) (s : State) : exec (.ctxModify m) s = execCtxModify m s := rfl
@[simp] theorem exec_ctxUnbind (m : Fin 16) (s : State) : exec (.ctxUnbind m) s = execCtxUnbind m s := rfl
@[simp] theorem exec_ctxQuery (m : Fin 16) (s : State) : exec (.ctxQuery m) s = execCtxQuery m s := rfl
@[simp] theorem exec_xltSync (m : Fin 16) (s : State) : exec (.xltSync m) s = execXltSync m s := rfl
@[simp] theorem exec_xltInvalidate (m : Fin 16) (s : State) : exec (.xltInvalidate m) s = execXltInvalidate m s := rfl
@[simp] theorem exec_regionCreate (m : Fin 16) (s : State) : exec (.regionCreate m) s = execRegionCreate m s := rfl
@[simp] theorem exec_regionRelease (m : Fin 16) (s : State) : exec (.regionRelease m) s = execRegionRelease m s := rfl
@[simp] theorem exec_regionQuery (m : Fin 16) (s : State) : exec (.regionQuery m) s = execRegionQuery m s := rfl
@[simp] theorem exec_regionAclSet (m : Fin 16) (s : State) : exec (.regionAclSet m) s = execRegionAclSet m s := rfl
@[simp] theorem exec_regionAclAdd (m : Fin 16) (s : State) : exec (.regionAclAdd m) s = execRegionAclAdd m s := rfl
@[simp] theorem exec_regionAclRemove (m : Fin 16) (s : State) : exec (.regionAclRemove m) s = execRegionAclRemove m s := rfl
@[simp] theorem exec_agentGroupSet (m : Fin 16) (s : State) : exec (.agentGroupSet m) s = execAgentGroupSet m s := rfl
@[simp] theorem exec_agentMgmtSet (m : Fin 16) (s : State) : exec (.agentMgmtSet m) s = execAgentMgmtSet m s := rfl
@[simp] theorem exec_agentDead (m : Fin 16) (s : State) : exec (.agentDead m) s = execAgentDead m s := rfl
@[simp] theorem exec_agentRevive (m : Fin 16) (s : State) : exec (.agentRevive m) s = execAgentRevive m s := rfl
@[simp] theorem exec_cohConfig (m : Fin 16) (s : State) : exec (.cohConfig m) s = execCohConfig m s := rfl
@[simp] theorem exec_cohQuery (m : Fin 16) (s : State) : exec (.cohQuery m) s = execCohQuery m s := rfl
@[simp] theorem exec_cohLineQuery (m : Fin 16) (s : State) : exec (.cohLineQuery m) s = execCohLineQuery m s := rfl
@[simp] theorem exec_cohSuspectClear (m : Fin 16) (s : State) : exec (.cohSuspectClear m) s = execCohSuspectClear m s := rfl
@[simp] theorem exec_snapOpen (m : Fin 16) (s : State) : exec (.snapOpen m) s = execSnapOpen m s := rfl
@[simp] theorem exec_snapPublish (m : Fin 16) (s : State) : exec (.snapPublish m) s = execSnapPublish m s := rfl
@[simp] theorem exec_snapRebase (m : Fin 16) (s : State) : exec (.snapRebase m) s = execSnapRebase m s := rfl
@[simp] theorem exec_snapClose (m : Fin 16) (s : State) : exec (.snapClose m) s = execSnapClose m s := rfl
@[simp] theorem exec_snapConfig (m : Fin 16) (s : State) : exec (.snapConfig m) s = execSnapConfig m s := rfl
@[simp] theorem exec_snapQuery (m : Fin 16) (s : State) : exec (.snapQuery m) s = execSnapQuery m s := rfl
@[simp] theorem exec_queueCreate (m : Fin 16) (s : State) : exec (.queueCreate m) s = execQueueCreate m s := rfl
@[simp] theorem exec_queueDestroy (m : Fin 16) (s : State) : exec (.queueDestroy m) s = execQueueDestroy m s := rfl
@[simp] theorem exec_queueQuery (m : Fin 16) (s : State) : exec (.queueQuery m) s = execQueueQuery m s := rfl
@[simp] theorem exec_collGroupCreate (m : Fin 16) (s : State) : exec (.collGroupCreate m) s = execCollGroupCreate m s := rfl
@[simp] theorem exec_collGroupConfig (m : Fin 16) (s : State) : exec (.collGroupConfig m) s = execCollGroupConfig m s := rfl
@[simp] theorem exec_collGroupDestroy (m : Fin 16) (s : State) : exec (.collGroupDestroy m) s = execCollGroupDestroy m s := rfl
@[simp] theorem exec_collGroupQuery (m : Fin 16) (s : State) : exec (.collGroupQuery m) s = execCollGroupQuery m s := rfl
@[simp] theorem exec_collMemberAdd (m : Fin 16) (s : State) : exec (.collMemberAdd m) s = execCollMemberAdd m s := rfl
@[simp] theorem exec_collMemberRemove (m : Fin 16) (s : State) : exec (.collMemberRemove m) s = execCollMemberRemove m s := rfl
@[simp] theorem exec_collInstanceEnd (m : Fin 16) (s : State) : exec (.collInstanceEnd m) s = execCollInstanceEnd m s := rfl
@[simp] theorem exec_memConfig (m : Fin 16) (s : State) : exec (.memConfig m) s = execMemConfig m s := rfl
@[simp] theorem exec_memQuery (m : Fin 16) (s : State) : exec (.memQuery m) s = execMemQuery m s := rfl
@[simp] theorem exec_memRetrain (m : Fin 16) (s : State) : exec (.memRetrain m) s = execMemRetrain m s := rfl
@[simp] theorem exec_memEccConfig (m : Fin 16) (s : State) : exec (.memEccConfig m) s = execMemEccConfig m s := rfl
@[simp] theorem exec_memEccQuery (m : Fin 16) (s : State) : exec (.memEccQuery m) s = execMemEccQuery m s := rfl
@[simp] theorem exec_memRemap (m : Fin 16) (s : State) : exec (.memRemap m) s = execMemRemap m s := rfl
@[simp] theorem exec_memPpr (m : Fin 16) (s : State) : exec (.memPpr m) s = execMemPpr m s := rfl
@[simp] theorem exec_laneConfig (m : Fin 16) (s : State) : exec (.laneConfig m) s = execLaneConfig m s := rfl
@[simp] theorem exec_lanePower (m : Fin 16) (s : State) : exec (.lanePower m) s = execLanePower m s := rfl
@[simp] theorem exec_laneQuery (m : Fin 16) (s : State) : exec (.laneQuery m) s = execLaneQuery m s := rfl
@[simp] theorem exec_optEngine (m : Fin 16) (s : State) : exec (.optEngine m) s = execOptEngine m s := rfl
@[simp] theorem exec_optGate (m : Fin 16) (s : State) : exec (.optGate m) s = execOptGate m s := rfl
@[simp] theorem exec_optQuery (m : Fin 16) (s : State) : exec (.optQuery m) s = execOptQuery m s := rfl
@[simp] theorem exec_linkEnable (m : Fin 16) (s : State) : exec (.linkEnable m) s = execLinkEnable m s := rfl
@[simp] theorem exec_linkConfig (m : Fin 16) (s : State) : exec (.linkConfig m) s = execLinkConfig m s := rfl
@[simp] theorem exec_linkTune (m : Fin 16) (s : State) : exec (.linkTune m) s = execLinkTune m s := rfl
@[simp] theorem exec_linkRetrain (m : Fin 16) (s : State) : exec (.linkRetrain m) s = execLinkRetrain m s := rfl
@[simp] theorem exec_linkWidth (m : Fin 16) (s : State) : exec (.linkWidth m) s = execLinkWidth m s := rfl
@[simp] theorem exec_linkQuery (m : Fin 16) (s : State) : exec (.linkQuery m) s = execLinkQuery m s := rfl
@[simp] theorem exec_routeConfig (m : Fin 16) (s : State) : exec (.routeConfig m) s = execRouteConfig m s := rfl
@[simp] theorem exec_routeLoad (m : Fin 16) (s : State) : exec (.routeLoad m) s = execRouteLoad m s := rfl
@[simp] theorem exec_routeFlip (m : Fin 16) (s : State) : exec (.routeFlip m) s = execRouteFlip m s := rfl
@[simp] theorem exec_routeQuery (m : Fin 16) (s : State) : exec (.routeQuery m) s = execRouteQuery m s := rfl
@[simp] theorem exec_qosMode (m : Fin 16) (s : State) : exec (.qosMode m) s = execQosMode m s := rfl
@[simp] theorem exec_qosPort (m : Fin 16) (s : State) : exec (.qosPort m) s = execQosPort m s := rfl
@[simp] theorem exec_qosPolice (m : Fin 16) (s : State) : exec (.qosPolice m) s = execQosPolice m s := rfl
@[simp] theorem exec_horizonLoad (m : Fin 16) (s : State) : exec (.horizonLoad m) s = execHorizonLoad m s := rfl
@[simp] theorem exec_timeConfig (m : Fin 16) (s : State) : exec (.timeConfig m) s = execTimeConfig m s := rfl
@[simp] theorem exec_timeLink (m : Fin 16) (s : State) : exec (.timeLink m) s = execTimeLink m s := rfl
@[simp] theorem exec_timeSet (m : Fin 16) (s : State) : exec (.timeSet m) s = execTimeSet m s := rfl
@[simp] theorem exec_timeQuery (m : Fin 16) (s : State) : exec (.timeQuery m) s = execTimeQuery m s := rfl
@[simp] theorem exec_pairJoin (m : Fin 16) (s : State) : exec (.pairJoin m) s = execPairJoin m s := rfl
@[simp] theorem exec_pairLeave (m : Fin 16) (s : State) : exec (.pairLeave m) s = execPairLeave m s := rfl
@[simp] theorem exec_pairSwitch (m : Fin 16) (s : State) : exec (.pairSwitch m) s = execPairSwitch m s := rfl
@[simp] theorem exec_pairConfig (m : Fin 16) (s : State) : exec (.pairConfig m) s = execPairConfig m s := rfl
@[simp] theorem exec_pairQuery (m : Fin 16) (s : State) : exec (.pairQuery m) s = execPairQuery m s := rfl
@[simp] theorem exec_bistRun (m : Fin 16) (s : State) : exec (.bistRun m) s = execBistRun m s := rfl
@[simp] theorem exec_bistQuery (m : Fin 16) (s : State) : exec (.bistQuery m) s = execBistQuery m s := rfl
@[simp] theorem exec_repairCommit (m : Fin 16) (s : State) : exec (.repairCommit m) s = execRepairCommit m s := rfl
@[simp] theorem exec_repairQuery (m : Fin 16) (s : State) : exec (.repairQuery m) s = execRepairQuery m s := rfl
@[simp] theorem exec_fwUpdate (m : Fin 16) (s : State) : exec (.fwUpdate m) s = execFwUpdate m s := rfl
@[simp] theorem exec_fwQuery (m : Fin 16) (s : State) : exec (.fwQuery m) s = execFwQuery m s := rfl
@[simp] theorem exec_fwActivate (m : Fin 16) (s : State) : exec (.fwActivate m) s = execFwActivate m s := rfl
@[simp] theorem exec_clkGate (m : Fin 16) (s : State) : exec (.clkGate m) s = execClkGate m s := rfl
@[simp] theorem exec_clkSwitch (m : Fin 16) (s : State) : exec (.clkSwitch m) s = execClkSwitch m s := rfl
@[simp] theorem exec_clkQuery (m : Fin 16) (s : State) : exec (.clkQuery m) s = execClkQuery m s := rfl
@[simp] theorem exec_pwrState (m : Fin 16) (s : State) : exec (.pwrState m) s = execPwrState m s := rfl
@[simp] theorem exec_pwrLimit (m : Fin 16) (s : State) : exec (.pwrLimit m) s = execPwrLimit m s := rfl
@[simp] theorem exec_pwrQuery (m : Fin 16) (s : State) : exec (.pwrQuery m) s = execPwrQuery m s := rfl
@[simp] theorem exec_gpioConfig (m : Fin 16) (s : State) : exec (.gpioConfig m) s = execGpioConfig m s := rfl
@[simp] theorem exec_gpioSet (m : Fin 16) (s : State) : exec (.gpioSet m) s = execGpioSet m s := rfl
@[simp] theorem exec_gpioQuery (m : Fin 16) (s : State) : exec (.gpioQuery m) s = execGpioQuery m s := rfl
@[simp] theorem exec_registerWrite (who : Requester) (off : Nat) (size : Nat) (value : Word) (s : State) : exec (.registerWrite who off size value) s = execRegisterWrite who off size value s := rfl
@[simp] theorem exec_dblRing (who : Requester) (ctx : Fin 65536) (value : Word) (s : State) : exec (.dblRing who ctx value) s = execDblRing who ctx value s := rfl
@[simp] theorem exec_faultReplyResume (who : Requester) (ctx : Fin 65536) (value : Word) (s : State) : exec (.faultReplyResume who ctx value) s = execFaultReplyResume who ctx value s := rfl
@[simp] theorem exec_faultReplyAbort (who : Requester) (ctx : Fin 65536) (value : Word) (s : State) : exec (.faultReplyAbort who ctx value) s = execFaultReplyAbort who ctx value s := rfl
@[simp] theorem exec_queueRestart (who : Requester) (ctx : Fin 65536) (value : Word) (s : State) : exec (.queueRestart who ctx value) s = execQueueRestart who ctx value s := rfl
@[simp] theorem exec_evcClaim (v : Fin 68) (s : State) : exec (.evcClaim v) s = execEvcClaim v s := rfl
@[simp] theorem exec_evcComplete (v : Fin 68) (value : Word) (s : State) : exec (.evcComplete v value) s = execEvcComplete v value s := rfl
@[simp] theorem exec_errSlotClear (log : Fin 165) (slot : Fin 3) (value : Word) (s : State) : exec (.errSlotClear log slot value) s = execErrSlotClear log slot value s := rfl
@[simp] theorem exec_evcMsixCtlWrite (v : Fin 64) (value : Word) (s : State) : exec (.evcMsixCtlWrite v value) s = execEvcMsixCtlWrite v value s := rfl
@[simp] theorem exec_clkObsWrite (value : Word) (s : State) : exec (.clkObsWrite value) s = execClkObsWrite value s := rfl
@[simp] theorem exec_cwRd (p : Packet) (s : State) : exec (.cwRd p) s = execCwRd p s := rfl
@[simp] theorem exec_cwWr (p : Packet) (s : State) : exec (.cwWr p) s = execCwWr p s := rfl
@[simp] theorem exec_cwRdata (p : Packet) (s : State) : exec (.cwRdata p) s = execCwRdata p s := rfl
@[simp] theorem exec_packetRoute (port : Fin 98) (p : Packet) (s : State) : exec (.packetRoute port p) s = execPacketRoute port p s := rfl
@[simp] theorem exec_rdShared (p : Packet) (s : State) : exec (.rdShared p) s = execRdShared p s := rfl
@[simp] theorem exec_rdOwn (p : Packet) (s : State) : exec (.rdOwn p) s = execRdOwn p s := rfl
@[simp] theorem exec_upgrade (p : Packet) (s : State) : exec (.upgrade p) s = execUpgrade p s := rfl
@[simp] theorem exec_rdOnce (p : Packet) (s : State) : exec (.rdOnce p) s = execRdOnce p s := rfl
@[simp] theorem exec_wrLine (p : Packet) (s : State) : exec (.wrLine p) s = execWrLine p s := rfl
@[simp] theorem exec_wrPart (p : Packet) (s : State) : exec (.wrPart p) s = execWrPart p s := rfl
@[simp] theorem exec_atomic (p : Packet) (s : State) : exec (.atomic p) s = execAtomic p s := rfl
@[simp] theorem exec_evict (p : Packet) (s : State) : exec (.evict p) s = execEvict p s := rfl
@[simp] theorem exec_snprspI (p : Packet) (s : State) : exec (.snprspI p) s = execSnprspI p s := rfl
@[simp] theorem exec_snprspFwd (p : Packet) (s : State) : exec (.snprspFwd p) s = execSnprspFwd p s := rfl
@[simp] theorem exec_snprspWbif (p : Packet) (s : State) : exec (.snprspWbif p) s = execSnprspWbif p s := rfl
@[simp] theorem exec_cmpAck (p : Packet) (s : State) : exec (.cmpAck p) s = execCmpAck p s := rfl
@[simp] theorem exec_probeRsp (p : Packet) (s : State) : exec (.probeRsp p) s = execProbeRsp p s := rfl
@[simp] theorem exec_wbData (p : Packet) (s : State) : exec (.wbData p) s = execWbData p s := rfl
@[simp] theorem exec_snpData (p : Packet) (s : State) : exec (.snpData p) s = execSnpData p s := rfl
@[simp] theorem exec_probeData (p : Packet) (s : State) : exec (.probeData p) s = execProbeData p s := rfl
@[simp] theorem exec_dataOnceAtHome (p : Packet) (s : State) : exec (.dataOnceAtHome p) s = execDataOnceAtHome p s := rfl
@[simp] theorem exec_snoopAtModule (p : Packet) (s : State) : exec (.snoopAtModule p) s = execSnoopAtModule p s := rfl
@[simp] theorem exec_overflowRequestServed (tile : Fin 32) (s : State) : exec (.overflowRequestServed tile) s = execOverflowRequestServed tile s := rfl
@[simp] theorem exec_resvExpiry (tile : Fin 32) (s : State) : exec (.resvExpiry tile) s = execResvExpiry tile s := rfl
@[simp] theorem exec_homeTimeout (tile : Fin 32) (slot : Nat) (s : State) : exec (.homeTimeout tile slot) s = execHomeTimeout tile slot s := rfl
@[simp] theorem exec_brd (p : Packet) (s : State) : exec (.brd p) s = execBrd p s := rfl
@[simp] theorem exec_bwr (p : Packet) (s : State) : exec (.bwr p) s = execBwr p s := rfl
@[simp] theorem exec_bulkHeldReleased (tile : Fin 32) (s : State) : exec (.bulkHeldReleased tile) s = execBulkHeldReleased tile s := rfl
@[simp] theorem exec_filterEntryRelease (tile : Fin 32) (s : State) : exec (.filterEntryRelease tile) s = execFilterEntryRelease tile s := rfl
@[simp] theorem exec_brdData (p : Packet) (s : State) : exec (.brdData p) s = execBrdData p s := rfl
@[simp] theorem exec_bdone (p : Packet) (s : State) : exec (.bdone p) s = execBdone p s := rfl
@[simp] theorem exec_atomicRet (p : Packet) (s : State) : exec (.atomicRet p) s = execAtomicRet p s := rfl
@[simp] theorem exec_retry (p : Packet) (s : State) : exec (.retry p) s = execRetry p s := rfl
@[simp] theorem exec_deny (p : Packet) (s : State) : exec (.deny p) s = execDeny p s := rfl
@[simp] theorem exec_tileRetryReissue (tid : Nat) (s : State) : exec (.tileRetryReissue tid) s = execTileRetryReissue tid s := rfl
@[simp] theorem exec_xltInv (p : Packet) (s : State) : exec (.xltInv p) s = execXltInv p s := rfl
@[simp] theorem exec_xltInvAckSend (src : Nat) (tid : Nat) (s : State) : exec (.xltInvAckSend src tid) s = execXltInvAckSend src tid s := rfl
@[simp] theorem exec_descFetch (qid : Fin 4096) (s : State) : exec (.descFetch qid) s = execDescFetch qid s := rfl
@[simp] theorem exec_preTranslationWalk (qid : Fin 4096) (idx : Nat) (s : State) : exec (.preTranslationWalk qid idx) s = execPreTranslationWalk qid idx s := rfl
@[simp] theorem exec_descStart (qid : Fin 4096) (idx : Nat) (s : State) : exec (.descStart qid idx) s = execDescStart qid idx s := rfl
@[simp] theorem exec_chunkStart (qid : Fin 4096) (idx : Nat) (s : State) : exec (.chunkStart qid idx) s = execChunkStart qid idx s := rfl
@[simp] theorem exec_faultSlotFreed (tile : Fin 32) (s : State) : exec (.faultSlotFreed tile) s = execFaultSlotFreed tile s := rfl
@[simp] theorem exec_faultTimeout (tile : Fin 32) (slot : Fin 64) (s : State) : exec (.faultTimeout tile slot) s = execFaultTimeout tile slot s := rfl
@[simp] theorem exec_chunkCommit (qid : Fin 4096) (idx : ChunkAt) (s : State) : exec (.chunkCommit qid idx) s = execChunkCommit qid idx s := rfl
@[simp] theorem exec_descComplete (qid : Fin 4096) (idx : Nat) (s : State) : exec (.descComplete qid idx) s = execDescComplete qid idx s := rfl
@[simp] theorem exec_tileE2eTimeout (tid : Nat) (s : State) : exec (.tileE2eTimeout tid) s = execTileE2eTimeout tid s := rfl
@[simp] theorem exec_dfencePoll (qid : Fin 4096) (idx : Nat) (s : State) : exec (.dfencePoll qid idx) s = execDfencePoll qid idx s := rfl
@[simp] theorem exec_dmergeStampPoll (qid : Fin 4096) (idx : Nat) (s : State) : exec (.dmergeStampPoll qid idx) s = execDmergeStampPoll qid idx s := rfl
@[simp] theorem exec_rightsChangeDrainEnd (m : Fin 16) (s : State) : exec (.rightsChangeDrainEnd m) s = execRightsChangeDrainEnd m s := rfl
@[simp] theorem exec_directoryScanEnd (tile : Fin 32) (m : Fin 16) (s : State) : exec (.directoryScanEnd tile m) s = execDirectoryScanEnd tile m s := rfl
@[simp] theorem exec_regionWipeDone (region : Nat) (s : State) : exec (.regionWipeDone region) s = execRegionWipeDone region s := rfl
@[simp] theorem exec_agentDeadDone (node : Nat) (s : State) : exec (.agentDeadDone node) s = execAgentDeadDone node s := rfl
@[simp] theorem exec_snapSwitch (m : Fin 16) (s : State) : exec (.snapSwitch m) s = execSnapSwitch m s := rfl
@[simp] theorem exec_cowCopyDone (region : Nat) (shard : Nat) (slot : Nat) (s : State) : exec (.cowCopyDone region shard slot) s = execCowCopyDone region shard slot s := rfl
@[simp] theorem exec_snapReclaimDone (region : Nat) (slot : Nat) (s : State) : exec (.snapReclaimDone region slot) s = execSnapReclaimDone region slot s := rfl
@[simp] theorem exec_colSeg (p : Packet) (s : State) : exec (.colSeg p) s = execColSeg p s := rfl
@[simp] theorem exec_colSegmentDone (group : Fin 1024) (seg : Nat) (s : State) : exec (.colSegmentDone group seg) s = execColSegmentDone group seg s := rfl
@[simp] theorem exec_colInstanceDone (group : Fin 1024) (s : State) : exec (.colInstanceDone group) s = execColInstanceDone group s := rfl
@[simp] theorem exec_colMemberTimeout (group : Fin 1024) (member : Nat) (s : State) : exec (.colMemberTimeout group member) s = execColMemberTimeout group member s := rfl
@[simp] theorem exec_dramReadDecode (cell : Storage) (err : BitVec 80) (s : State) : exec (.dramReadDecode cell err) s = execDramReadDecode cell err s := rfl
@[simp] theorem exec_trackWindowExpiry (slice : Fin 32) (pc : Fin 16) (bank : Fin 64) (row : Fin 16384) (s : State) : exec (.trackWindowExpiry slice pc bank row) s = execTrackWindowExpiry slice pc bank row s := rfl
@[simp] theorem exec_mcsSlotIssue (slice : Fin 32) (pc : Fin 16) (s : State) : exec (.mcsSlotIssue slice pc) s = execMcsSlotIssue slice pc s := rfl
@[simp] theorem exec_refreshDue (slice : Fin 32) (pc : Fin 16) (bank : Fin 64) (s : State) : exec (.refreshDue slice pc bank) s = execRefreshDue slice pc bank s := rfl
@[simp] theorem exec_rfmRequest (slice : Fin 32) (pc : Fin 16) (bank : Fin 64) (s : State) : exec (.rfmRequest slice pc bank) s = execRfmRequest slice pc bank s := rfl
@[simp] theorem exec_stackTemperatureChange (stack : Fin 8) (temp : Nat) (s : State) : exec (.stackTemperatureChange stack temp) s = execStackTemperatureChange stack temp s := rfl
@[simp] theorem exec_powerDownEntry (slice : Fin 32) (pc : Fin 16) (s : State) : exec (.powerDownEntry slice pc) s = execPowerDownEntry slice pc s := rfl
@[simp] theorem exec_rowCloseTimer (slice : Fin 32) (pc : Fin 16) (bank : Fin 64) (s : State) : exec (.rowCloseTimer slice pc bank) s = execRowCloseTimer slice pc bank s := rfl
@[simp] theorem exec_hotWordWriteBack (slice : Fin 32) (word : Nat) (s : State) : exec (.hotWordWriteBack slice word) s = execHotWordWriteBack slice word s := rfl
@[simp] theorem exec_dawnLinkRateReq (link : Fin 64) (s : State) : exec (.dawnLinkRateReq link) s = execDawnLinkRateReq link s := rfl
@[simp] theorem exec_dataFlit (link : Fin 64) (flit : List Byte) (s : State) : exec (.dataFlit link flit) s = execDataFlit link flit s := rfl
@[simp] theorem exec_idleFlit (link : Fin 64) (flit : List Byte) (s : State) : exec (.idleFlit link flit) s = execIdleFlit link flit s := rfl
@[simp] theorem exec_replayStart (link : Fin 64) (flit : List Byte) (s : State) : exec (.replayStart link flit) s = execReplayStart link flit s := rfl
@[simp] theorem exec_flitFail (link : Fin 64) (flit : List Byte) (s : State) : exec (.flitFail link flit) s = execFlitFail link flit s := rfl
@[simp] theorem exec_widthReq (link : Fin 64) (flit : List Byte) (s : State) : exec (.widthReq link flit) s = execWidthReq link flit s := rfl
@[simp] theorem exec_widthAck (link : Fin 64) (flit : List Byte) (s : State) : exec (.widthAck link flit) s = execWidthAck link flit s := rfl
@[simp] theorem exec_widthGo (link : Fin 64) (flit : List Byte) (s : State) : exec (.widthGo link flit) s = execWidthGo link flit s := rfl
@[simp] theorem exec_retrainReq (link : Fin 64) (flit : List Byte) (s : State) : exec (.retrainReq link flit) s = execRetrainReq link flit s := rfl
@[simp] theorem exec_rateReq (link : Fin 64) (flit : List Byte) (s : State) : exec (.rateReq link flit) s = execRateReq link flit s := rfl
@[simp] theorem exec_widthAbandon (link : Fin 64) (flit : List Byte) (s : State) : exec (.widthAbandon link flit) s = execWidthAbandon link flit s := rfl
@[simp] theorem exec_ctrlResendTimer (link : Fin 64) (s : State) : exec (.ctrlResendTimer link) s = execCtrlResendTimer link s := rfl
@[simp] theorem exec_ctrlAnswerTimeout (link : Fin 64) (s : State) : exec (.ctrlAnswerTimeout link) s = execCtrlAnswerTimeout link s := rfl
@[simp] theorem exec_widenLanesPass (link : LinkTrials) (s : State) : exec (.widenLanesPass link) s = execWidenLanesPass link s := rfl
@[simp] theorem exec_widenTimeout (link : Fin 64) (s : State) : exec (.widenTimeout link) s = execWidenTimeout link s := rfl
@[simp] theorem exec_tsCap (link : Fin 64) (block : List Byte) (s : State) : exec (.tsCap link block) s = execTsCap link block s := rfl
@[simp] theorem exec_tsReady (link : Fin 64) (block : List Byte) (s : State) : exec (.tsReady link block) s = execTsReady link block s := rfl
@[simp] theorem exec_tsEq (link : Fin 64) (block : List Byte) (s : State) : exec (.tsEq link block) s = execTsEq link block s := rfl
@[simp] theorem exec_rateTrainEnd (link : Fin 64) (trials : List Trial) (s : State) : exec (.rateTrainEnd link trials) s = execRateTrainEnd link trials s := rfl
@[simp] theorem exec_retrainEnd (link : Fin 64) (trials : List Trial) (s : State) : exec (.retrainEnd link trials) s = execRetrainEnd link trials s := rfl
@[simp] theorem exec_configTimeout (link : Fin 64) (s : State) : exec (.configTimeout link) s = execConfigTimeout link s := rfl
@[simp] theorem exec_downTimeout (link : Fin 64) (s : State) : exec (.downTimeout link) s = execDownTimeout link s := rfl
@[simp] theorem exec_replayTimerExpiry (link : Fin 64) (s : State) : exec (.replayTimerExpiry link) s = execReplayTimerExpiry link s := rfl
@[simp] theorem exec_fillerSend (link : Fin 64) (s : State) : exec (.fillerSend link) s = execFillerSend link s := rfl
@[simp] theorem exec_filler (link : Fin 64) (block : List Byte) (s : State) : exec (.filler link block) s = execFiller link block s := rfl
@[simp] theorem exec_drowseMarker (link : Fin 64) (block : List Byte) (s : State) : exec (.drowseMarker link block) s = execDrowseMarker link block s := rfl
@[simp] theorem exec_slumberMarker (link : Fin 64) (block : List Byte) (s : State) : exec (.slumberMarker link block) s = execSlumberMarker link block s := rfl
@[simp] theorem exec_wakePattern (link : Fin 64) (s : State) : exec (.wakePattern link) s = execWakePattern link s := rfl
@[simp] theorem exec_drowseIdleTimer (link : Fin 64) (s : State) : exec (.drowseIdleTimer link) s = execDrowseIdleTimer link s := rfl
@[simp] theorem exec_slumberIdleTimer (link : Fin 64) (s : State) : exec (.slumberIdleTimer link) s = execSlumberIdleTimer link s := rfl
@[simp] theorem exec_transmitWake (link : Fin 64) (s : State) : exec (.transmitWake link) s = execTransmitWake link s := rfl
@[simp] theorem exec_wakeLate (link : Fin 64) (s : State) : exec (.wakeLate link) s = execWakeLate link s := rfl
@[simp] theorem exec_efmWindowEnd (lane : Fin 256) (eyes : List (Int × Int)) (swing : Nat) (s : State) : exec (.efmWindowEnd lane eyes swing) s = execEfmWindowEnd lane eyes swing s := rfl
@[simp] theorem exec_losTimeout (link : Fin 64) (power : List Int) (s : State) : exec (.losTimeout link power) s = execLosTimeout link power s := rfl
@[simp] theorem exec_losEndInShut (link : Fin 64) (power : List Int) (s : State) : exec (.losEndInShut link power) s = execLosEndInShut link power s := rfl
@[simp] theorem exec_shutProbeTimer (link : Fin 64) (s : State) : exec (.shutProbeTimer link) s = execShutProbeTimer link s := rfl
@[simp] theorem exec_probeEnd (link : Fin 64) (power : List Int) (s : State) : exec (.probeEnd link power) s = execProbeEnd link power s := rfl
@[simp] theorem exec_optOvertemp (engine : Fin 12) (temp : Nat) (s : State) : exec (.optOvertemp engine temp) s = execOptOvertemp engine temp s := rfl
@[simp] theorem exec_optLaserLow (link : Fin 64) (power : Int) (s : State) : exec (.optLaserLow link power) s = execOptLaserLow link power s := rfl
@[simp] theorem exec_egressPacketStart (port : Fin 98) (s : State) : exec (.egressPacketStart port) s = execEgressPacketStart port s := rfl
@[simp] theorem exec_shaperRefill (s : State) : exec .shaperRefill s = execShaperRefill s := rfl
@[simp] theorem exec_horizonCycleStart (port : Fin 64) (s : State) : exec (.horizonCycleStart port) s = execHorizonCycleStart port s := rfl
@[simp] theorem exec_horizonEntryBoundary (port : Fin 64) (s : State) : exec (.horizonEntryBoundary port) s = execHorizonEntryBoundary port s := rfl
@[simp] theorem exec_flipHoldExpiry (s : State) : exec .flipHoldExpiry s = execFlipHoldExpiry s := rfl
@[simp] theorem exec_salvageHoldExpiry (s : State) : exec .salvageHoldExpiry s = execSalvageHoldExpiry s := rfl
@[simp] theorem exec_sync (port : Fin 64) (p : Packet) (arrival : Nat) (s : State) : exec (.sync port p arrival) s = execSync port p arrival s := rfl
@[simp] theorem exec_delayReq (port : Fin 64) (p : Packet) (arrival : Nat) (s : State) : exec (.delayReq port p arrival) s = execDelayReq port p arrival s := rfl
@[simp] theorem exec_delayResp (port : Fin 64) (p : Packet) (arrival : Nat) (s : State) : exec (.delayResp port p arrival) s = execDelayResp port p arrival s := rfl
@[simp] theorem exec_announce (port : Fin 64) (p : Packet) (arrival : Nat) (s : State) : exec (.announce port p arrival) s = execAnnounce port p arrival s := rfl
@[simp] theorem exec_syncIntervalTimer (s : State) : exec .syncIntervalTimer s = execSyncIntervalTimer s := rfl
@[simp] theorem exec_delayIntervalTimer (s : State) : exec .delayIntervalTimer s = execDelayIntervalTimer s := rfl
@[simp] theorem exec_syncLoss (s : State) : exec .syncLoss s = execSyncLoss s := rfl
@[simp] theorem exec_holdoverLimitExpiry (s : State) : exec .holdoverLimitExpiry s = execHoldoverLimitExpiry s := rfl
@[simp] theorem exec_vectorMessageSend (v : Fin 68) (s : State) : exec (.vectorMessageSend v) s = execVectorMessageSend v s := rfl
@[simp] theorem exec_unansweredTimeout (v : Fin 68) (s : State) : exec (.unansweredTimeout v) s = execUnansweredTimeout v s := rfl
@[simp] theorem exec_moderationExpiry (v : Fin 68) (s : State) : exec (.moderationExpiry v) s = execModerationExpiry v s := rfl
@[simp] theorem exec_mirrorRecord (link : Fin 16) (record : MirrorRec) (s : State) : exec (.mirrorRecord link record) s = execMirrorRecord link record s := rfl
@[simp] theorem exec_heartbeatTimer (s : State) : exec .heartbeatTimer s = execHeartbeatTimer s := rfl
@[simp] theorem exec_mirrorLinkLost (s : State) : exec .mirrorLinkLost s = execMirrorLinkLost s := rfl
@[simp] theorem exec_selfCheckEnd (fails : Bool) (s : State) : exec (.selfCheckEnd fails) s = execSelfCheckEnd fails s := rfl
@[simp] theorem exec_pairProbeTimer (s : State) : exec .pairProbeTimer s = execPairProbeTimer s := rfl
@[simp] theorem exec_takeover (s : State) : exec .takeover s = execTakeover s := rfl
@[simp] theorem exec_takeoverFenceWaitEnd (s : State) : exec .takeoverFenceWaitEnd s = execTakeoverFenceWaitEnd s := rfl
@[simp] theorem exec_takeoverWriteHoldEnd (s : State) : exec .takeoverWriteHoldEnd s = execTakeoverWriteHoldEnd s := rfl
@[simp] theorem exec_pairFenceNLow (s : State) : exec .pairFenceNLow s = execPairFenceNLow s := rfl
@[simp] theorem exec_resyncMetadataDone (s : State) : exec .resyncMetadataDone s = execResyncMetadataDone s := rfl
@[simp] theorem exec_resyncDone (s : State) : exec .resyncDone s = execResyncDone s := rfl
@[simp] theorem exec_switchDrainDone (s : State) : exec .switchDrainDone s = execSwitchDrainDone s := rfl
@[simp] theorem exec_clkMonitorWindow (edges : Nat) (s : State) : exec (.clkMonitorWindow edges) s = execClkMonitorWindow edges s := rfl
@[simp] theorem exec_pllLockDone (s : State) : exec .pllLockDone s = execPllLockDone s := rfl
@[simp] theorem exec_pllLockTimeout (s : State) : exec .pllLockTimeout s = execPllLockTimeout s := rfl
@[simp] theorem exec_pllLossOfLock (s : State) : exec .pllLossOfLock s = execPllLossOfLock s := rfl
@[simp] theorem exec_rampStep (domain : Fin 5) (s : State) : exec (.rampStep domain) s = execRampStep domain s := rfl
@[simp] theorem exec_gateQuiesceWindowEnd (unit : Fin 3) (index : Nat) (s : State) : exec (.gateQuiesceWindowEnd unit index) s = execGateQuiesceWindowEnd unit index s := rfl
@[simp] theorem exec_crossingOpen (crossing : Fin 5) (s : State) : exec (.crossingOpen crossing) s = execCrossingOpen crossing s := rfl
@[simp] theorem exec_feedGood (feedB : Bool) (s : State) : exec (.feedGood feedB) s = execFeedGood feedB s := rfl
@[simp] theorem exec_feedLost (feedB : Bool) (s : State) : exec (.feedLost feedB) s = execFeedLost feedB s := rfl
@[simp] theorem exec_busUndervoltage (s : State) : exec .busUndervoltage s = execBusUndervoltage s := rfl
@[simp] theorem exec_alwaysOnLoss (s : State) : exec .alwaysOnLoss s = execAlwaysOnLoss s := rfl
@[simp] theorem exec_powerOnReset (s : State) : exec .powerOnReset s = execPowerOnReset s := rfl
@[simp] theorem exec_telemetrySample (t : Telemetry) (s : State) : exec (.telemetrySample t) s = execTelemetrySample t s := rfl
@[simp] theorem exec_regulatorFault (rail : Fin 12) (s : State) : exec (.regulatorFault rail) s = execRegulatorFault rail s := rfl
@[simp] theorem exec_limiterPeriod (watts : Nat) (s : State) : exec (.limiterPeriod watts) s = execLimiterPeriod watts s := rfl
@[simp] theorem exec_thermalThrottle (sensor : Nat) (s : State) : exec (.thermalThrottle sensor) s = execThermalThrottle sensor s := rfl
@[simp] theorem exec_thermalThrottleEnd (sensor : Nat) (s : State) : exec (.thermalThrottleEnd sensor) s = execThermalThrottleEnd sensor s := rfl
@[simp] theorem exec_thermalTrip (sensor : Nat) (s : State) : exec (.thermalTrip sensor) s = execThermalTrip sensor s := rfl
@[simp] theorem exec_holdWake (s : State) : exec .holdWake s = execHoldWake s := rfl
@[simp] theorem exec_resetN (s : State) : exec .resetN s = execResetN s := rfl
@[simp] theorem exec_resetNRelease (s : State) : exec .resetNRelease s = execResetNRelease s := rfl
@[simp] theorem exec_bootImageSelect (s : State) : exec .bootImageSelect s = execBootImageSelect s := rfl
@[simp] theorem exec_gokomosStart (s : State) : exec .gokomosStart s = execGokomosStart s := rfl
@[simp] theorem exec_bootSelfTestDone (outcomes : List TestOutcome) (s : State) : exec (.bootSelfTestDone outcomes) s = execBootSelfTestDone outcomes s := rfl
@[simp] theorem exec_stackHalfRateDone (stack : Fin 8) (sweeps : List Sweep) (s : State) : exec (.stackHalfRateDone stack sweeps) s = execStackHalfRateDone stack sweeps s := rfl
@[simp] theorem exec_fullRateSweepDone (stack : Fin 8) (sweeps : List Sweep) (s : State) : exec (.fullRateSweepDone stack sweeps) s = execFullRateSweepDone stack sweeps s := rfl
@[simp] theorem exec_poolZeroDone (bad : List Nat) (s : State) : exec (.poolZeroDone bad) s = execPoolZeroDone bad s := rfl
@[simp] theorem exec_longAccTestDone (pass : Bool) (s : State) : exec (.longAccTestDone pass) s = execLongAccTestDone pass s := rfl
@[simp] theorem exec_stepLimitExpiry (s : State) : exec .stepLimitExpiry s = execStepLimitExpiry s := rfl
@[simp] theorem exec_zenithPoisonFetch (addr : Nat) (s : State) : exec (.zenithPoisonFetch addr) s = execZenithPoisonFetch addr s := rfl
@[simp] theorem exec_zenithRestart (s : State) : exec .zenithRestart s = execZenithRestart s := rfl
@[simp] theorem exec_perstN (low : Bool) (s : State) : exec (.perstN low) s = execPerstN low s := rfl
@[simp] theorem exec_pcieConfigRequest (write : Bool) (off : Nat) (be : Nat) (value : Nat) (s : State) : exec (.pcieConfigRequest write off be value) s = execPcieConfigRequest write off be value s := rfl
@[simp] theorem exec_pcieMemoryRequest (write : Bool) (poisoned : Bool) (addr : Nat) (size : Nat) (value : Word) (s : State) : exec (.pcieMemoryRequest write poisoned addr size value) s = execPcieMemoryRequest write poisoned addr size value s := rfl
@[simp] theorem exec_pcieFlr (s : State) : exec .pcieFlr s = execPcieFlr s := rfl
@[simp] theorem exec_pcieHotReset (s : State) : exec .pcieHotReset s = execPcieHotReset s := rfl
@[simp] theorem exec_pcieD3hot (enter : Bool) (s : State) : exec (.pcieD3hot enter) s = execPcieD3hot enter s := rfl
@[simp] theorem exec_pmeTurnOff (s : State) : exec .pmeTurnOff s = execPmeTurnOff s := rfl
@[simp] theorem exec_gpioFilterExpiry (pin : Fin 8) (high : Bool) (s : State) : exec (.gpioFilterExpiry pin high) s = execGpioFilterExpiry pin high s := rfl
@[simp] theorem exec_pmbusPage (x : SmbXfer) (s : State) : exec (.pmbusPage x) s = execPmbusPage x s := rfl
@[simp] theorem exec_pmbusClearFaults (x : SmbXfer) (s : State) : exec (.pmbusClearFaults x) s = execPmbusClearFaults x s := rfl
@[simp] theorem exec_pmbusCapability (x : SmbXfer) (s : State) : exec (.pmbusCapability x) s = execPmbusCapability x s := rfl
@[simp] theorem exec_pmbusVoutMode (x : SmbXfer) (s : State) : exec (.pmbusVoutMode x) s = execPmbusVoutMode x s := rfl
@[simp] theorem exec_pmbusStatusByte (x : SmbXfer) (s : State) : exec (.pmbusStatusByte x) s = execPmbusStatusByte x s := rfl
@[simp] theorem exec_pmbusStatusWord (x : SmbXfer) (s : State) : exec (.pmbusStatusWord x) s = execPmbusStatusWord x s := rfl
@[simp] theorem exec_pmbusStatusVout (x : SmbXfer) (s : State) : exec (.pmbusStatusVout x) s = execPmbusStatusVout x s := rfl
@[simp] theorem exec_pmbusStatusIout (x : SmbXfer) (s : State) : exec (.pmbusStatusIout x) s = execPmbusStatusIout x s := rfl
@[simp] theorem exec_pmbusStatusInput (x : SmbXfer) (s : State) : exec (.pmbusStatusInput x) s = execPmbusStatusInput x s := rfl
@[simp] theorem exec_pmbusStatusTemperature (x : SmbXfer) (s : State) : exec (.pmbusStatusTemperature x) s = execPmbusStatusTemperature x s := rfl
@[simp] theorem exec_pmbusStatusCml (x : SmbXfer) (s : State) : exec (.pmbusStatusCml x) s = execPmbusStatusCml x s := rfl
@[simp] theorem exec_pmbusReadVin (x : SmbXfer) (s : State) : exec (.pmbusReadVin x) s = execPmbusReadVin x s := rfl
@[simp] theorem exec_pmbusReadIin (x : SmbXfer) (s : State) : exec (.pmbusReadIin x) s = execPmbusReadIin x s := rfl
@[simp] theorem exec_pmbusReadPin (x : SmbXfer) (s : State) : exec (.pmbusReadPin x) s = execPmbusReadPin x s := rfl
@[simp] theorem exec_pmbusReadVout (x : SmbXfer) (s : State) : exec (.pmbusReadVout x) s = execPmbusReadVout x s := rfl
@[simp] theorem exec_pmbusReadIout (x : SmbXfer) (s : State) : exec (.pmbusReadIout x) s = execPmbusReadIout x s := rfl
@[simp] theorem exec_pmbusReadPout (x : SmbXfer) (s : State) : exec (.pmbusReadPout x) s = execPmbusReadPout x s := rfl
@[simp] theorem exec_pmbusReadTemperature1 (x : SmbXfer) (s : State) : exec (.pmbusReadTemperature1 x) s = execPmbusReadTemperature1 x s := rfl
@[simp] theorem exec_pmbusRevision (x : SmbXfer) (s : State) : exec (.pmbusRevision x) s = execPmbusRevision x s := rfl
@[simp] theorem exec_pmbusMfrId (x : SmbXfer) (s : State) : exec (.pmbusMfrId x) s = execPmbusMfrId x s := rfl
@[simp] theorem exec_pmbusMfrModel (x : SmbXfer) (s : State) : exec (.pmbusMfrModel x) s = execPmbusMfrModel x s := rfl
@[simp] theorem exec_pmbusMfrSerial (x : SmbXfer) (s : State) : exec (.pmbusMfrSerial x) s = execPmbusMfrSerial x s := rfl
@[simp] theorem exec_pmbusMfrSysState (x : SmbXfer) (s : State) : exec (.pmbusMfrSysState x) s = execPmbusMfrSysState x s := rfl
@[simp] theorem exec_pmbusMfrSysDie (x : SmbXfer) (s : State) : exec (.pmbusMfrSysDie x) s = execPmbusMfrSysDie x s := rfl
@[simp] theorem exec_pmbusMfrTemp (x : SmbXfer) (s : State) : exec (.pmbusMfrTemp x) s = execPmbusMfrTemp x s := rfl
@[simp] theorem exec_pmbusMfrFeed (x : SmbXfer) (s : State) : exec (.pmbusMfrFeed x) s = execPmbusMfrFeed x s := rfl
@[simp] theorem exec_pmbusInvalidCommand (code : Nat) (s : State) : exec (.pmbusInvalidCommand code) s = execPmbusInvalidCommand code s := rfl
@[simp] theorem exec_smbusAlertResponse (s : State) : exec .smbusAlertResponse s = execSmbusAlertResponse s := rfl
@[simp] theorem exec_smbusTimeout (s : State) : exec .smbusTimeout s = execSmbusTimeout s := rfl
@[simp] theorem exec_jtagIdcode (tdi : Nat) (s : State) : exec (.jtagIdcode tdi) s = execJtagIdcode tdi s := rfl
@[simp] theorem exec_jtagSamplePreload (tdi : Nat) (s : State) : exec (.jtagSamplePreload tdi) s = execJtagSamplePreload tdi s := rfl
@[simp] theorem exec_jtagExtest (tdi : Nat) (s : State) : exec (.jtagExtest tdi) s = execJtagExtest tdi s := rfl
@[simp] theorem exec_jtagExtestPulse (tdi : Nat) (s : State) : exec (.jtagExtestPulse tdi) s = execJtagExtestPulse tdi s := rfl
@[simp] theorem exec_jtagExtestTrain (tdi : Nat) (s : State) : exec (.jtagExtestTrain tdi) s = execJtagExtestTrain tdi s := rfl
@[simp] theorem exec_jtagHighz (tdi : Nat) (s : State) : exec (.jtagHighz tdi) s = execJtagHighz tdi s := rfl
@[simp] theorem exec_jtagClamp (tdi : Nat) (s : State) : exec (.jtagClamp tdi) s = execJtagClamp tdi s := rfl
@[simp] theorem exec_jtagDbgChallenge (tdi : Nat) (s : State) : exec (.jtagDbgChallenge tdi) s = execJtagDbgChallenge tdi s := rfl
@[simp] theorem exec_jtagDbgUnlock (tdi : Nat) (s : State) : exec (.jtagDbgUnlock tdi) s = execJtagDbgUnlock tdi s := rfl
@[simp] theorem exec_jtagDbgStatus (tdi : Nat) (s : State) : exec (.jtagDbgStatus tdi) s = execJtagDbgStatus tdi s := rfl
@[simp] theorem exec_jtagBypass (tdi : Nat) (s : State) : exec (.jtagBypass tdi) s = execJtagBypass tdi s := rfl
@[simp] theorem exec_tapReset (s : State) : exec .tapReset s = execTapReset s := rfl
@[simp] theorem exec_debugUnlockDone (s : State) : exec .debugUnlockDone s = execDebugUnlockDone s := rfl
@[simp] theorem exec_mirrorAcknowledgement (digest : Word) (s : State) : exec (.mirrorAcknowledgement digest) s = execMirrorAcknowledgement digest s := rfl
@[simp] theorem exec_pairJoinTimeout (s : State) : exec .pairJoinTimeout s = execPairJoinTimeout s := rfl
@[simp] theorem exec_pseudoChannelRetrainEnd (slice : Fin 32) (pc : Fin 16) (sweeps : List Sweep) (s : State) : exec (.pseudoChannelRetrainEnd slice pc sweeps) s = execPseudoChannelRetrainEnd slice pc sweeps s := rfl
@[simp] theorem exec_selfTestEnd (m : Fin 16) (outcome : TestOutcome) (s : State) : exec (.selfTestEnd m outcome) s = execSelfTestEnd m outcome s := rfl
@[simp] theorem exec_thermtripRelease (s : State) : exec .thermtripRelease s = execThermtripRelease s := rfl
@[simp] theorem exec_modulatorsAtTemperature (engine : Fin 12) (s : State) : exec (.modulatorsAtTemperature engine) s = execModulatorsAtTemperature engine s := rfl

end Sys2Proof.Machine
end

