-- ==== Sys2Proof/Laws/KMap.lean ====
section
/-!
SUPPORT. Laws of the tables: what a look-up finds after a change, and that every change keeps the canonical form.
-/
namespace Sys2Proof.Machine
open Sys2Proof

/-- The canonical form, as two facts about the list. -/
theorem KMap.wf_iff {α : Type} [DecidableEq α] (m : KMap α) (d : α) :
    KMap.wf m d = true ↔ List.Pairwise (fun a b : Nat × α => a.1 < b.1) m ∧ ∀ p ∈ m, p.2 ≠ d := by
  induction m with
  | nil => simp [KMap.wf]
  | cons q r ih =>
    obtain ⟨k, v⟩ := q
    have step : KMap.wf ((k, v) :: r) d = true ↔ v ≠ d ∧ (∀ q ∈ r.head?, k < q.1) ∧ KMap.wf r d = true := by
      cases r with
      | nil => simp [KMap.wf]
      | cons q' r' => simp [KMap.wf, and_assoc]
    rw [step, ih, List.pairwise_cons]
    constructor
    · rintro ⟨hv, hh, hs, hd⟩
      refine ⟨⟨fun p hp => ?_, hs⟩, fun p hp => ?_⟩
      · cases r with
        | nil => simp at hp
        | cons q' r' =>
          have h1 : k < q'.1 := hh q' (by simp)
          rcases List.mem_cons.1 hp with rfl | hp
          · exact h1
          · exact Nat.lt_trans h1 ((List.pairwise_cons.1 hs).1 p hp)
      · rcases List.mem_cons.1 hp with rfl | hp
        · exact hv
        · exact hd p hp
    · rintro ⟨⟨hk, hs⟩, hd⟩
      exact ⟨hd (k, v) (by simp), fun q hq => hk q (List.mem_of_mem_head? hq), hs, fun p hp => hd p (by simp [hp])⟩

theorem KMap.wf_nil {α : Type} [DecidableEq α] (d : α) : KMap.wf ([] : KMap α) d = true := rfl

/-- Filtering keeps the canonical form. -/
theorem KMap.wf_filter {α : Type} [DecidableEq α] {m : KMap α} {d : α} (f : Nat × α → Bool) (h : KMap.wf m d = true) :
    KMap.wf (m.filter f) d = true := by
  rw [KMap.wf_iff] at *
  exact ⟨h.1.filter f, fun p hp => h.2 p (List.mem_filter.1 hp).1⟩

/-- Removing an index is filtering it out. -/
theorem KMap.erase_eq_filter {α : Type} (m : KMap α) (k : Nat) : KMap.erase m k = m.filter (fun p => p.1 != k) := by
  induction m with
  | nil => rfl
  | cons q r ih =>
    obtain ⟨k', v⟩ := q
    by_cases h : k' = k <;> simp [KMap.erase, h, ih]

theorem KMap.wf_erase {α : Type} [DecidableEq α] {m : KMap α} {d : α} (k : Nat) (h : KMap.wf m d = true) :
    KMap.wf (KMap.erase m k) d = true := by
  rw [KMap.erase_eq_filter]
  exact KMap.wf_filter _ h

/-- What an insertion can leave in the list. -/
theorem KMap.mem_ins {α : Type} {m : KMap α} {k : Nat} {v : α} {p : Nat × α} (h : p ∈ KMap.ins m k v) : p = (k, v) ∨ p ∈ m := by
  induction m with
  | nil => simpa [KMap.ins] using h
  | cons q r ih =>
    obtain ⟨k', v'⟩ := q
    simp only [KMap.ins] at h
    split at h
    · simpa using h
    · split at h
      · rcases List.mem_cons.1 h with rfl | h
        · exact .inl rfl
        · exact .inr (List.mem_cons_of_mem _ h)
      · rcases List.mem_cons.1 h with rfl | h
        · exact .inr (by simp)
        · exact (ih h).imp id (List.mem_cons_of_mem _)

theorem KMap.wf_ins {α : Type} [DecidableEq α] {m : KMap α} {d v : α} (k : Nat) (hv : v ≠ d) (h : KMap.wf m d = true) :
    KMap.wf (KMap.ins m k v) d = true := by
  rw [KMap.wf_iff] at *
  refine ⟨?_, fun p hp => ?_⟩
  · replace h := h.1
    induction m with
    | nil => simp [KMap.ins]
    | cons q r ih =>
      obtain ⟨k', v'⟩ := q
      have hr := List.pairwise_cons.1 h
      simp only [KMap.ins]
      split
      · refine List.pairwise_cons.2 ⟨fun p hp => ?_, h⟩
        rcases List.mem_cons.1 hp with rfl | hp
        · assumption
        · exact Nat.lt_trans ‹k < k'› (hr.1 p hp)
      · split
        · subst k
          exact List.pairwise_cons.2 ⟨hr.1, hr.2⟩
        · refine List.pairwise_cons.2 ⟨fun p hp => ?_, ih hr.2⟩
          rcases KMap.mem_ins hp with rfl | hp
          · change k' < k
            omega
          · exact hr.1 p hp
  · rcases KMap.mem_ins hp with rfl | hp
    · exact hv
    · exact h.2 p hp

theorem KMap.wf_setD {α : Type} [DecidableEq α] {m : KMap α} {d : α} (k : Nat) (v : α) (h : KMap.wf m d = true) :
    KMap.wf (KMap.setD m k v d) d = true := by
  unfold KMap.setD
  split
  · exact KMap.wf_erase k h
  · exact KMap.wf_ins k ‹_› h

/-! ### Look-ups -/

theorem KMap.find?_ins_self {α : Type} (m : KMap α) (k : Nat) (v : α) : KMap.find? (KMap.ins m k v) k = some v := by
  induction m with
  | nil => simp [KMap.ins, KMap.find?]
  | cons q r ih =>
    obtain ⟨k', v'⟩ := q
    simp only [KMap.ins]
    split
    · simp [KMap.find?]
    · split
      · simp [KMap.find?]
      · simp only [KMap.find?]
        rw [if_neg (by omega), ih]

theorem KMap.find?_ins_of_ne {α : Type} (m : KMap α) {k j : Nat} (v : α) (h : j ≠ k) : KMap.find? (KMap.ins m k v) j = KMap.find? m j := by
  induction m with
  | nil => simp [KMap.ins, KMap.find?, Ne.symm h]
  | cons q r ih =>
    obtain ⟨k', v'⟩ := q
    simp only [KMap.ins]
    split
    · simp [KMap.find?, Ne.symm h]
    · split
      · subst k
        simp [KMap.find?, Ne.symm h]
      · simp only [KMap.find?, ih]

theorem KMap.find?_erase_self {α : Type} (m : KMap α) (k : Nat) : KMap.find? (KMap.erase m k) k = none := by
  induction m with
  | nil => rfl
  | cons q r ih =>
    obtain ⟨k', v'⟩ := q
    by_cases h : k' = k <;> simp [KMap.erase, KMap.find?, h, ih]

theorem KMap.find?_erase_of_ne {α : Type} (m : KMap α) {k j : Nat} (h : j ≠ k) : KMap.find? (KMap.erase m k) j = KMap.find? m j := by
  induction m with
  | nil => rfl
  | cons q r ih =>
    obtain ⟨k', v'⟩ := q
    by_cases h' : k' = k
    · subst h'
      simp [KMap.erase, KMap.find?, Ne.symm h, ih]
    · simp [KMap.erase, KMap.find?, h', ih]

/-- Look-ups after a change in a table with a default. -/
theorem KMap.getD_setD {α : Type} [DecidableEq α] (m : KMap α) (k j : Nat) (v d : α) :
    KMap.getD (KMap.setD m k v d) j d = if j = k then v else KMap.getD m j d := by
  unfold KMap.setD
  by_cases hv : v = d <;> by_cases hj : j = k <;>
    simp [hv, hj, KMap.getD, KMap.find?_erase_self, KMap.find?_erase_of_ne, KMap.find?_ins_self, KMap.find?_ins_of_ne]

theorem KMap.get_set {α : Type} [DecidableEq α] [Inhabited α] (m : KMap α) (k j : Nat) (v : α) :
    KMap.get (KMap.set m k v) j = if j = k then v else KMap.get m j := KMap.getD_setD m k j v default

@[simp] theorem KMap.get_set_self {α : Type} [DecidableEq α] [Inhabited α] (m : KMap α) (k : Nat) (v : α) : KMap.get (KMap.set m k v) k = v := by
  simp [KMap.get_set]

end Sys2Proof.Machine
end

