-- ==== Sys2Proof/Laws/Pool.lean ====
section
/-!
SUPPORT. Laws of pool memory: a read after a write, and that every operation on the pool keeps its canonical form.
-/
namespace Sys2Proof.Machine
open Sys2Proof

theorem Memory.read_write (m : List Host.Cell) (a b : Nat) (x : Byte) :
    Memory.read (Memory.write m a x) b = if b = a then x else Memory.read m b := KMap.getD_setD m a b x 0#8

theorem Memory.wf_write {m : List Host.Cell} (a : Nat) (x : Byte) (h : Memory.wf m = true) : Memory.wf (Memory.write m a x) = true :=
  KMap.wf_setD a x h

theorem Memory.wf_writeBytes {m : List Host.Cell} (a : Nat) (bs : List Byte) (h : Memory.wf m = true) :
    Memory.wf (Memory.writeBytes m a bs) = true := by
  induction bs generalizing m a with
  | nil => exact h
  | cons b r ih => exact ih (a + 1) (Memory.wf_write a b h)

/-- Bytes outside the written range read as before. -/
theorem Memory.read_writeBytes_of_outside (m : List Host.Cell) (a : Nat) (bs : List Byte) {b : Nat} (h : b < a ∨ a + bs.length ≤ b) :
    Memory.read (Memory.writeBytes m a bs) b = Memory.read m b := by
  induction bs generalizing m a with
  | nil => rfl
  | cons x r ih =>
    simp only [List.length_cons] at h
    rw [Memory.writeBytes, ih _ _ (by omega), Memory.read_write, if_neg (by omega)]

/-- A byte of the written range reads as written. -/
theorem Memory.read_writeBytes_of_inside (m : List Host.Cell) (a : Nat) (bs : List Byte) {i : Nat} (h : i < bs.length) :
    Memory.read (Memory.writeBytes m a bs) (a + i) = bs[i] := by
  induction bs generalizing m a i with
  | nil => simp at h
  | cons x r ih =>
    cases i with
    | zero => rw [Memory.writeBytes, Memory.read_writeBytes_of_outside _ _ _ (by omega), Memory.read_write]; simp
    | succ j =>
      have := ih (Memory.write m a x) (a + 1) (i := j) (by simpa using h)
      rw [Memory.writeBytes, List.getElem_cons_succ, ← this]
      congr 1
      omega

/-- Memory after a change of the pool keeps its form. -/
theorem Pool.setPoison_mem (p : Pool) (w : Nat) (b : Bool) : (p.setPoison w b).mem = p.mem := rfl
theorem Pool.clearErr_mem (p : Pool) (w : Nat) : (p.clearErr w).mem = p.mem := rfl
theorem Pool.wf_writeBytes {p : Pool} (a : Nat) (bs : List Byte) (h : Memory.wf p.mem = true) :
    Memory.wf (p.writeBytes a bs).mem = true := Memory.wf_writeBytes a bs h
theorem Pool.wf_wipe {p : Pool} (a b : Nat) (h : Memory.wf p.mem = true) : Memory.wf (p.wipe a b).mem = true := KMap.wf_filter _ h
theorem Pool.wf_poisonGranules {p : Pool} (g n : Nat) (h : Memory.wf p.mem = true) : Memory.wf (p.poisonGranules g n).mem = true :=
  Pool.wf_wipe _ _ h

/-- Setting poison over a list of words leaves the bytes. -/
theorem Pool.foldl_setPoison_mem (l : List Nat) (f : Nat → Nat) (g : Nat → Bool) (p : Pool) :
    (l.foldl (fun q i => q.setPoison (f i) (g i)) p).mem = p.mem := by
  induction l generalizing p with
  | nil => rfl
  | cons x r ih => rw [List.foldl_cons, ih]; rfl

theorem Memory.wf_foldl_ins (l : List Host.Cell) (f : Nat → Nat) (hl : ∀ c ∈ l, c.2 ≠ 0#8) {m : List Host.Cell} (h : Memory.wf m = true) :
    Memory.wf (l.foldl (fun m c => KMap.ins m (f c.1) c.2) m) = true := by
  induction l generalizing m with
  | nil => exact h
  | cons c r ih =>
    exact ih (fun c' hc => hl c' (List.mem_cons_of_mem _ hc)) (KMap.wf_ins _ (hl c (by simp)) h)

theorem Pool.wf_copy {p : Pool} (a b n : Nat) (h : Memory.wf p.mem = true) : Memory.wf (p.copy a b n).mem = true := by
  unfold Pool.copy
  rw [Pool.foldl_setPoison_mem]
  refine Memory.wf_foldl_ins _ (fun x => x - a + b) (fun c hc => ?_) (KMap.wf_filter _ h)
  exact ((KMap.wf_iff _ _).1 h).2 c (List.mem_filter.1 hc).1

end Sys2Proof.Machine
end

