-- ==== Sys2Proof/Safety.lean ====
section
/-!
DEFINITION. The words of the statements: pool memory in its canonical form, what every effect leaves of the rest of the state, and what it
means that a mailbox holds a request which its command may now serve.
-/
namespace Sys2Proof.Machine
open Sys2Proof

/-- Pool memory lists its bytes in rising order and lists no zero byte. -/
def PoolCanonical (s : State) : Prop := Memory.wf s.pool.mem = true

/-- From `s` to `t` the queue of waiting commands is the same, and pool memory keeps its canonical form. -/
def Keeps (s t : State) : Prop := t.pending = s.pending ∧ (PoolCanonical s → PoolCanonical t)

/-- Mailbox `m` holds an accepted request of opcode `op` that nothing holds back (R14), well formed (R524), with part 0 asked for (R525), and
with the parameters `vals`. -/
abbrev Asks (s : State) (m op : Nat) (params : List Param) (query : Bool) (vals : List Nat) : Prop :=
  mayRun s.hw m op = true ∧ checkRequest s.hw m params query = (none, vals) ∧ (s.hw.mailbox m).part = 0

/-- The request as the command sees it. -/
def theRequest (s : State) (m : Nat) (vals : List Nat) : Req :=
  { m := m, ringer := if (s.hw.mailbox m).pcie then none else some (s.hw.mailbox m).ringer, part := 0, vals := vals }

/-- Mailbox `m`'s command changed the module by `f` and answered `r`. -/
def served (s : State) (m : Nat) (f : Hw → Hw) (r : Reply := Reply.ok) : State := s.onHw fun h => answer (f h) m r

/-- Link `n` heard flit `f`, and its elastic buffer handed it on (R397, R424). -/
def handedOn (h : Hw) (n : Nat) (f : List Byte) : Hw := (elastic (modLink h n fun l => { l with rx := heard l f }) n).2

/-- It counted `k` codewords of the flit that forward error correction corrected (R420, R451). -/
def corrected (h : Hw) (n : Nat) (f : List Byte) (k : Nat) : Hw :=
  modLink (handedOn h n f) n fun l => { l with counts := KMap.mod l.counts 1 (fun x => satAdd 32 x k) }

/-- Link `n` took the control word `c` of an IDLE or CTRL flit that its CRC confirms (R434). -/
def controlTaken (h : Hw) (n : Nat) (f : List Byte) (k : Nat) (c : LinkControl) : Hw :=
  takeControl (modLink (corrected h n f k) n fun l => { l with rx := { l.rx with failRun := 0 } }) n c

/-- Link `n` took from a TS block the polarity of its lane and what the partner says of itself (R443). -/
def partnerSeen (h : Hw) (n : Nat) (t : TsBlock) : Hw :=
  modLink (h.setLane (4 * n + t.lane) { h.lane (4 * n + t.lane) with rxInvert := t.inverted }) n fun l =>
    { l with partner := t.node, tr := { l.tr with rates := t.rates, wmax := t.wmax, precode := t.precode } }

/-- The module has taken message `p` out of its inbox. -/
def taken (s : State) (p : Packet) : State := s.onHw fun h => takeInbox h p

/-- Tile, and line number, of the address of message `p` at its home. -/
def homeTile (p : Packet) : Nat := tileOf (fpaOffset (Packet.addr p))
def homeLine (p : Packet) : Nat := fpaOffset (Packet.addr p) / 128

/-- Request `p` of opcode `op` is for this module, breaks no rule of its fields (`bad`), is no repeat, comes from a live agent, and passes the
check of its region (R30), which gives the module `h` and where the bytes lie. -/
abbrev Admitted (bad : Packet → Bool) (s : State) (op : Nat) (p : Packet) (region kind loc slot shard : Nat) (h : Hw) : Prop :=
  p.opcode = op ∧ isOwn s.hw p.dst = true ∧ bad p = false ∧ (addressFault (taken s p).hw p).isNone = true ∧
    isDead (taken s p).hw p.src = false ∧ heldByTakeover (taken s p).hw p = false ∧
    (replayed (taken s p).hw (homeTile p) p).isNone = true ∧ (filtered p.opcode && !filterRoom (taken s p).hw (homeTile p)) = false ∧
    locate (taken s p).hw p.src p.dst (fpaOffset (Packet.addr p)) (rightOf op) = (.ok region kind loc slot shard, h)

/-- The state with the module `h`, in which an admitted request stands in the replay filter (R482) and has its serial number. -/
def entered (s : State) (p : Packet) (h : Hw) : State :=
  { s with hw := (nextSerial (filterAdd (forgetEnded h (homeTile p) p) (homeTile p) p)).2 }
def enteredSerial (p : Packet) (h : Hw) : Nat := (nextSerial (filterAdd (forgetEnded h (homeTile p) p) (homeTile p) p)).1

/-- Answer `p` of opcode `op` is for this module, well formed, and matches the open transaction `x` in slot `k` of slice `t` (R123). -/
abbrev Awaited (s : State) (op : Nat) (p : Packet) (t k : Nat) (x : Txn) : Prop :=
  p.opcode = op ∧ isOwn s.hw p.dst = true ∧ badAnswer p = false ∧ matched (taken s p).hw p = some (t, k, x)

/-- The module has taken answer `p` for slot `k` of slice `t`, and told its standby so (R137). -/
def noted (s : State) (p : Packet) (t k : Nat) : State := (taken s p).onHw fun h => emit h (mirrorHead h) (.message t k p)

/-- The state `g` after the answer `p`: rebuilds that waited for a slot of its slice go on (R378), and the standby learns what changed. -/
def answerSettled (s : State) (p : Packet) (g : State) : State := mirrored s (retryRebuilds (homeTile p) g)

/-- The answer of the home to the message `p`. -/
def homeReply (h : Hw) (op : Nat) (p : Packet) (pz : Bool) (data : List Byte) : Packet :=
  cohPacket h op p.sclass p.dst p.src p.tid (Packet.addr p) 0 0 pz false data

/-- A tile's request `o` has the answer `a`: it no longer waits, and the answer is kept for the tile. -/
def answered (h : Hw) (p : Packet) (o : Out) (a : Answer) : Hw :=
  { takeInbox h p with outs := KMap.erase (takeInbox h p).outs p.tid, answers := KMap.ins (takeInbox h p).answers o.serial a }

/-- A pseudo-channel after the slot that serves the last burst of its only request `r`, chosen by step 3 (R338, R340). -/
def lastBurst (p : PseudoChannel) (r : McsReq) (pdIdle : Nat) : PseudoChannel :=
  let served := { burstTo p r.bank r.row with
    queue := [], writing := r.write, batch := if r.write then (if p.writing then p.batch else 0) + 1 else 0
    since := (List.range 4).map (fun c => if c == r.sclass then 0 else p.since.getD c 0 + 1) }
  { idleBank (slotPasses served (slotNs p)) r.bank with pdIdle := pdIdle }

/-- Commands that may change pool memory, its poison or its stored-bit errors on some path. -/
def touchesMemory : Instr → Bool
  | .atomic .. | .brd .. | .bulkHeldReleased .. | .bwr .. | .chunkCommit .. | .chunkStart .. | .cmpAck .. | .colInstanceDone ..
  | .colSegmentDone .. | .cowCopyDone .. | .dataOnceAtHome .. | .debugUnlockDone .. | .descComplete .. | .descFetch .. | .dfencePoll ..
  | .directoryScanEnd .. | .dramReadDecode .. | .evict .. | .faultSlotFreed .. | .fullRateSweepDone .. | .holdWake .. | .homeTimeout ..
  | .mcsSlotIssue .. | .memPpr .. | .memRemap .. | .mirrorRecord .. | .overflowRequestServed .. | .poolZeroDone .. | .preTranslationWalk ..
  | .probeData .. | .probeRsp .. | .pseudoChannelRetrainEnd .. | .pwrState .. | .rdOnce .. | .rdOwn .. | .rdShared .. | .regionWipeDone ..
  | .selfTestEnd .. | .snapSwitch .. | .snpData .. | .snprspFwd .. | .snprspI .. | .snprspWbif .. | .stepLimitExpiry .. | .takeover ..
  | .takeoverWriteHoldEnd .. | .upgrade .. | .wbData .. | .wrLine .. | .wrPart .. | .xltSync .. => true
  | _ => false

end Sys2Proof.Machine
end

