-- ==== Sys2Proof/Laws/Keeps.lean ====
section
/-!
SUPPORT. What the shared operations leave of the rest: the queue of commands is the same and pool memory keeps its canonical form.
Each lemma says so of one operation on a state that already stands so to an earlier one; a chain of operations is a chain of lemmas.
-/
namespace Sys2Proof.Machine
open Sys2Proof

theorem Keeps.refl (s : State) : Keeps s s := ⟨rfl, id⟩

theorem Keeps.trans {r s t : State} (h : Keeps r s) (g : Keeps s t) : Keeps r t := ⟨g.1.trans h.1, fun x => g.2 (h.2 x)⟩

theorem Keeps.onHw {s t : State} (f : Hw → Hw) (h : Keeps s t) : Keeps s (t.onHw f) := h

theorem Keeps.setHw {s t : State} {x : Hw} (h : Keeps s t) : Keeps s { t with hw := x } := h

theorem Keeps.ite {s t u : State} {c : Prop} [Decidable c] (h : Keeps s t) (g : Keeps s u) : Keeps s (if c then t else u) := by
  split
  · exact h
  · exact g

theorem Keeps.setPoison {s t : State} (w : Nat) (b : Bool) (h : Keeps s t) : Keeps s (t.onPool fun p => p.setPoison w b) := h

theorem Keeps.clearErr {s t : State} (w : Nat) (h : Keeps s t) : Keeps s (t.onPool fun p => p.clearErr w) := h

theorem Keeps.writeBytes {s t : State} (a : Nat) (bs : List Byte) (h : Keeps s t) : Keeps s (t.onPool fun p => p.writeBytes a bs) :=
  ⟨h.1, fun x => Pool.wf_writeBytes _ _ (h.2 x)⟩

theorem Keeps.writeWord {s t : State} (a : Nat) (bs : List Byte) (w : Nat) (b : Bool) (h : Keeps s t) :
    Keeps s (t.onPool fun p => (p.writeBytes a bs).setPoison w b) := Keeps.writeBytes a bs h

theorem Keeps.foldl {α : Type} {s : State} (l : List α) (f : State → α → State) (hf : ∀ t a, Keeps s t → Keeps s (f t a)) {t : State}
    (h : Keeps s t) : Keeps s (l.foldl f t) := by
  induction l generalizing t with
  | nil => exact h
  | cons x r ih => exact ih (hf t x h)

theorem Keeps.foldlSnd {α β : Type} {s : State} (l : List α) (f : β × State → α → β × State)
    (hf : ∀ t a, Keeps s t.2 → Keeps s (f t a).2) {t : β × State} (h : Keeps s t.2) : Keeps s (l.foldl f t).2 := by
  induction l generalizing t with
  | nil => exact h
  | cons x r ih => exact ih (hf t x h)

theorem Keeps.copy {s t : State} (a b n : Nat) (h : Keeps s t) : Keeps s (t.onPool fun p => p.copy a b n) :=
  ⟨h.1, fun x => Pool.wf_copy _ _ _ (h.2 x)⟩

theorem Keeps.wipe {s t : State} (a b : Nat) (h : Keeps s t) : Keeps s (t.onPool fun p => p.wipe a b) :=
  ⟨h.1, fun x => Pool.wf_wipe _ _ (h.2 x)⟩

theorem Keeps.poisonGranules {s t : State} (g n : Nat) (h : Keeps s t) : Keeps s (t.onPool fun p => p.poisonGranules g n) :=
  ⟨h.1, fun x => Pool.wf_poisonGranules _ _ (h.2 x)⟩

theorem Keeps.setPool {s t : State} {p : Pool} (hp : Memory.wf t.pool.mem = true → Memory.wf p.mem = true) (h : Keeps s t) :
    Keeps s { t with pool := p } := ⟨h.1, fun x => hp (h.2 x)⟩

theorem Keeps.emptyPool {s t : State} (h : Keeps s t) : Keeps s { t with pool := {} } := Keeps.setPool (fun _ => rfl) h

theorem Keeps.wholeWord {s t : State} (w a : Nat) (bs : List Byte) (pz : Bool) (h : Keeps s t) :
    Keeps s (t.onPool fun p => let p := p.clearErr w; if pz then p.setPoison w true else (p.writeBytes a bs).setPoison w false) := by
  cases pz
  · exact Keeps.writeBytes a bs h
  · exact h

theorem Keeps.poisonWord {s t : State} (w : Nat) (h : Keeps s t) : Keeps s (t.onPool fun p => (p.clearErr w).setPoison w true) := h

theorem runCommand_keeps {r s : State} (m op : Nat) (params : List Param) (query : Bool) (body : Req → State → State × Option Reply)
    (hb : ∀ q t, Keeps r t → Keeps r (body q t).1) (h : Keeps r s) : Keeps r (runCommand s m op params query body) := by
  unfold runCommand; dsimp only
  split
  · split
    · exact h
    · split
      · exact hb _ _ h
      · split <;> exact Keeps.onHw _ (hb _ _ h)
  · exact h

theorem runHw_keeps {r s : State} (m op : Nat) (params : List Param) (query : Bool) (body : Req → Hw → Hw × Option Reply)
    (h : Keeps r s) : Keeps r (runHw s m op params query body) :=
  runCommand_keeps m op params query _ (fun _ _ h => h) h

theorem busyFirst_keeps {r s : State} (m op : Nat) (params : List Param) (why : Nat) (taken : List Nat → Hw → Bool)
    (body : Req → Hw → Hw × Option Reply) (h : Keeps r s) :
    Keeps r (busyFirst s m op params why taken body) := by
  unfold busyFirst; try dsimp only
  repeat' first
    | with_reducible exact h
    | with_reducible apply runHw_keeps
    | with_reducible apply Keeps.onHw
    | split

theorem countEcc_keeps {r s : State} (w i : Nat) (h : Keeps r s) : Keeps r (countEcc s w i) := by
  unfold countEcc; try dsimp only
  repeat' first
    | with_reducible exact h
    | with_reducible apply Keeps.onHw

theorem writeBack_keeps {r s : State} (w : Nat) (h : Keeps r s) : Keeps r (writeBack s w) := by
  unfold writeBack; try dsimp only
  repeat' first
    | with_reducible exact h
    | with_reducible apply Keeps.onHw

theorem mergeOver_keeps {r s : State} (w detail : Nat) (h : Keeps r s) : Keeps r (mergeOver s w detail) := by
  unfold mergeOver; try dsimp only
  repeat' first
    | with_reducible exact h
    | with_reducible apply Keeps.onHw

theorem decodeRead_keeps {r s : State} (w err : Nat) (kind : ReadKind) (h : Keeps r s) : Keeps r (decodeRead s w err kind).1 := by
  unfold decodeRead; try dsimp only
  repeat' first
    | with_reducible exact h
    | with_reducible apply countEcc_keeps
    | with_reducible apply writeBack_keeps
    | with_reducible apply mergeOver_keeps
    | with_reducible apply Keeps.clearErr
    | with_reducible apply Keeps.writeWord
    | with_reducible apply Keeps.setPoison
    | with_reducible apply Keeps.onHw
    | split

theorem meetWord_keeps {r s : State} (w : Nat) (kind : ReadKind) (h : Keeps r s) : Keeps r (meetWord s w kind).1 := by
  unfold meetWord; try dsimp only
  repeat' first
    | with_reducible exact h
    | with_reducible apply mergeOver_keeps
    | with_reducible apply countEcc_keeps
    | with_reducible apply decodeRead_keeps
    | split

theorem copyRead_keeps {r s : State} (w : Nat) (h : Keeps r s) : Keeps r (copyRead s w) := by
  unfold copyRead; try dsimp only
  repeat' first
    | with_reducible exact h
    | with_reducible apply meetWord_keeps

theorem remapInto_keeps {r s : State} (t k bank row i sp : Nat) (auto : Bool) (h : Keeps r s) :
    Keeps r (remapInto s t k bank row i sp auto) := by
  unfold remapInto; try dsimp only
  repeat' first
    | with_reducible assumption
    | with_reducible apply copyRead_keeps
    | with_reducible apply Keeps.onHw
    | (with_reducible refine Keeps.foldl _ _ (fun _ _ _ => ?_) ?_) <;> try dsimp only

theorem autoRemap_keeps {r s : State} (t k bank row : Nat) (h : Keeps r s) : Keeps r (autoRemap s t k bank row) := by
  unfold autoRemap; try dsimp only
  repeat' first
    | with_reducible exact h
    | with_reducible apply remapInto_keeps
    | with_reducible apply Keeps.onHw
    | split

theorem trackRow_keeps {r s : State} (w : Nat) (uncorrectable : Bool) (h : Keeps r s) : Keeps r (trackRow s w uncorrectable) := by
  unfold trackRow; try dsimp only
  repeat' first
    | with_reducible exact h
    | with_reducible apply autoRemap_keeps
    | with_reducible apply Keeps.onHw
    | split

theorem tracked_keeps {r : State} (x : State × Option Bool) (w : Nat) (h : Keeps r x.1) : Keeps r (tracked x w) := by
  unfold tracked; try dsimp only
  split
  · exact trackRow_keeps _ _ h
  · exact h

theorem dramRead_keeps {r s : State} (w err : Nat) (h : Keeps r s) : Keeps r (dramRead s w err) := by
  unfold dramRead; try dsimp only
  repeat' first
    | with_reducible exact h
    | with_reducible apply decodeRead_keeps
    | with_reducible apply tracked_keeps

theorem readStored_keeps {r s : State} (w : Nat) (kind : ReadKind) (h : Keeps r s) : Keeps r (readStored s w kind) := by
  unfold readStored; try dsimp only
  repeat' first
    | with_reducible exact h
    | with_reducible apply meetWord_keeps
    | with_reducible apply tracked_keeps

theorem freeRow_keeps {r s : State} (t k bank row : Nat) (h : Keeps r s) : Keeps r (freeRow s t k bank row) := by
  unfold freeRow; try dsimp only
  repeat' first
    | with_reducible assumption
    | with_reducible apply copyRead_keeps
    | with_reducible apply Keeps.onHw
    | (with_reducible refine Keeps.foldl _ _ (fun _ _ _ => ?_) ?_) <;> try dsimp only

theorem memRemap_keeps (q : Req) {r s : State} (h : Keeps r s) : Keeps r (memRemap q s).1 := by
  unfold memRemap; try dsimp only
  repeat' first
    | with_reducible exact h
    | with_reducible apply remapInto_keeps
    | with_reducible apply freeRow_keeps
    | split

theorem memPpr_keeps (q : Req) {r s : State} (h : Keeps r s) : Keeps r (memPpr q s).1 := by
  unfold memPpr; try dsimp only
  repeat' first
    | with_reducible apply freeRow_keeps
    | with_reducible apply Keeps.onHw
    | with_reducible exact Keeps.setHw h
    | split

theorem mergeWord_keeps {r s : State} (w : Nat) (bs : List (Nat × Byte)) (pz : Bool) (h : Keeps r s) : Keeps r (mergeWord s w bs pz) := by
  unfold mergeWord; try dsimp only
  repeat' first
    | with_reducible assumption
    | with_reducible apply readStored_keeps
    | with_reducible apply Keeps.setPoison
    | with_reducible apply Keeps.writeBytes
    | with_reducible apply Keeps.onHw
    | (with_reducible refine Keeps.foldl _ _ (fun _ _ _ => ?_) ?_) <;> try dsimp only
    | split

theorem wholeWord_keeps {r s : State} (w : Nat) (bs : List Byte) (pz : Bool) (h : Keeps r s) : Keeps r (wholeWord s w bs pz) := by
  unfold wholeWord; try dsimp only
  repeat' first
    | with_reducible exact h
    | with_reducible apply Keeps.wholeWord

theorem storeWord_keeps {r s : State} (w off : Nat) (bs : List Byte) (pz : Bool) (h : Keeps r s) : Keeps r (storeWord s w off bs pz) := by
  unfold storeWord; try dsimp only
  repeat' first
    | with_reducible exact h
    | with_reducible apply mergeWord_keeps
    | with_reducible apply wholeWord_keeps
    | split

theorem storeFlagged_keeps {r s : State} (home : Bool) (sclass a : Nat) (bs : List Byte) (pz : Nat → Bool) (h : Keeps r s) :
    Keeps r (storeFlagged s home sclass a bs pz) := by
  unfold storeFlagged; try dsimp only
  repeat' first
    | with_reducible assumption
    | with_reducible apply storeWord_keeps
    | with_reducible apply Keeps.onHw
    | (with_reducible refine Keeps.foldl _ _ (fun _ _ _ => ?_) ?_) <;> try dsimp only

theorem store_keeps {r s : State} (home : Bool) (sclass a : Nat) (bs : List Byte) (pz : Bool) (h : Keeps r s) :
    Keeps r (store s home sclass a bs pz) := by
  unfold store; try dsimp only
  repeat' first
    | with_reducible exact h
    | with_reducible apply storeFlagged_keeps

theorem storeMasked_keeps {r s : State} (w mask : Nat) (bs : List Byte) (pz : Bool) (h : Keeps r s) :
    Keeps r (storeMasked s w mask bs pz) := by
  unfold storeMasked; try dsimp only
  repeat' first
    | with_reducible exact h
    | with_reducible apply mergeWord_keeps
    | with_reducible apply wholeWord_keeps
    | split

theorem storePart_keeps {r s : State} (sclass a mask : Nat) (bs : List Byte) (pz : Bool) (h : Keeps r s) :
    Keeps r (storePart s sclass a mask bs pz) := by
  unfold storePart; try dsimp only
  repeat' first
    | with_reducible assumption
    | with_reducible apply storeMasked_keeps
    | with_reducible apply Keeps.onHw
    | (with_reducible refine Keeps.foldl _ _ (fun _ _ _ => ?_) ?_) <;> try dsimp only

theorem loadWord_keeps {r s : State} (w : Nat) (h : Keeps r s) : Keeps r (loadWord s w).2.2 := by
  unfold loadWord; try dsimp only
  repeat' first
    | exact Keeps.setHw (readStored_keeps _ _ h)
    | split

theorem loadWords_keeps (n : Nat) {r s : State} (w : Nat) (h : Keeps r s) : Keeps r (loadWords n s w).2 := by
  induction n generalizing s w with
  | zero => exact h
  | succ n ih => exact ih (w + 1) (loadWord_keeps w h)

theorem loadFlagged_keeps {r s : State} (sclass a n : Nat) (h : Keeps r s) : Keeps r (loadFlagged s sclass a n).2.2 := by
  unfold loadFlagged; try dsimp only
  repeat' first
    | with_reducible exact h
    | with_reducible apply loadWords_keeps
    | with_reducible apply Keeps.onHw

theorem load_keeps {r s : State} (sclass a n : Nat) (h : Keeps r s) : Keeps r (load s sclass a n).2.2 := by
  unfold load; try dsimp only
  repeat' first
    | with_reducible exact h
    | with_reducible apply loadFlagged_keeps

theorem atomicAt_keeps {r s : State} (sclass a : Nat) (body : List Byte) (h : Keeps r s) : Keeps r (atomicAt s sclass a body).2.2 := by
  unfold atomicAt; try dsimp only
  repeat' first
    | with_reducible assumption
    | with_reducible apply readStored_keeps
    | with_reducible apply Keeps.writeBytes
    | with_reducible apply Keeps.onHw
    | (with_reducible refine Keeps.foldl _ _ (fun _ _ _ => ?_) ?_) <;> try dsimp only
    | split

theorem poisonNow_keeps {r s : State} (line : Nat) (h : Keeps r s) : Keeps r (poisonNow s line) := by
  unfold poisonNow; try dsimp only
  repeat' first
    | with_reducible assumption
    | with_reducible apply Keeps.poisonWord
    | with_reducible apply Keeps.onHw
    | (with_reducible refine Keeps.foldl _ _ (fun _ _ _ => ?_) ?_) <;> try dsimp only

theorem mirrored_keeps (a : State) {r b : State} (h : Keeps r b) : Keeps r (mirrored a b) := by
  unfold mirrored
  split
  · exact Keeps.onHw _ h
  · exact h

theorem mirrorLines_keeps {r s : State} (region a n : Nat) (h : Keeps r s) : Keeps r (mirrorLines s region a n) := by
  unfold mirrorLines; try dsimp only
  repeat' first
    | with_reducible exact h
    | with_reducible apply Keeps.onHw
    | split

end Sys2Proof.Machine
end

