-- ==== Sys2Proof/Laws/KeepsHome.lean ====
section
/-!
SUPPORT. The same of the home: coherence and bulk requests, tile accesses, table walks and faults.
-/
namespace Sys2Proof.Machine
open Sys2Proof

theorem park_keeps {r s : State} (x : Parked) (h : Keeps r s) : Keeps r (park s x) := by
  unfold park; try dsimp only
  repeat' first
    | with_reducible exact h
    | with_reducible apply Keeps.onHw

theorem performNow_keeps {r0 s : State} (t : Nat) (r : LineReq) (h : Keeps r0 s) : Keeps r0 (performNow s t r) := by
  unfold performNow; try dsimp only
  repeat' first
    | with_reducible exact h
    | with_reducible apply storeFlagged_keeps
    | with_reducible apply store_keeps
    | with_reducible apply storePart_keeps
    | with_reducible apply loadFlagged_keeps
    | with_reducible apply load_keeps
    | with_reducible apply atomicAt_keeps
    | with_reducible apply mirrorLines_keeps
    | with_reducible apply Keeps.onHw
    | split

theorem perform_keeps {r0 s : State} (t : Nat) (r : LineReq) (h : Keeps r0 s) : Keeps r0 (perform s t r) := by
  unfold perform; try dsimp only
  repeat' first
    | with_reducible exact h
    | with_reducible apply park_keeps
    | with_reducible apply performNow_keeps
    | with_reducible apply Keeps.onHw
    | split

theorem poisonLine_keeps {r s : State} (line : Nat) (h : Keeps r s) : Keeps r (poisonLine s line) := by
  unfold poisonLine; try dsimp only
  repeat' first
    | with_reducible exact h
    | with_reducible apply poisonNow_keeps
    | with_reducible apply park_keeps
    | split

theorem grantNow_keeps {r0 s : State} (t : Nat) (r : LineReq) (slot op : Nat) (h : Keeps r0 s) : Keeps r0 (grantNow s t r slot op) := by
  unfold grantNow; try dsimp only
  repeat' first
    | with_reducible exact h
    | with_reducible apply load_keeps
    | with_reducible apply Keeps.onHw
    | split

theorem grantLine_keeps {r0 s : State} (t : Nat) (r : LineReq) (slot : Nat) (op : Nat) (e : DirEntry) (h : Keeps r0 s) :
    Keeps r0 (grantLine s t r slot op e) := by
  unfold grantLine; try dsimp only
  repeat' first
    | with_reducible exact h
    | with_reducible apply park_keeps
    | with_reducible apply grantNow_keeps
    | with_reducible apply Keeps.onHw
    | split

theorem recallLine_keeps {r s : State} (t line region : Nat) (victim : Bool) (h : Keeps r s) :
    Keeps r (recallLine s t line region victim) := by
  unfold recallLine; try dsimp only
  repeat' first
    | with_reducible apply poisonLine_keeps
    | with_reducible apply Keeps.onHw
    | with_reducible exact Keeps.setHw h
    | split

theorem recallVictim_keeps {r s : State} (t line : Nat) (h : Keeps r s) : Keeps r (recallVictim s t line) := by
  unfold recallVictim; try dsimp only
  repeat' first
    | with_reducible exact h
    | with_reducible apply recallLine_keeps
    | split

theorem serveU_keeps {r0 s : State} (t : Nat) (r : LineReq) (slot : Option Nat) (h : Keeps r0 s) : Keeps r0 (serveU s t r slot).1 := by
  unfold serveU; try dsimp only
  repeat' first
    | with_reducible apply perform_keeps
    | with_reducible apply grantLine_keeps
    | with_reducible apply Keeps.onHw
    | with_reducible exact Keeps.setHw (recallVictim_keeps _ _ h)
    | with_reducible exact Keeps.setHw h
    | split

theorem openSnoop_keeps {r0 s : State} (t : Nat) (r : LineReq) (x : Txn) (op : Nat) (l : List Nat) (h : Keeps r0 s) :
    Keeps r0 (openSnoop s t r x op l).1 := by
  unfold openSnoop; try dsimp only
  repeat' first
    | with_reducible exact Keeps.setHw h
    | split

theorem afterSharers_keeps {r0 s : State} (t : Nat) (r : LineReq) (slot : Option Nat) (wasSharer : Bool) (h : Keeps r0 s) :
    Keeps r0 (afterSharers s t r slot wasSharer).1 := by
  unfold afterSharers; try dsimp only
  repeat' first
    | with_reducible apply grantLine_keeps
    | with_reducible apply serveU_keeps
    | with_reducible exact Keeps.setHw h
    | split

theorem startLine_keeps {r0 s : State} (t : Nat) (r : LineReq) (h : Keeps r0 s) : Keeps r0 (startLine s t r).1 := by
  unfold startLine; try dsimp only
  repeat' first
    | with_reducible exact h
    | with_reducible apply perform_keeps
    | with_reducible apply poisonLine_keeps
    | with_reducible apply grantLine_keeps
    | with_reducible apply serveU_keeps
    | with_reducible apply openSnoop_keeps
    | with_reducible apply afterSharers_keeps
    | with_reducible apply Keeps.onHw
    | with_reducible exact Keeps.setHw (Keeps.onHw _ h)
    | split

theorem startLine_keeps_of {s : State} {t : Nat} {r : LineReq} {r0 : State} {u : State} {v1 : Bool} (e0 : startLine s t r = (u, v1))
    (h : Keeps r0 s) :
    Keeps r0 u := by
  have := startLine_keeps t r h
  rw [e0] at this; exact this

theorem pumpBulk_keeps (n : Nat) {r s : State} (id : Nat) (h : Keeps r s) : Keeps r (pumpBulk n s id) := by
  induction n generalizing s with
  | zero => exact h
  | succ n ih =>
    unfold pumpBulk
    repeat' first
      | with_reducible apply ih
      | with_reducible apply perform_keeps
      | (with_reducible apply startLine_keeps_of; assumption)
      | with_reducible apply Keeps.onHw
      | with_reducible exact Keeps.setHw h
      | split

theorem beginBulk_keeps {r s : State} (id : Nat) (b : BulkOp) (h : Keeps r s) : Keeps r (beginBulk s id b) := by
  unfold beginBulk; try dsimp only
  repeat' first
    | with_reducible exact h
    | with_reducible apply pumpBulk_keeps
    | with_reducible apply Keeps.onHw

theorem resumeServed_keeps {r s : State} (v : Serves) (h : Keeps r s) : Keeps r (resumeServed s v) := by
  unfold resumeServed; try dsimp only
  repeat' first
    | with_reducible exact h
    | with_reducible apply pumpBulk_keeps
    | split

theorem serveMessage_keeps {r0 s : State} (t : Nat) (r : LineReq) (p : Packet) (h : Keeps r0 s) : Keeps r0 (serveMessage s t r p).1 := by
  unfold serveMessage; try dsimp only
  repeat' first
    | with_reducible exact h
    | with_reducible apply startLine_keeps
    | with_reducible apply Keeps.onHw
    | split

theorem serveMessage_keeps_of {s : State} {t : Nat} {r : LineReq} {p : Packet} {r0 : State} {u : State} {v1 : Bool}
    (e0 : serveMessage s t r p = (u, v1)) (h : Keeps r0 s) :
    Keeps r0 u := by
  have := serveMessage_keeps t r p h
  rw [e0] at this; exact this

theorem coherentRequest_keeps {r0 s : State} (t : Nat) (r : LineReq) (p : Packet) (h : Keeps r0 s) :
    Keeps r0 (coherentRequest s t r p) := by
  unfold coherentRequest; try dsimp only
  repeat' first
    | with_reducible exact h
    | (with_reducible apply serveMessage_keeps_of; assumption)
    | with_reducible apply Keeps.onHw
    | split

theorem plainRequest_keeps {r0 s : State} (t : Nat) (r : LineReq) (p : Packet) (h : Keeps r0 s) : Keeps r0 (plainRequest s t r p) := by
  unfold plainRequest; try dsimp only
  repeat' first
    | with_reducible exact h
    | with_reducible apply perform_keeps
    | with_reducible apply Keeps.onHw
    | split

theorem requestArrives_keeps (op : Nat) (p : Packet) {r s : State} (h : Keeps r s) : Keeps r (requestArrives op p s) := by
  unfold requestArrives; try dsimp only
  repeat' first
    | with_reducible exact h
    | with_reducible apply park_keeps
    | with_reducible apply coherentRequest_keeps
    | with_reducible apply plainRequest_keeps
    | with_reducible apply Keeps.onHw
    | with_reducible exact Keeps.setHw (Keeps.onHw _ h)
    | split

theorem serveOverflow_keeps (t : Nat) (l m : List Waiting) {r s : State} (h : Keeps r s) : Keeps r (serveOverflow t m l s) := by
  induction l generalizing s m with
  | nil => exact h
  | cons w l ih =>
    unfold serveOverflow; dsimp only
    split
    · exact ih _ h
    · split
      · exact Keeps.onHw _ (serveMessage_keeps_of (by assumption) h)
      · exact ih _ (serveMessage_keeps_of (by assumption) h)

theorem ownerGone_keeps {r s : State} (t k : Nat) (x : Txn) (h : Keeps r s) : Keeps r (ownerGone s t k x) := by
  unfold ownerGone; try dsimp only
  repeat' first
    | with_reducible exact h
    | with_reducible apply serveU_keeps
    | with_reducible apply resumeServed_keeps
    | with_reducible apply Keeps.onHw
    | split

theorem sharersGone_keeps {r s : State} (t k : Nat) (x : Txn) (h : Keeps r s) : Keeps r (sharersGone s t k x) := by
  unfold sharersGone; try dsimp only
  repeat' first
    | with_reducible exact h
    | with_reducible apply afterSharers_keeps
    | with_reducible apply resumeServed_keeps
    | with_reducible apply Keeps.onHw
    | split

theorem sharerAnswer_keeps {r s : State} (t k : Nat) (x : Txn) (n : Nat) (h : Keeps r s) : Keeps r (sharerAnswer s t k x n) := by
  unfold sharerAnswer; try dsimp only
  repeat' first
    | with_reducible exact h
    | with_reducible apply sharersGone_keeps
    | with_reducible apply Keeps.onHw
    | split

theorem takeSnprspI_keeps (p : Packet) {r s : State} (h : Keeps r s) : Keeps r (takeSnprspI p s) := by
  unfold takeSnprspI; try dsimp only
  repeat' first
    | with_reducible exact h
    | with_reducible apply ownerGone_keeps
    | with_reducible apply sharerAnswer_keeps
    | with_reducible apply Keeps.onHw
    | split

theorem forwardTaken_keeps {r s : State} (t k : Nat) (x : Txn) (h : Keeps r s) : Keeps r (forwardTaken s t k x) := by
  unfold forwardTaken; try dsimp only
  repeat' first
    | with_reducible exact h
    | with_reducible apply Keeps.onHw
    | split

theorem bulkFromOwner_keeps {r s : State} (t k : Nat) (x : Txn) (d : List Byte) (pz : Bool) (h : Keeps r s) :
    Keeps r (bulkFromOwner s t k x d pz) := by
  unfold bulkFromOwner; try dsimp only
  repeat' first
    | with_reducible exact h
    | with_reducible apply resumeServed_keeps
    | with_reducible apply Keeps.onHw
    | split

theorem takeSnprspFwd_keeps (p : Packet) {r s : State} (h : Keeps r s) : Keeps r (takeSnprspFwd p s) := by
  unfold takeSnprspFwd; try dsimp only
  repeat' first
    | with_reducible exact h
    | with_reducible apply forwardTaken_keeps
    | with_reducible apply bulkFromOwner_keeps
    | with_reducible apply Keeps.onHw
    | split

theorem takeDataOnce_keeps (p : Packet) {r s : State} (h : Keeps r s) : Keeps r (takeDataOnce p s) := by
  unfold takeDataOnce; try dsimp only
  repeat' first
    | with_reducible exact h
    | with_reducible apply bulkFromOwner_keeps
    | with_reducible apply Keeps.onHw
    | split

theorem takeSnprspWbif_keeps (p : Packet) {r s : State} (h : Keeps r s) : Keeps r (takeSnprspWbif p s) := by
  unfold takeSnprspWbif; try dsimp only
  repeat' first
    | with_reducible exact h
    | with_reducible apply ownerGone_keeps
    | with_reducible apply sharerAnswer_keeps
    | with_reducible apply Keeps.onHw
    | split

theorem buryHolder_keeps (n t line : Nat) (e : DirEntry) {r s : State} (h : Keeps r s) : Keeps r (buryHolder n t line e s) := by
  unfold buryHolder; try dsimp only
  repeat' first
    | with_reducible exact h
    | with_reducible apply poisonLine_keeps
    | with_reducible apply Keeps.onHw
    | split

theorem endGrant_keeps {r s : State} (t k : Nat) (x : Txn) (outcome : Nat) (h : Keeps r s) : Keeps r (endGrant s t k x outcome) := by
  unfold endGrant; try dsimp only
  repeat' first
    | with_reducible exact h
    | with_reducible apply buryHolder_keeps
    | with_reducible apply Keeps.onHw
    | split

theorem takeCmpAck_keeps (p : Packet) {r s : State} (h : Keeps r s) : Keeps r (takeCmpAck p s) := by
  unfold takeCmpAck; try dsimp only
  repeat' first
    | with_reducible exact h
    | with_reducible apply endGrant_keeps
    | with_reducible apply Keeps.onHw
    | split

theorem storeNow_keeps {r s : State} (region loc : Nat) (p : Packet) (ack : Bool) (h : Keeps r s) :
    Keeps r (storeNow s region loc p ack) := by
  unfold storeNow; try dsimp only
  repeat' first
    | with_reducible exact h
    | with_reducible apply store_keeps
    | with_reducible apply mirrorLines_keeps
    | with_reducible apply Keeps.onHw
    | split

theorem storeLine_keeps {r s : State} (region loc : Nat) (p : Packet) (ack : Bool) (h : Keeps r s) :
    Keeps r (storeLine s region loc p ack) := by
  unfold storeLine; try dsimp only
  repeat' first
    | with_reducible exact h
    | with_reducible apply park_keeps
    | with_reducible apply storeNow_keeps
    | split

theorem takeSnpData_keeps (p : Packet) {r s : State} (h : Keeps r s) : Keeps r (takeSnpData p s) := by
  unfold takeSnpData; try dsimp only
  repeat' first
    | with_reducible exact h
    | with_reducible apply ownerGone_keeps
    | with_reducible apply forwardTaken_keeps
    | with_reducible apply storeLine_keeps
    | with_reducible apply Keeps.onHw
    | split

theorem plainWriteBack_keeps (p : Packet) {r s : State} (h : Keeps r s) : Keeps r (plainWriteBack p s) := by
  unfold plainWriteBack; try dsimp only
  repeat' first
    | with_reducible apply park_keeps
    | with_reducible apply storeLine_keeps
    | with_reducible apply Keeps.onHw
    | with_reducible exact Keeps.setHw h
    | split

theorem takeWbData_keeps (p : Packet) {r s : State} (h : Keeps r s) : Keeps r (takeWbData p s) := by
  unfold takeWbData; try dsimp only
  repeat' first
    | with_reducible apply ownerGone_keeps
    | with_reducible apply storeLine_keeps
    | with_reducible apply plainWriteBack_keeps
    | with_reducible apply Keeps.onHw
    | with_reducible exact Keeps.setHw h
    | split

theorem settleRequester_keeps {r s : State} (t k : Nat) (x : Txn) (h : Keeps r s) : Keeps r (settleRequester s t k x) := by
  unfold settleRequester; try dsimp only
  repeat' first
    | with_reducible exact h
    | with_reducible apply resumeServed_keeps
    | (with_reducible apply serveMessage_keeps_of; assumption)
    | with_reducible apply Keeps.onHw
    | split

theorem rebuildLine_keeps {r s : State} (t k : Nat) (x : Txn) (waited : Bool) (h : Keeps r s) : Keeps r (rebuildLine s t k x waited) := by
  unfold rebuildLine; try dsimp only
  repeat' first
    | with_reducible exact h
    | with_reducible apply poisonLine_keeps
    | with_reducible apply storeLine_keeps
    | with_reducible apply settleRequester_keeps
    | with_reducible apply Keeps.onHw
    | split

theorem settleProbed_keeps (p : Packet) {r s : State} (h : Keeps r s) : Keeps r (settleProbed p s) := by
  unfold settleProbed; try dsimp only
  repeat' first
    | with_reducible exact h
    | with_reducible apply rebuildLine_keeps
    | split

theorem takeProbeRsp_keeps (p : Packet) {r s : State} (h : Keeps r s) : Keeps r (takeProbeRsp p s) := by
  unfold takeProbeRsp; try dsimp only
  repeat' first
    | with_reducible exact h
    | with_reducible apply rebuildLine_keeps
    | with_reducible apply Keeps.onHw
    | split

theorem takeProbeData_keeps (p : Packet) {r s : State} (h : Keeps r s) : Keeps r (takeProbeData p s) := by
  unfold takeProbeData; try dsimp only
  repeat' first
    | with_reducible exact h
    | with_reducible apply rebuildLine_keeps
    | with_reducible apply Keeps.onHw
    | split

theorem homeTimedOut_keeps (t k : Nat) {r s : State} (h : Keeps r s) : Keeps r (homeTimedOut t k s) := by
  unfold homeTimedOut; try dsimp only
  repeat' first
    | with_reducible exact h
    | with_reducible apply poisonLine_keeps
    | with_reducible apply ownerGone_keeps
    | with_reducible apply sharersGone_keeps
    | with_reducible apply endGrant_keeps
    | with_reducible apply rebuildLine_keeps
    | with_reducible apply Keeps.onHw
    | split

theorem startRebuild_keeps {r s : State} (line : Nat) (h : Keeps r s) : Keeps r (startRebuild s line) := by
  unfold startRebuild; try dsimp only
  repeat' first
    | with_reducible apply rebuildLine_keeps
    | with_reducible apply Keeps.onHw
    | with_reducible exact Keeps.setHw h
    | split

theorem rebuildEntry_keeps {r s : State} (line : Nat) (h : Keeps r s) : Keeps r (rebuildEntry s line) := by
  unfold rebuildEntry; try dsimp only
  repeat' first
    | with_reducible exact h
    | with_reducible apply startRebuild_keeps
    | with_reducible apply Keeps.onHw
    | split

theorem retryRebuilds_keeps (t : Nat) {r s : State} (h : Keeps r s) : Keeps r (retryRebuilds t s) := by
  unfold retryRebuilds; try dsimp only
  repeat' first
    | with_reducible assumption
    | with_reducible apply startRebuild_keeps
    | (with_reducible refine Keeps.foldl _ _ (fun _ _ _ => ?_) ?_) <;> try dsimp only

theorem answerArrives_keeps {r s : State} (op : Nat) (p : Packet) (f : State → State) (hf : ∀ t, Keeps r t → Keeps r (f t)) (h : Keeps r s) :
    Keeps r (answerArrives op p f s) := by
  unfold answerArrives
  repeat' first
    | with_reducible exact h
    | with_reducible apply retryRebuilds_keeps
    | with_reducible apply hf
    | with_reducible apply Keeps.onHw
    | split

theorem bulkBegins_keeps (t : Nat) (p : Packet) (region kind slot loc : Nat) (pend : Bool) {r s : State} (h : Keeps r s) :
    Keeps r (bulkBegins t p region kind slot loc pend s) := by
  unfold bulkBegins; try dsimp only
  repeat' first
    | with_reducible apply beginBulk_keeps
    | with_reducible exact Keeps.setHw h

theorem bulkArrives_keeps (op : Nat) (p : Packet) {r s : State} (h : Keeps r s) : Keeps r (bulkArrives op p s) := by
  unfold bulkArrives; try dsimp only
  repeat' first
    | with_reducible exact h
    | with_reducible apply bulkBegins_keeps
    | with_reducible apply Keeps.onHw
    | with_reducible exact Keeps.setHw (Keeps.onHw _ h)
    | split

theorem releaseBulk_keeps (t : Nat) {r s : State} (h : Keeps r s) : Keeps r (releaseBulk t s) := by
  unfold releaseBulk; try dsimp only
  repeat' first
    | with_reducible assumption
    | with_reducible apply pumpBulk_keeps
    | (with_reducible refine Keeps.foldl _ _ (fun _ _ _ => ?_) ?_) <;> try dsimp only

theorem localAccess_keeps {r s : State} (op sclass a n : Nat) (grants : List (Nat × Nat)) (data : List Byte) (pz : List Bool)
    (notify : Option Nat) (h : Keeps r s) :
    Keeps r (localAccess s op sclass a n grants data pz notify).2 := by
  unfold localAccess; try dsimp only
  repeat' first
    | with_reducible apply beginBulk_keeps
    | with_reducible exact Keeps.setHw h
    | split

theorem access_keeps {r s : State} (t queue src : Nat) (op sclass fpa n : Nat) (grants : List (Nat × Nat)) (data : List Byte)
    (pz : List Bool) (fence : Bool) (h : Keeps r s) :
    Keeps r (access s t queue src op sclass fpa n grants data pz fence).2 := by
  unfold access; try dsimp only
  repeat' first
    | with_reducible apply localAccess_keeps
    | with_reducible exact Keeps.setHw h
    | split

theorem readParts_keeps {r s : State} (t queue src sclass fpa n : Nat) (grants : List (Nat × Nat)) (h : Keeps r s) :
    Keeps r (readParts s t queue src sclass fpa n grants).2 := by
  unfold readParts; try dsimp only
  repeat' first
    | with_reducible assumption
    | with_reducible apply access_keeps
    | (with_reducible refine Keeps.foldlSnd _ _ (fun _ _ _ => ?_) ?_) <;> try dsimp only

theorem writeParts_keeps {r s : State} (t queue src sclass fpa : Nat) (grants : List (Nat × Nat)) (data : List Byte) (pz : List Bool)
    (fence : Bool) (h : Keeps r s) :
    Keeps r (writeParts s t queue src sclass fpa grants data pz fence).2 := by
  unfold writeParts; try dsimp only
  repeat' first
    | with_reducible assumption
    | with_reducible apply access_keeps
    | (with_reducible refine Keeps.foldlSnd _ _ (fun _ _ _ => ?_) ?_) <;> try dsimp only

theorem ownWrite_keeps {r s : State} (fpa : Nat) (bs : List Byte) (h : Keeps r s) : Keeps r (ownWrite s fpa bs) := by
  unfold ownWrite; try dsimp only
  repeat' first
    | with_reducible apply beginBulk_keeps
    | with_reducible exact Keeps.setHw h

theorem notify_keeps {r s : State} (t c v : Nat) (h : Keeps r s) : Keeps r (notify s t c v) := by
  unfold notify; try dsimp only
  repeat' first
    | with_reducible apply localAccess_keeps
    | with_reducible apply Keeps.onHw
    | with_reducible exact Keeps.setHw h
    | split

theorem recordFault_keeps {r s : State} (t c id : Nat) (w : Waiter) (f : FaultInfo) (h : Keeps r s) :
    Keeps r (recordFault s t c id w f) := by
  unfold recordFault; try dsimp only
  repeat' first
    | with_reducible exact h
    | with_reducible apply ownWrite_keeps
    | with_reducible apply notify_keeps
    | with_reducible apply Keeps.onHw

theorem registerFault_keeps {r s : State} (c : Nat) (w : Waiter) (f : FaultInfo) (h : Keeps r s) : Keeps r (registerFault s c w f).2 := by
  unfold registerFault; try dsimp only
  repeat' first
    | with_reducible exact h
    | with_reducible apply recordFault_keeps
    | with_reducible apply Keeps.onHw
    | split

theorem registerFault_keeps_of {s : State} {c : Nat} {w : Waiter} {f : FaultInfo} {r : State} {v0 : Option (Nat × Nat)} {u : State}
    (e0 : registerFault s c w f = (v0, u)) (h : Keeps r s) :
    Keeps r u := by
  have := registerFault_keeps c w f h
  rw [e0] at this; exact this

theorem readEntry_keeps (t ctx level fpa : Nat) {r : State} {w : Walker} (h : Keeps r w.s) : Keeps r (readEntry t ctx level fpa w).2.s := by
  unfold readEntry; dsimp only
  repeat' first
    | with_reducible apply localAccess_keeps
    | with_reducible apply load_keeps
    | with_reducible apply Keeps.onHw
    | with_reducible exact Keeps.setHw h
    | split

theorem readEntry_keeps_of {t ctx level fpa : Nat} {r : State} {w u : Walker} {x : TableRead} (e0 : readEntry t ctx level fpa w = (x, u))
    (h : Keeps r w.s) : Keeps r u.s := by
  have := readEntry_keeps t ctx level fpa h
  rw [e0] at this; exact this

theorem walkFrom_keeps (t ctx va n fpa : Nat) (rights : Bool × Bool × Bool) {r : State} {w : Walker} (h : Keeps r w.s) :
    Keeps r (walkFrom t ctx va n fpa rights w).2.s := by
  induction n generalizing fpa rights w with
  | zero => exact h
  | succ n ih =>
    unfold walkFrom; dsimp only
    repeat' first
      | with_reducible apply ih
      | split
    all_goals repeat' first
      | with_reducible exact h
      | (with_reducible apply readEntry_keeps_of; assumption)

theorem walk_keeps (t ctx va : Nat) {r : State} {w : Walker} (h : Keeps r w.s) : Keeps r (walk t ctx va w).2.s := by
  unfold walk
  repeat' first
    | with_reducible exact h
    | with_reducible apply walkFrom_keeps
    | split

theorem walk_keeps_of {t ctx va : Nat} {r : State} {w u : Walker} {x : WalkResult} (e0 : walk t ctx va w = (x, u))
    (h : Keeps r w.s) : Keeps r u.s := by
  have := walk_keeps t ctx va h
  rw [e0] at this; exact this

theorem translate_keeps (t ctx va acc : Nat) (anew : Bool) {r : State} {w : Walker} (h : Keeps r w.s) :
    Keeps r (translate t ctx va acc anew w).2.s := by
  unfold translate
  split
  · exact Keeps.onHw _ h
  · split
    · exact Keeps.onHw _ (walk_keeps_of (by assumption) h)
    · exact walk_keeps t ctx va h

theorem translate_keeps_of {t ctx va acc : Nat} {anew : Bool} {r : State} {w u : Walker} {x : WalkResult}
    (e0 : translate t ctx va acc anew w = (x, u)) (h : Keeps r w.s) : Keeps r u.s := by
  have := translate_keeps t ctx va acc anew h
  rw [e0] at this; exact this

end Sys2Proof.Machine
end

