-- ==== Sys2Proof/Laws/KeepsWork.lean ====
section
/-!
SUPPORT. The same of what goes on by itself: descriptors, collectives, snapshots, regions, bring-up, contexts and the pair.
-/
namespace Sys2Proof.Machine
open Sys2Proof

theorem slotIssued_keeps (t k : Nat) {r s : State} (h : Keeps r s) : Keeps r (slotIssued t k s) := by
  unfold slotIssued; try dsimp only
  repeat' first
    | with_reducible apply Keeps.wipe
    | with_reducible exact Keeps.setHw h
    | split

theorem faultRun_keeps (env : RunEnv) (r : Run) (p : Piece) (f : FaultInfo) {r0 s : State} (h : Keeps r0 s) :
    Keeps r0 (faultRun env r p f s).2 := by
  unfold faultRun; try dsimp only
  repeat' first
    | with_reducible exact h
    | with_reducible apply registerFault_keeps
    | split

theorem takeLoc_keeps (env : RunEnv) (acc : Nat) (l : Option Loc) {r : State} {w : Walker} (h : Keeps r w.s) :
    Keeps r (takeLoc env acc l w).2.s := by
  unfold takeLoc
  repeat' first
    | with_reducible exact h
    | (with_reducible apply translate_keeps_of; assumption)
    | split

theorem takeLoc_keeps_of {env : RunEnv} {acc : Nat} {l : Option Loc} {r : State} {w u : Walker} {x : Taken} (e0 : takeLoc env acc l w = (x, u))
    (h : Keeps r w.s) : Keeps r u.s := by
  have := takeLoc_keeps env acc l h
  rw [e0] at this; exact this

theorem takeSides_keeps (env : RunEnv) (n : Nat) (l : List Side) (got : List (Side × Nat)) (pages : List (Nat × Nat)) {r : State}
    {w : Walker} (h : Keeps r w.s) : Keeps r (takeSides env n l got pages w).2.2.s := by
  induction n generalizing l got pages w with
  | zero => exact h
  | succ n ih =>
    cases l with
    | nil => exact h
    | cons x l =>
      unfold takeSides
      split
      · exact ih _ _ _ (takeLoc_keeps_of (by assumption) h)
      · exact takeLoc_keeps_of (by assumption) h

theorem takeSides_keeps_of {env : RunEnv} {n : Nat} {l : List Side} {got fs : List (Side × Nat)} {pages : List (Nat × Nat)} {r : State}
    {w u : Walker} {x : Taken} (e0 : takeSides env n l got pages w = (x, fs, u)) (h : Keeps r w.s) : Keeps r u.s := by
  have := takeSides_keeps env n l got pages h
  rw [e0] at this; exact this

/-- Any answer to the checks at a chunk's start leaves the state as the walks left it, or registers a fault. -/
theorem chunkEnded_keeps (env : RunEnv) (q : Run) (p : Piece) {r : State} {w : Walker} (k : Nat) (t : Taken) (h : Keeps r w.s) :
    Keeps r ((match t with
        | .fault f => faultRun env q p f (w.s.onHw fun h => dropWalks h { q with walkReads := w.reads })
        | .poison => (q.fail stPoison k p, w.s.onHw fun h => dropWalks h { q with walkReads := w.reads })
        | _ => ({ q with walkReads := w.reads }, w.s)) : Run × State).2 := by
  split
  · exact faultRun_keeps _ _ _ _ (Keeps.onHw _ h)
  · exact Keeps.onHw _ h
  · exact h

theorem startRun_keeps (env : RunEnv) (q : Run) {r s : State} (h : Keeps r s) : Keeps r (startRun env q s).2 := by
  unfold startRun; dsimp only
  have hw : Keeps r ({ s := s, reads := q.walkReads, sclass := env.sclass } : Walker).s := h
  split
  case h_2 => exact h
  case h_1 p _ _ _ =>
  split
  · exact h
  split
  case h_2 e0 =>
    exact chunkEnded_keeps env q _ _ _ (takeLoc_keeps_of e0 hw)
  case h_1 e0 =>
  have h1 := takeLoc_keeps_of e0 hw
  split
  case h_2 e0 =>
    exact chunkEnded_keeps env q _ _ _ (takeLoc_keeps_of e0 h1)
  case h_1 e0 =>
  have h2 := takeLoc_keeps_of e0 h1
  split
  case h_2 e0 =>
    exact chunkEnded_keeps env q _ _ _ (takeSides_keeps_of e0 h2)
  case h_1 e0 =>
  have h3 := takeSides_keeps_of e0 h2
  repeat' first
    | with_reducible exact h3
    | with_reducible exact Keeps.setHw h3
    | with_reducible apply access_keeps
    | with_reducible apply readParts_keeps
    | split

theorem writeLoc_keeps (env : RunEnv) (l : Loc) (fpa : Nat) (gs : List (Nat × Nat)) (bs : List Byte) (pz : List Bool) {r s : State}
    (fence : Bool) (h : Keeps r s) :
    Keeps r (writeLoc env l fpa gs bs pz s fence).2 := by
  unfold writeLoc; try dsimp only
  repeat' first
    | with_reducible exact h
    | with_reducible apply writeParts_keeps
    | with_reducible apply Keeps.onHw
    | split

theorem commitRun_keeps (env : RunEnv) (r : Run) {r0 s : State} (h : Keeps r0 s) : Keeps r0 (commitRun env r s).2 := by
  unfold commitRun; try dsimp only
  repeat' first
    | with_reducible assumption
    | with_reducible apply writeLoc_keeps
    | with_reducible apply Keeps.onHw
    | (with_reducible refine Keeps.foldlSnd _ _ (fun _ _ _ => ?_) ?_) <;> try dsimp only
    | split

theorem reregister_keeps (env : RunEnv) (r : Run) (t : Nat) {r0 s : State} (h : Keeps r0 s) : Keeps r0 (reregister env r t s).2 := by
  unfold reregister; try dsimp only
  repeat' first
    | with_reducible exact h
    | (with_reducible apply registerFault_keeps_of; assumption)
    | split

theorem readSlot_keeps (id : Nat) (gs : List (Nat × Nat)) {r s : State} (h : Keeps r s) : Keeps r (readSlot id gs s) := by
  have key := readParts_keeps (s.hw.queue id).tile id (speaksAs s.hw (s.hw.queue id).service) 0
    ((s.hw.queue id).ring + 64 * ((s.hw.queue id).head % 2 ^ (s.hw.queue id).ringLog2)) 64 gs h
  unfold readSlot
  exact Keeps.onHw _ key

theorem fetch_keeps (id : Nat) {r s : State} (h : Keeps r s) : Keeps r (fetch id s) := by
  unfold fetch; extract_lets q a
  refine Keeps.ite h (Keeps.ite (Keeps.onHw _ h) (Keeps.ite h ?_))
  generalize permitRange _ _ _ _ _ _ = p
  obtain ⟨_ | _ | gs, h'⟩ := p
  · exact Keeps.setHw h
  · exact Keeps.setHw h
  · exact readSlot_keeps id gs (Keeps.setHw h)

theorem onRun_keeps (id i : Nat) (f : RunEnv → Run → State → Run × State) {r s : State} (hf : ∀ env q t, Keeps r t → Keeps r (f env q t).2)
    (h : Keeps r s) : Keeps r (onRun id i f s) := by
  unfold onRun
  split
  · exact h
  · exact Keeps.onHw _ (hf _ _ _ h)

theorem preWalk_keeps (id i : Nat) {r s : State} (h : Keeps r s) : Keeps r (preWalk id i s) := by
  unfold preWalk; dsimp only
  have hw (q : Exec) : Keeps r ({ s := s, reads := q.run.walkReads, sclass := q.sclass } : Walker).s := h
  split
  · exact h
  split
  · exact h
  split
  · exact h
  split
  · exact Keeps.onHw _ (walk_keeps_of (by assumption) (hw _))
  · split <;> exact Keeps.onHw _ (walk_keeps_of (by assumption) (hw _))
  · exact Keeps.onHw _ (walk_keeps_of (by assumption) (hw _))

theorem chunkStart_keeps (id i : Nat) {r s : State} (h : Keeps r s) : Keeps r (chunkStart id i s) := by
  unfold chunkStart; dsimp only
  split
  · split
    · exact Keeps.onHw _ (onRun_keeps id i _ (fun _ _ _ => startRun_keeps _ _) (Keeps.onHw _ h))
    · exact Keeps.onHw _ h
  · exact Keeps.onHw _ h

theorem chunkCommit_keeps (id i : Nat) (faults : List (List DotFault)) {r s : State} (h : Keeps r s) :
    Keeps r (chunkCommit id i faults s) := by
  unfold chunkCommit
  split
  · exact Keeps.onHw _ (onRun_keeps id i _ (fun _ _ _ => commitRun_keeps _ _) (Keeps.onHw _ h))
  · exact h

/-- A start and a commit of the pieces that a descriptor has. -/
theorem onRun_round_keeps (id i : Nat) {r s : State} (h : Keeps r s) : Keeps r (onRun id i commitRun (onRun id i startRun s)) :=
  onRun_keeps id i _ (fun _ _ _ => commitRun_keeps _ _) (onRun_keeps id i _ (fun _ _ _ => startRun_keeps _ _) h)

theorem finishRecord_keeps (id i : Nat) (e : Exec) {r s : State} (h : Keeps r s) : Keeps r (finishRecord id i e s) := by
  unfold finishRecord; dsimp only
  have h1 := onRun_round_keeps id i (onRun_round_keeps id i h)
  split
  · exact h1
  · split
    · exact Keeps.onHw _ h1
    · split
      · exact Keeps.onHw _ h1
      · exact h1

theorem completeDesc_keeps (id i : Nat) {r s : State} (h : Keeps r s) : Keeps r (completeDesc id i s) := by
  unfold completeDesc; try dsimp only
  repeat' first
    | with_reducible exact h
    | with_reducible apply finishRecord_keeps
    | with_reducible apply Keeps.onHw
    | split

theorem fencePoll_keeps (id i : Nat) {r s : State} (h : Keeps r s) : Keeps r (fencePoll id i s) := by
  unfold fencePoll
  split
  · exact h
  · split
    · exact h
    · split
      · exact Keeps.onHw _ h
      · refine Keeps.onHw _ (onRun_round_keeps id i ?_)
        split
        · exact Keeps.onHw _ h
        · exact h

theorem driveRun_keeps (n : Nat) (env : RunEnv) (q : Run) {r s : State} (h : Keeps r s) : Keeps r (driveRun n env q s).2 := by
  induction n generalizing s q with
  | zero => exact h
  | succ n ih => exact ih _ (commitRun_keeps _ _ (startRun_keeps _ _ h))

theorem driveRun_keeps_of {n : Nat} {env : RunEnv} {q x : Run} {r s u : State} (e0 : driveRun n env q s = (x, u)) (h : Keeps r s) :
    Keeps r u := by
  have := driveRun_keeps n env q h
  rw [e0] at this; exact this

theorem driveSegment_keeps (id seg : Nat) {r s : State} (h : Keeps r s) : Keeps r (driveSegment id seg s) := by
  unfold driveSegment; try dsimp only
  repeat' first
    | with_reducible exact h
    | with_reducible apply driveRun_keeps
    | with_reducible apply Keeps.onHw
    | split

theorem driveInstance_keeps (id : Nat) {r s : State} (h : Keeps r s) : Keeps r (driveInstance id s) := by
  unfold driveInstance; extract_lets
  split
  · with_reducible exact h
  split
  · with_reducible exact h
  split
  · exact Keeps.onHw _ h
  extract_lets
  split
  rename_i e0
  have h1 := driveRun_keeps_of e0 h
  extract_lets
  repeat' first
    | exact h1
    | split

theorem slotFreed_keeps (t : Nat) {r s : State} (h : Keeps r s) : Keeps r (slotFreed t s) := by
  unfold slotFreed
  refine Keeps.foldl _ _ (fun u c hu => ?_) (Keeps.foldl _ _ (fun u q hu => Keeps.foldl _ _ (fun v e hv => ?_) hu) h)
  · dsimp only
    split
    · exact hu
    · exact Keeps.onHw _ (reregister_keeps _ _ _ (Keeps.foldl _ _ (fun v x hv => Keeps.onHw _ (reregister_keeps _ _ _ hv)) hu))
  · split
    · exact onRun_keeps _ _ _ (fun _ _ _ hx => reregister_keeps _ _ _ hx) hv
    · exact hv

theorem placeParked_keeps {r s : State} (region slot serial : Nat) (p : Packet) (h : Keeps r s) :
    Keeps r (placeParked s region slot serial p) := by
  unfold placeParked; try dsimp only
  repeat' first
    | with_reducible apply park_keeps
    | with_reducible apply plainRequest_keeps
    | with_reducible apply storeLine_keeps
    | with_reducible exact Keeps.setHw h
    | split

theorem runParked_keeps {r s : State} (x : Parked) (h : Keeps r s) : Keeps r (runParked s x) := by
  unfold runParked; try dsimp only
  repeat' first
    | with_reducible exact h
    | with_reducible apply poisonNow_keeps
    | with_reducible apply performNow_keeps
    | with_reducible apply grantNow_keeps
    | with_reducible apply resumeServed_keeps
    | with_reducible apply storeNow_keeps
    | with_reducible apply notify_keeps
    | with_reducible apply placeParked_keeps
    | split

theorem resumeParked_keeps {r s : State} (h : Keeps r s) : Keeps r (resumeParked s) := by
  unfold resumeParked; try dsimp only
  repeat' first
    | with_reducible assumption
    | with_reducible apply pumpBulk_keeps
    | with_reducible apply runParked_keeps
    | with_reducible apply Keeps.onHw
    | (with_reducible refine Keeps.foldl _ _ (fun _ _ _ => ?_) ?_) <;> try dsimp only

theorem readShard_keeps {r s : State} (psn : Nat) (h : Keeps r s) : Keeps r (readShard s psn) := by
  unfold readShard; try dsimp only
  repeat' first
    | with_reducible assumption
    | with_reducible apply readStored_keeps
    | (with_reducible refine Keeps.foldl _ _ (fun _ _ _ => ?_) ?_) <;> try dsimp only

theorem copyDone_keeps (id l slot : Nat) {r s : State} (h : Keeps r s) : Keeps r (copyDone id l slot s) := by
  unfold copyDone; try dsimp only
  repeat' first
    | with_reducible exact h
    | with_reducible apply mirrorLines_keeps
    | with_reducible apply resumeParked_keeps
    | with_reducible apply readShard_keeps
    | with_reducible apply Keeps.onHw
    | with_reducible apply Keeps.copy
    | split

theorem recallRights_keeps (c : Change) (t line : Nat) (e : DirEntry) {r s : State} (h : Keeps r s) :
    Keeps r (recallRights c t line e s) := by
  unfold recallRights; try dsimp only
  repeat' first
    | with_reducible apply recallLine_keeps
    | with_reducible apply Keeps.onHw
    | with_reducible exact Keeps.setHw h
    | split

theorem scanEnd_keeps (t m : Nat) {r s : State} (h : Keeps r s) : Keeps r (scanEnd t m s) := by
  unfold scanEnd; try dsimp only
  repeat' first
    | with_reducible assumption
    | with_reducible apply buryHolder_keeps
    | with_reducible apply recallRights_keeps
    | with_reducible apply Keeps.onHw
    | (with_reducible refine Keeps.foldl _ _ (fun _ _ _ => ?_) ?_) <;> try dsimp only
    | split

theorem wipeDone_keeps (id : Nat) {r s : State} (h : Keeps r s) : Keeps r (wipeDone id s) := by
  unfold wipeDone; try dsimp only
  repeat' first
    | with_reducible exact h
    | with_reducible apply Keeps.onHw
    | with_reducible apply Keeps.wipe
    | split

theorem fullRateDone_keeps {r s : State} (stack : Nat) (ws : List Sweep) (h : Keeps r s) : Keeps r (fullRateDone s stack ws) := by
  unfold fullRateDone; dsimp only
  split
  · exact h
  · split
    · exact Keeps.emptyPool (Keeps.onHw _ (Keeps.onHw _ h))
    · exact Keeps.onHw _ h

theorem poolZeroDone_keeps {r s : State} (bad : List Nat) (h : Keeps r s) : Keeps r (poolZeroDone s bad) := by
  unfold poolZeroDone
  split
  · exact h
  · exact Keeps.emptyPool (Keeps.onHw _ h)

theorem stepLimit_keeps {r s : State} (h : Keeps r s) : Keeps r (stepLimit s) := by
  unfold stepLimit; dsimp only
  split
  · exact h
  · split
    · exact Keeps.onHw _ (Keeps.onHw _ h)
    · exact Keeps.onHw _ (Keeps.onHw _ h)
    · exact Keeps.emptyPool (Keeps.onHw _ (Keeps.onHw _ h))
    · exact poolZeroDone_keeps _ (Keeps.onHw _ (Keeps.onHw _ h))
    · exact Keeps.onHw _ (Keeps.onHw _ h)
    · with_reducible exact h
    · exact Keeps.onHw _ h

theorem selfTestEnd_keeps {r s : State} (m : Nat) (o : TestOutcome) (h : Keeps r s) : Keeps r (selfTestEnd s m o) := by
  unfold selfTestEnd; extract_lets
  split
  · with_reducible exact h
  split
  · with_reducible exact h
  refine Keeps.onHw _ ?_
  show Keeps r (if (o.block == 7) = true then { s with pool := zeroFree s.hw o.index s.pool } else s)
  split
  · exact Keeps.setPool (KMap.wf_filter _) h
  · exact h

theorem debugUnlocked_keeps {r s : State} (h : Keeps r s) : Keeps r (debugUnlocked s) := by
  unfold debugUnlocked; dsimp only
  split
  · exact h
  · exact Keeps.emptyPool (Keeps.onHw _ h)

theorem Tables.writeBack_keeps (x : Tables) (service : Nat) {r s : State} (h : Keeps r s) : Keeps r (x.writeBack service s) := by
  unfold Tables.writeBack; dsimp only
  have h1 (l : List (Nat × List Byte)) : Keeps r (l.foldl (fun (s : State) (w : Nat × List Byte) => store s false 0 w.1 w.2 false) s) :=
    Keeps.foldl _ _ (fun _ _ ht => store_keeps _ _ _ _ _ ht) h
  split
  · exact Keeps.onHw _ (h1 _)
  · exact h1 _

theorem syncApply_keeps {r s : State} (m c : Nat) (us : List Nat) (y : Tables) (h : Keeps r s) : Keeps r (syncApply s m c us y) := by
  unfold syncApply; try dsimp only
  repeat' first
    | with_reducible exact h
    | with_reducible apply Keeps.onHw
    | with_reducible apply Tables.writeBack_keeps

theorem xltSync_keeps (q : Req) {r s : State} (h : Keeps r s) : Keeps r (xltSync q s).1 := by
  unfold xltSync; try dsimp only
  repeat' first
    | with_reducible exact h
    | with_reducible apply syncApply_keeps
    | split

theorem mbxRingWrite_keeps {r s : State} (who : Requester) (m value : Nat) (h : Keeps r s) : Keeps r (mbxRingWrite s who m value) := by
  unfold mbxRingWrite; try dsimp only
  repeat' first
    | with_reducible exact h
    | with_reducible apply Keeps.onHw
    | split

theorem nop_keeps {r s : State} (m : Nat) (h : Keeps r s) : Keeps r (nop s m) := by
  unfold nop; try dsimp only
  repeat' first
    | with_reducible exact h
    | with_reducible apply Keeps.onHw
    | split

theorem probeTxn_keeps (t k : Nat) {r s : State} (h : Keeps r s) : Keeps r (probeTxn t k s) := by
  unfold probeTxn; try dsimp only
  repeat' first
    | with_reducible exact h
    | with_reducible apply rebuildLine_keeps
    | with_reducible apply Keeps.onHw
    | split

theorem probeOpen_keeps (v : Nat) {r s : State} (h : Keeps r s) : Keeps r (probeOpen v s) := by
  unfold probeOpen; try dsimp only
  repeat' first
    | with_reducible assumption
    | with_reducible apply probeTxn_keeps
    | (with_reducible refine Keeps.foldl _ _ (fun _ _ _ => ?_) ?_) <;> try dsimp only

theorem takeOver_keeps {r s : State} (h : Keeps r s) : Keeps r (takeOver s) := by
  unfold takeOver; try dsimp only
  repeat' first
    | with_reducible assumption
    | with_reducible apply probeOpen_keeps
    | with_reducible apply Keeps.onHw
    | (with_reducible refine Keeps.foldl _ _ (fun _ _ _ => ?_) ?_) <;> try dsimp only
    | split

theorem metadataDone_keeps {r s : State} (h : Keeps r s) : Keeps r (metadataDone s) := by
  unfold metadataDone; try dsimp only
  repeat' first
    | with_reducible exact h
    | with_reducible apply Keeps.onHw
    | split

theorem applyRegion_keeps (id : Nat) (r : Region) {r0 s : State} (h : Keeps r0 s) : Keeps r0 (applyRegion id r s) := by
  unfold applyRegion; try dsimp only
  repeat' first
    | with_reducible exact h
    | with_reducible apply Keeps.onHw
    | with_reducible apply Keeps.wipe
    | with_reducible apply Keeps.poisonGranules
    | split

theorem applyItem_keeps (i : MirrorItem) {r s : State} (h : Keeps r s) : Keeps r (applyItem i s) := by
  unfold applyItem; try dsimp only
  repeat' first
    | with_reducible exact h
    | with_reducible apply storeFlagged_keeps
    | with_reducible apply applyRegion_keeps
    | with_reducible apply Keeps.onHw
    | with_reducible apply Keeps.wipe
    | split

theorem takeRecord_keeps (link : Nat) (r : MirrorRec) {r0 s : State} (h : Keeps r0 s) : Keeps r0 (takeRecord link r s) := by
  unfold takeRecord; try dsimp only
  repeat' first
    | with_reducible exact h
    | with_reducible apply applyItem_keeps
    | with_reducible apply Keeps.onHw
    | split

theorem flipStored_keeps {r s : State} (w err : Nat) (h : Keeps r s) : Keeps r (flipStored s w err) := by
  unfold flipStored; try dsimp only
  repeat' first
    | exact Keeps.setPool id h

theorem hotError_keeps {r s : State} (w err : Nat) (h : Keeps r s) : Keeps r (hotError s w err) := by
  unfold hotError; try dsimp only
  repeat' first
    | with_reducible exact h
    | with_reducible apply Keeps.writeWord
    | with_reducible apply Keeps.onHw
    | split

theorem readDecode_keeps (cell : Storage) (err : BitVec 80) {r s : State} (h : Keeps r s) : Keeps r (readDecode cell err s) := by
  unfold readDecode; try dsimp only
  repeat' first
    | with_reducible exact h
    | with_reducible apply dramRead_keeps
    | with_reducible apply rebuildEntry_keeps
    | with_reducible apply flipStored_keeps
    | with_reducible apply hotError_keeps
    | with_reducible apply Keeps.onHw
    | split

end Sys2Proof.Machine
end

