-- ==== Sys2Proof/Laws/State.lean ====
section
/-!
SUPPORT. What each update of the state leaves of each field, and what a table reads after a change of one entry.
-/
namespace Sys2Proof.Machine
open Sys2Proof

@[simp] theorem State.onHw_pending (s : State) (f : Hw → Hw) : (s.onHw f).pending = s.pending := rfl
@[simp] theorem State.onHw_pool (s : State) (f : Hw → Hw) : (s.onHw f).pool = s.pool := rfl
@[simp] theorem State.onHw_hw (s : State) (f : Hw → Hw) : (s.onHw f).hw = f s.hw := rfl
@[simp] theorem State.onPool_pending (s : State) (f : Pool → Pool) : (s.onPool f).pending = s.pending := rfl
@[simp] theorem State.onPool_hw (s : State) (f : Pool → Pool) : (s.onPool f).hw = s.hw := rfl
@[simp] theorem State.onPool_pool (s : State) (f : Pool → Pool) : (s.onPool f).pool = f s.pool := rfl

@[simp] theorem Hw.modDir_freeCount (h : Hw) (t : Nat) (f : DirSlice → DirSlice) : (h.modDir t f).freeCount = h.freeCount := rfl
@[simp] theorem Hw.modDir_sys (h : Hw) (t : Nat) (f : DirSlice → DirSlice) : (h.modDir t f).sys = h.sys := rfl
@[simp] theorem Hw.modDir_fuses (h : Hw) (t : Nat) (f : DirSlice → DirSlice) : (h.modDir t f).fuses = h.fuses := rfl
@[simp] theorem Hw.modDir_fw (h : Hw) (t : Nat) (f : DirSlice → DirSlice) : (h.modDir t f).fw = h.fw := rfl
@[simp] theorem Hw.modDir_bist (h : Hw) (t : Nat) (f : DirSlice → DirSlice) : (h.modDir t f).bist = h.bist := rfl
@[simp] theorem Hw.modDir_clk (h : Hw) (t : Nat) (f : DirSlice → DirSlice) : (h.modDir t f).clk = h.clk := rfl
@[simp] theorem Hw.modDir_always (h : Hw) (t : Nat) (f : DirSlice → DirSlice) : (h.modDir t f).always = h.always := rfl
@[simp] theorem Hw.modDir_pwr (h : Hw) (t : Nat) (f : DirSlice → DirSlice) : (h.modDir t f).pwr = h.pwr := rfl
@[simp] theorem Hw.modDir_pcie (h : Hw) (t : Nat) (f : DirSlice → DirSlice) : (h.modDir t f).pcie = h.pcie := rfl
@[simp] theorem Hw.modDir_smb (h : Hw) (t : Nat) (f : DirSlice → DirSlice) : (h.modDir t f).smb = h.smb := rfl
@[simp] theorem Hw.modDir_tap (h : Hw) (t : Nat) (f : DirSlice → DirSlice) : (h.modDir t f).tap = h.tap := rfl
@[simp] theorem Hw.modDir_gpio (h : Hw) (t : Nat) (f : DirSlice → DirSlice) : (h.modDir t f).gpio = h.gpio := rfl
@[simp] theorem Hw.modDir_evc (h : Hw) (t : Nat) (f : DirSlice → DirSlice) : (h.modDir t f).evc = h.evc := rfl
@[simp] theorem Hw.modDir_logs (h : Hw) (t : Nat) (f : DirSlice → DirSlice) : (h.modDir t f).logs = h.logs := rfl
@[simp] theorem Hw.modDir_mbx (h : Hw) (t : Nat) (f : DirSlice → DirSlice) : (h.modDir t f).mbx = h.mbx := rfl
@[simp] theorem Hw.modDir_mbxOrder (h : Hw) (t : Nat) (f : DirSlice → DirSlice) : (h.modDir t f).mbxOrder = h.mbxOrder := rfl
@[simp] theorem Hw.modDir_mems (h : Hw) (t : Nat) (f : DirSlice → DirSlice) : (h.modDir t f).mems = h.mems := rfl
@[simp] theorem Hw.modDir_links (h : Hw) (t : Nat) (f : DirSlice → DirSlice) : (h.modDir t f).links = h.links := rfl
@[simp] theorem Hw.modDir_lanes (h : Hw) (t : Nat) (f : DirSlice → DirSlice) : (h.modDir t f).lanes = h.lanes := rfl
@[simp] theorem Hw.modDir_engines (h : Hw) (t : Nat) (f : DirSlice → DirSlice) : (h.modDir t f).engines = h.engines := rfl
@[simp] theorem Hw.modDir_router (h : Hw) (t : Nat) (f : DirSlice → DirSlice) : (h.modDir t f).router = h.router := rfl
@[simp] theorem Hw.modDir_time (h : Hw) (t : Nat) (f : DirSlice → DirSlice) : (h.modDir t f).time = h.time := rfl
@[simp] theorem Hw.modDir_pair (h : Hw) (t : Nat) (f : DirSlice → DirSlice) : (h.modDir t f).pair = h.pair := rfl
@[simp] theorem Hw.modDir_stamp (h : Hw) (t : Nat) (f : DirSlice → DirSlice) : (h.modDir t f).stamp = h.stamp := rfl
@[simp] theorem Hw.modDir_regions (h : Hw) (t : Nat) (f : DirSlice → DirSlice) : (h.modDir t f).regions = h.regions := rfl
@[simp] theorem Hw.modDir_groups (h : Hw) (t : Nat) (f : DirSlice → DirSlice) : (h.modDir t f).groups = h.groups := rfl
@[simp] theorem Hw.modDir_dead (h : Hw) (t : Nat) (f : DirSlice → DirSlice) : (h.modDir t f).dead = h.dead := rfl
@[simp] theorem Hw.modDir_changes (h : Hw) (t : Nat) (f : DirSlice → DirSlice) : (h.modDir t f).changes = h.changes := rfl
@[simp] theorem Hw.modDir_snaps (h : Hw) (t : Nat) (f : DirSlice → DirSlice) : (h.modDir t f).snaps = h.snaps := rfl
@[simp] theorem Hw.modDir_switching (h : Hw) (t : Nat) (f : DirSlice → DirSlice) : (h.modDir t f).switching = h.switching := rfl
@[simp] theorem Hw.modDir_homeTimeout (h : Hw) (t : Nat) (f : DirSlice → DirSlice) : (h.modDir t f).homeTimeout = h.homeTimeout := rfl
@[simp] theorem Hw.modDir_suspects (h : Hw) (t : Nat) (f : DirSlice → DirSlice) : (h.modDir t f).suspects = h.suspects := rfl
@[simp] theorem Hw.modDir_bulk (h : Hw) (t : Nat) (f : DirSlice → DirSlice) : (h.modDir t f).bulk = h.bulk := rfl
@[simp] theorem Hw.modDir_parked (h : Hw) (t : Nat) (f : DirSlice → DirSlice) : (h.modDir t f).parked = h.parked := rfl
@[simp] theorem Hw.modDir_contexts (h : Hw) (t : Nat) (f : DirSlice → DirSlice) : (h.modDir t f).contexts = h.contexts := rfl
@[simp] theorem Hw.modDir_tiles (h : Hw) (t : Nat) (f : DirSlice → DirSlice) : (h.modDir t f).tiles = h.tiles := rfl
@[simp] theorem Hw.modDir_queues (h : Hw) (t : Nat) (f : DirSlice → DirSlice) : (h.modDir t f).queues = h.queues := rfl
@[simp] theorem Hw.modDir_outs (h : Hw) (t : Nat) (f : DirSlice → DirSlice) : (h.modDir t f).outs = h.outs := rfl
@[simp] theorem Hw.modDir_answers (h : Hw) (t : Nat) (f : DirSlice → DirSlice) : (h.modDir t f).answers = h.answers := rfl
@[simp] theorem Hw.modDir_invalidations (h : Hw) (t : Nat) (f : DirSlice → DirSlice) : (h.modDir t f).invalidations = h.invalidations := rfl
@[simp] theorem Hw.modDir_colls (h : Hw) (t : Nat) (f : DirSlice → DirSlice) : (h.modDir t f).colls = h.colls := rfl

@[simp] theorem Hw.modTxn_freeCount (h : Hw) (t k : Nat) (f : Txn → Txn) : (h.modTxn t k f).freeCount = h.freeCount := rfl
@[simp] theorem Hw.modTxn_sys (h : Hw) (t k : Nat) (f : Txn → Txn) : (h.modTxn t k f).sys = h.sys := rfl
@[simp] theorem Hw.modTxn_fuses (h : Hw) (t k : Nat) (f : Txn → Txn) : (h.modTxn t k f).fuses = h.fuses := rfl
@[simp] theorem Hw.modTxn_fw (h : Hw) (t k : Nat) (f : Txn → Txn) : (h.modTxn t k f).fw = h.fw := rfl
@[simp] theorem Hw.modTxn_bist (h : Hw) (t k : Nat) (f : Txn → Txn) : (h.modTxn t k f).bist = h.bist := rfl
@[simp] theorem Hw.modTxn_clk (h : Hw) (t k : Nat) (f : Txn → Txn) : (h.modTxn t k f).clk = h.clk := rfl
@[simp] theorem Hw.modTxn_always (h : Hw) (t k : Nat) (f : Txn → Txn) : (h.modTxn t k f).always = h.always := rfl
@[simp] theorem Hw.modTxn_pwr (h : Hw) (t k : Nat) (f : Txn → Txn) : (h.modTxn t k f).pwr = h.pwr := rfl
@[simp] theorem Hw.modTxn_pcie (h : Hw) (t k : Nat) (f : Txn → Txn) : (h.modTxn t k f).pcie = h.pcie := rfl
@[simp] theorem Hw.modTxn_smb (h : Hw) (t k : Nat) (f : Txn → Txn) : (h.modTxn t k f).smb = h.smb := rfl
@[simp] theorem Hw.modTxn_tap (h : Hw) (t k : Nat) (f : Txn → Txn) : (h.modTxn t k f).tap = h.tap := rfl
@[simp] theorem Hw.modTxn_gpio (h : Hw) (t k : Nat) (f : Txn → Txn) : (h.modTxn t k f).gpio = h.gpio := rfl
@[simp] theorem Hw.modTxn_evc (h : Hw) (t k : Nat) (f : Txn → Txn) : (h.modTxn t k f).evc = h.evc := rfl
@[simp] theorem Hw.modTxn_logs (h : Hw) (t k : Nat) (f : Txn → Txn) : (h.modTxn t k f).logs = h.logs := rfl
@[simp] theorem Hw.modTxn_mbx (h : Hw) (t k : Nat) (f : Txn → Txn) : (h.modTxn t k f).mbx = h.mbx := rfl
@[simp] theorem Hw.modTxn_mbxOrder (h : Hw) (t k : Nat) (f : Txn → Txn) : (h.modTxn t k f).mbxOrder = h.mbxOrder := rfl
@[simp] theorem Hw.modTxn_mems (h : Hw) (t k : Nat) (f : Txn → Txn) : (h.modTxn t k f).mems = h.mems := rfl
@[simp] theorem Hw.modTxn_links (h : Hw) (t k : Nat) (f : Txn → Txn) : (h.modTxn t k f).links = h.links := rfl
@[simp] theorem Hw.modTxn_lanes (h : Hw) (t k : Nat) (f : Txn → Txn) : (h.modTxn t k f).lanes = h.lanes := rfl
@[simp] theorem Hw.modTxn_engines (h : Hw) (t k : Nat) (f : Txn → Txn) : (h.modTxn t k f).engines = h.engines := rfl
@[simp] theorem Hw.modTxn_router (h : Hw) (t k : Nat) (f : Txn → Txn) : (h.modTxn t k f).router = h.router := rfl
@[simp] theorem Hw.modTxn_time (h : Hw) (t k : Nat) (f : Txn → Txn) : (h.modTxn t k f).time = h.time := rfl
@[simp] theorem Hw.modTxn_pair (h : Hw) (t k : Nat) (f : Txn → Txn) : (h.modTxn t k f).pair = h.pair := rfl
@[simp] theorem Hw.modTxn_stamp (h : Hw) (t k : Nat) (f : Txn → Txn) : (h.modTxn t k f).stamp = h.stamp := rfl
@[simp] theorem Hw.modTxn_regions (h : Hw) (t k : Nat) (f : Txn → Txn) : (h.modTxn t k f).regions = h.regions := rfl
@[simp] theorem Hw.modTxn_groups (h : Hw) (t k : Nat) (f : Txn → Txn) : (h.modTxn t k f).groups = h.groups := rfl
@[simp] theorem Hw.modTxn_dead (h : Hw) (t k : Nat) (f : Txn → Txn) : (h.modTxn t k f).dead = h.dead := rfl
@[simp] theorem Hw.modTxn_changes (h : Hw) (t k : Nat) (f : Txn → Txn) : (h.modTxn t k f).changes = h.changes := rfl
@[simp] theorem Hw.modTxn_snaps (h : Hw) (t k : Nat) (f : Txn → Txn) : (h.modTxn t k f).snaps = h.snaps := rfl
@[simp] theorem Hw.modTxn_switching (h : Hw) (t k : Nat) (f : Txn → Txn) : (h.modTxn t k f).switching = h.switching := rfl
@[simp] theorem Hw.modTxn_homeTimeout (h : Hw) (t k : Nat) (f : Txn → Txn) : (h.modTxn t k f).homeTimeout = h.homeTimeout := rfl
@[simp] theorem Hw.modTxn_suspects (h : Hw) (t k : Nat) (f : Txn → Txn) : (h.modTxn t k f).suspects = h.suspects := rfl
@[simp] theorem Hw.modTxn_bulk (h : Hw) (t k : Nat) (f : Txn → Txn) : (h.modTxn t k f).bulk = h.bulk := rfl
@[simp] theorem Hw.modTxn_parked (h : Hw) (t k : Nat) (f : Txn → Txn) : (h.modTxn t k f).parked = h.parked := rfl
@[simp] theorem Hw.modTxn_contexts (h : Hw) (t k : Nat) (f : Txn → Txn) : (h.modTxn t k f).contexts = h.contexts := rfl
@[simp] theorem Hw.modTxn_tiles (h : Hw) (t k : Nat) (f : Txn → Txn) : (h.modTxn t k f).tiles = h.tiles := rfl
@[simp] theorem Hw.modTxn_queues (h : Hw) (t k : Nat) (f : Txn → Txn) : (h.modTxn t k f).queues = h.queues := rfl
@[simp] theorem Hw.modTxn_outs (h : Hw) (t k : Nat) (f : Txn → Txn) : (h.modTxn t k f).outs = h.outs := rfl
@[simp] theorem Hw.modTxn_answers (h : Hw) (t k : Nat) (f : Txn → Txn) : (h.modTxn t k f).answers = h.answers := rfl
@[simp] theorem Hw.modTxn_invalidations (h : Hw) (t k : Nat) (f : Txn → Txn) : (h.modTxn t k f).invalidations = h.invalidations := rfl
@[simp] theorem Hw.modTxn_colls (h : Hw) (t k : Nat) (f : Txn → Txn) : (h.modTxn t k f).colls = h.colls := rfl

@[simp] theorem Hw.onBist_freeCount (h : Hw) (f : SelfTest → SelfTest) : (h.onBist f).freeCount = h.freeCount := rfl
@[simp] theorem Hw.onBist_sys (h : Hw) (f : SelfTest → SelfTest) : (h.onBist f).sys = h.sys := rfl
@[simp] theorem Hw.onBist_fuses (h : Hw) (f : SelfTest → SelfTest) : (h.onBist f).fuses = h.fuses := rfl
@[simp] theorem Hw.onBist_fw (h : Hw) (f : SelfTest → SelfTest) : (h.onBist f).fw = h.fw := rfl
@[simp] theorem Hw.onBist_clk (h : Hw) (f : SelfTest → SelfTest) : (h.onBist f).clk = h.clk := rfl
@[simp] theorem Hw.onBist_always (h : Hw) (f : SelfTest → SelfTest) : (h.onBist f).always = h.always := rfl
@[simp] theorem Hw.onBist_pwr (h : Hw) (f : SelfTest → SelfTest) : (h.onBist f).pwr = h.pwr := rfl
@[simp] theorem Hw.onBist_pcie (h : Hw) (f : SelfTest → SelfTest) : (h.onBist f).pcie = h.pcie := rfl
@[simp] theorem Hw.onBist_smb (h : Hw) (f : SelfTest → SelfTest) : (h.onBist f).smb = h.smb := rfl
@[simp] theorem Hw.onBist_tap (h : Hw) (f : SelfTest → SelfTest) : (h.onBist f).tap = h.tap := rfl
@[simp] theorem Hw.onBist_gpio (h : Hw) (f : SelfTest → SelfTest) : (h.onBist f).gpio = h.gpio := rfl
@[simp] theorem Hw.onBist_evc (h : Hw) (f : SelfTest → SelfTest) : (h.onBist f).evc = h.evc := rfl
@[simp] theorem Hw.onBist_logs (h : Hw) (f : SelfTest → SelfTest) : (h.onBist f).logs = h.logs := rfl
@[simp] theorem Hw.onBist_mbx (h : Hw) (f : SelfTest → SelfTest) : (h.onBist f).mbx = h.mbx := rfl
@[simp] theorem Hw.onBist_mbxOrder (h : Hw) (f : SelfTest → SelfTest) : (h.onBist f).mbxOrder = h.mbxOrder := rfl
@[simp] theorem Hw.onBist_mems (h : Hw) (f : SelfTest → SelfTest) : (h.onBist f).mems = h.mems := rfl
@[simp] theorem Hw.onBist_links (h : Hw) (f : SelfTest → SelfTest) : (h.onBist f).links = h.links := rfl
@[simp] theorem Hw.onBist_lanes (h : Hw) (f : SelfTest → SelfTest) : (h.onBist f).lanes = h.lanes := rfl
@[simp] theorem Hw.onBist_engines (h : Hw) (f : SelfTest → SelfTest) : (h.onBist f).engines = h.engines := rfl
@[simp] theorem Hw.onBist_router (h : Hw) (f : SelfTest → SelfTest) : (h.onBist f).router = h.router := rfl
@[simp] theorem Hw.onBist_time (h : Hw) (f : SelfTest → SelfTest) : (h.onBist f).time = h.time := rfl
@[simp] theorem Hw.onBist_pair (h : Hw) (f : SelfTest → SelfTest) : (h.onBist f).pair = h.pair := rfl
@[simp] theorem Hw.onBist_stamp (h : Hw) (f : SelfTest → SelfTest) : (h.onBist f).stamp = h.stamp := rfl
@[simp] theorem Hw.onBist_regions (h : Hw) (f : SelfTest → SelfTest) : (h.onBist f).regions = h.regions := rfl
@[simp] theorem Hw.onBist_groups (h : Hw) (f : SelfTest → SelfTest) : (h.onBist f).groups = h.groups := rfl
@[simp] theorem Hw.onBist_dead (h : Hw) (f : SelfTest → SelfTest) : (h.onBist f).dead = h.dead := rfl
@[simp] theorem Hw.onBist_changes (h : Hw) (f : SelfTest → SelfTest) : (h.onBist f).changes = h.changes := rfl
@[simp] theorem Hw.onBist_snaps (h : Hw) (f : SelfTest → SelfTest) : (h.onBist f).snaps = h.snaps := rfl
@[simp] theorem Hw.onBist_switching (h : Hw) (f : SelfTest → SelfTest) : (h.onBist f).switching = h.switching := rfl
@[simp] theorem Hw.onBist_dirs (h : Hw) (f : SelfTest → SelfTest) : (h.onBist f).dirs = h.dirs := rfl
@[simp] theorem Hw.onBist_homeTimeout (h : Hw) (f : SelfTest → SelfTest) : (h.onBist f).homeTimeout = h.homeTimeout := rfl
@[simp] theorem Hw.onBist_suspects (h : Hw) (f : SelfTest → SelfTest) : (h.onBist f).suspects = h.suspects := rfl
@[simp] theorem Hw.onBist_bulk (h : Hw) (f : SelfTest → SelfTest) : (h.onBist f).bulk = h.bulk := rfl
@[simp] theorem Hw.onBist_parked (h : Hw) (f : SelfTest → SelfTest) : (h.onBist f).parked = h.parked := rfl
@[simp] theorem Hw.onBist_contexts (h : Hw) (f : SelfTest → SelfTest) : (h.onBist f).contexts = h.contexts := rfl
@[simp] theorem Hw.onBist_tiles (h : Hw) (f : SelfTest → SelfTest) : (h.onBist f).tiles = h.tiles := rfl
@[simp] theorem Hw.onBist_queues (h : Hw) (f : SelfTest → SelfTest) : (h.onBist f).queues = h.queues := rfl
@[simp] theorem Hw.onBist_outs (h : Hw) (f : SelfTest → SelfTest) : (h.onBist f).outs = h.outs := rfl
@[simp] theorem Hw.onBist_answers (h : Hw) (f : SelfTest → SelfTest) : (h.onBist f).answers = h.answers := rfl
@[simp] theorem Hw.onBist_invalidations (h : Hw) (f : SelfTest → SelfTest) : (h.onBist f).invalidations = h.invalidations := rfl
@[simp] theorem Hw.onBist_colls (h : Hw) (f : SelfTest → SelfTest) : (h.onBist f).colls = h.colls := rfl
@[simp] theorem Hw.onBist_bist (h : Hw) (f : SelfTest → SelfTest) : (h.onBist f).bist = f h.bist := rfl

@[simp] theorem Hw.onClk_freeCount (h : Hw) (f : Clocks → Clocks) : (h.onClk f).freeCount = h.freeCount := rfl
@[simp] theorem Hw.onClk_sys (h : Hw) (f : Clocks → Clocks) : (h.onClk f).sys = h.sys := rfl
@[simp] theorem Hw.onClk_fuses (h : Hw) (f : Clocks → Clocks) : (h.onClk f).fuses = h.fuses := rfl
@[simp] theorem Hw.onClk_fw (h : Hw) (f : Clocks → Clocks) : (h.onClk f).fw = h.fw := rfl
@[simp] theorem Hw.onClk_bist (h : Hw) (f : Clocks → Clocks) : (h.onClk f).bist = h.bist := rfl
@[simp] theorem Hw.onClk_always (h : Hw) (f : Clocks → Clocks) : (h.onClk f).always = h.always := rfl
@[simp] theorem Hw.onClk_pwr (h : Hw) (f : Clocks → Clocks) : (h.onClk f).pwr = h.pwr := rfl
@[simp] theorem Hw.onClk_pcie (h : Hw) (f : Clocks → Clocks) : (h.onClk f).pcie = h.pcie := rfl
@[simp] theorem Hw.onClk_smb (h : Hw) (f : Clocks → Clocks) : (h.onClk f).smb = h.smb := rfl
@[simp] theorem Hw.onClk_tap (h : Hw) (f : Clocks → Clocks) : (h.onClk f).tap = h.tap := rfl
@[simp] theorem Hw.onClk_gpio (h : Hw) (f : Clocks → Clocks) : (h.onClk f).gpio = h.gpio := rfl
@[simp] theorem Hw.onClk_evc (h : Hw) (f : Clocks → Clocks) : (h.onClk f).evc = h.evc := rfl
@[simp] theorem Hw.onClk_logs (h : Hw) (f : Clocks → Clocks) : (h.onClk f).logs = h.logs := rfl
@[simp] theorem Hw.onClk_mbx (h : Hw) (f : Clocks → Clocks) : (h.onClk f).mbx = h.mbx := rfl
@[simp] theorem Hw.onClk_mbxOrder (h : Hw) (f : Clocks → Clocks) : (h.onClk f).mbxOrder = h.mbxOrder := rfl
@[simp] theorem Hw.onClk_mems (h : Hw) (f : Clocks → Clocks) : (h.onClk f).mems = h.mems := rfl
@[simp] theorem Hw.onClk_links (h : Hw) (f : Clocks → Clocks) : (h.onClk f).links = h.links := rfl
@[simp] theorem Hw.onClk_lanes (h : Hw) (f : Clocks → Clocks) : (h.onClk f).lanes = h.lanes := rfl
@[simp] theorem Hw.onClk_engines (h : Hw) (f : Clocks → Clocks) : (h.onClk f).engines = h.engines := rfl
@[simp] theorem Hw.onClk_router (h : Hw) (f : Clocks → Clocks) : (h.onClk f).router = h.router := rfl
@[simp] theorem Hw.onClk_time (h : Hw) (f : Clocks → Clocks) : (h.onClk f).time = h.time := rfl
@[simp] theorem Hw.onClk_pair (h : Hw) (f : Clocks → Clocks) : (h.onClk f).pair = h.pair := rfl
@[simp] theorem Hw.onClk_stamp (h : Hw) (f : Clocks → Clocks) : (h.onClk f).stamp = h.stamp := rfl
@[simp] theorem Hw.onClk_regions (h : Hw) (f : Clocks → Clocks) : (h.onClk f).regions = h.regions := rfl
@[simp] theorem Hw.onClk_groups (h : Hw) (f : Clocks → Clocks) : (h.onClk f).groups = h.groups := rfl
@[simp] theorem Hw.onClk_dead (h : Hw) (f : Clocks → Clocks) : (h.onClk f).dead = h.dead := rfl
@[simp] theorem Hw.onClk_changes (h : Hw) (f : Clocks → Clocks) : (h.onClk f).changes = h.changes := rfl
@[simp] theorem Hw.onClk_snaps (h : Hw) (f : Clocks → Clocks) : (h.onClk f).snaps = h.snaps := rfl
@[simp] theorem Hw.onClk_switching (h : Hw) (f : Clocks → Clocks) : (h.onClk f).switching = h.switching := rfl
@[simp] theorem Hw.onClk_dirs (h : Hw) (f : Clocks → Clocks) : (h.onClk f).dirs = h.dirs := rfl
@[simp] theorem Hw.onClk_homeTimeout (h : Hw) (f : Clocks → Clocks) : (h.onClk f).homeTimeout = h.homeTimeout := rfl
@[simp] theorem Hw.onClk_suspects (h : Hw) (f : Clocks → Clocks) : (h.onClk f).suspects = h.suspects := rfl
@[simp] theorem Hw.onClk_bulk (h : Hw) (f : Clocks → Clocks) : (h.onClk f).bulk = h.bulk := rfl
@[simp] theorem Hw.onClk_parked (h : Hw) (f : Clocks → Clocks) : (h.onClk f).parked = h.parked := rfl
@[simp] theorem Hw.onClk_contexts (h : Hw) (f : Clocks → Clocks) : (h.onClk f).contexts = h.contexts := rfl
@[simp] theorem Hw.onClk_tiles (h : Hw) (f : Clocks → Clocks) : (h.onClk f).tiles = h.tiles := rfl
@[simp] theorem Hw.onClk_queues (h : Hw) (f : Clocks → Clocks) : (h.onClk f).queues = h.queues := rfl
@[simp] theorem Hw.onClk_outs (h : Hw) (f : Clocks → Clocks) : (h.onClk f).outs = h.outs := rfl
@[simp] theorem Hw.onClk_answers (h : Hw) (f : Clocks → Clocks) : (h.onClk f).answers = h.answers := rfl
@[simp] theorem Hw.onClk_invalidations (h : Hw) (f : Clocks → Clocks) : (h.onClk f).invalidations = h.invalidations := rfl
@[simp] theorem Hw.onClk_colls (h : Hw) (f : Clocks → Clocks) : (h.onClk f).colls = h.colls := rfl
@[simp] theorem Hw.onClk_clk (h : Hw) (f : Clocks → Clocks) : (h.onClk f).clk = f h.clk := rfl

@[simp] theorem Hw.onFlash_freeCount (h : Hw) (f : KMap Byte → KMap Byte) : (h.onFlash f).freeCount = h.freeCount := rfl
@[simp] theorem Hw.onFlash_sys (h : Hw) (f : KMap Byte → KMap Byte) : (h.onFlash f).sys = h.sys := rfl
@[simp] theorem Hw.onFlash_fuses (h : Hw) (f : KMap Byte → KMap Byte) : (h.onFlash f).fuses = h.fuses := rfl
@[simp] theorem Hw.onFlash_bist (h : Hw) (f : KMap Byte → KMap Byte) : (h.onFlash f).bist = h.bist := rfl
@[simp] theorem Hw.onFlash_clk (h : Hw) (f : KMap Byte → KMap Byte) : (h.onFlash f).clk = h.clk := rfl
@[simp] theorem Hw.onFlash_always (h : Hw) (f : KMap Byte → KMap Byte) : (h.onFlash f).always = h.always := rfl
@[simp] theorem Hw.onFlash_pwr (h : Hw) (f : KMap Byte → KMap Byte) : (h.onFlash f).pwr = h.pwr := rfl
@[simp] theorem Hw.onFlash_pcie (h : Hw) (f : KMap Byte → KMap Byte) : (h.onFlash f).pcie = h.pcie := rfl
@[simp] theorem Hw.onFlash_smb (h : Hw) (f : KMap Byte → KMap Byte) : (h.onFlash f).smb = h.smb := rfl
@[simp] theorem Hw.onFlash_tap (h : Hw) (f : KMap Byte → KMap Byte) : (h.onFlash f).tap = h.tap := rfl
@[simp] theorem Hw.onFlash_gpio (h : Hw) (f : KMap Byte → KMap Byte) : (h.onFlash f).gpio = h.gpio := rfl
@[simp] theorem Hw.onFlash_evc (h : Hw) (f : KMap Byte → KMap Byte) : (h.onFlash f).evc = h.evc := rfl
@[simp] theorem Hw.onFlash_logs (h : Hw) (f : KMap Byte → KMap Byte) : (h.onFlash f).logs = h.logs := rfl
@[simp] theorem Hw.onFlash_mbx (h : Hw) (f : KMap Byte → KMap Byte) : (h.onFlash f).mbx = h.mbx := rfl
@[simp] theorem Hw.onFlash_mbxOrder (h : Hw) (f : KMap Byte → KMap Byte) : (h.onFlash f).mbxOrder = h.mbxOrder := rfl
@[simp] theorem Hw.onFlash_mems (h : Hw) (f : KMap Byte → KMap Byte) : (h.onFlash f).mems = h.mems := rfl
@[simp] theorem Hw.onFlash_links (h : Hw) (f : KMap Byte → KMap Byte) : (h.onFlash f).links = h.links := rfl
@[simp] theorem Hw.onFlash_lanes (h : Hw) (f : KMap Byte → KMap Byte) : (h.onFlash f).lanes = h.lanes := rfl
@[simp] theorem Hw.onFlash_engines (h : Hw) (f : KMap Byte → KMap Byte) : (h.onFlash f).engines = h.engines := rfl
@[simp] theorem Hw.onFlash_router (h : Hw) (f : KMap Byte → KMap Byte) : (h.onFlash f).router = h.router := rfl
@[simp] theorem Hw.onFlash_time (h : Hw) (f : KMap Byte → KMap Byte) : (h.onFlash f).time = h.time := rfl
@[simp] theorem Hw.onFlash_pair (h : Hw) (f : KMap Byte → KMap Byte) : (h.onFlash f).pair = h.pair := rfl
@[simp] theorem Hw.onFlash_stamp (h : Hw) (f : KMap Byte → KMap Byte) : (h.onFlash f).stamp = h.stamp := rfl
@[simp] theorem Hw.onFlash_regions (h : Hw) (f : KMap Byte → KMap Byte) : (h.onFlash f).regions = h.regions := rfl
@[simp] theorem Hw.onFlash_groups (h : Hw) (f : KMap Byte → KMap Byte) : (h.onFlash f).groups = h.groups := rfl
@[simp] theorem Hw.onFlash_dead (h : Hw) (f : KMap Byte → KMap Byte) : (h.onFlash f).dead = h.dead := rfl
@[simp] theorem Hw.onFlash_changes (h : Hw) (f : KMap Byte → KMap Byte) : (h.onFlash f).changes = h.changes := rfl
@[simp] theorem Hw.onFlash_snaps (h : Hw) (f : KMap Byte → KMap Byte) : (h.onFlash f).snaps = h.snaps := rfl
@[simp] theorem Hw.onFlash_switching (h : Hw) (f : KMap Byte → KMap Byte) : (h.onFlash f).switching = h.switching := rfl
@[simp] theorem Hw.onFlash_dirs (h : Hw) (f : KMap Byte → KMap Byte) : (h.onFlash f).dirs = h.dirs := rfl
@[simp] theorem Hw.onFlash_homeTimeout (h : Hw) (f : KMap Byte → KMap Byte) : (h.onFlash f).homeTimeout = h.homeTimeout := rfl
@[simp] theorem Hw.onFlash_suspects (h : Hw) (f : KMap Byte → KMap Byte) : (h.onFlash f).suspects = h.suspects := rfl
@[simp] theorem Hw.onFlash_bulk (h : Hw) (f : KMap Byte → KMap Byte) : (h.onFlash f).bulk = h.bulk := rfl
@[simp] theorem Hw.onFlash_parked (h : Hw) (f : KMap Byte → KMap Byte) : (h.onFlash f).parked = h.parked := rfl
@[simp] theorem Hw.onFlash_contexts (h : Hw) (f : KMap Byte → KMap Byte) : (h.onFlash f).contexts = h.contexts := rfl
@[simp] theorem Hw.onFlash_tiles (h : Hw) (f : KMap Byte → KMap Byte) : (h.onFlash f).tiles = h.tiles := rfl
@[simp] theorem Hw.onFlash_queues (h : Hw) (f : KMap Byte → KMap Byte) : (h.onFlash f).queues = h.queues := rfl
@[simp] theorem Hw.onFlash_outs (h : Hw) (f : KMap Byte → KMap Byte) : (h.onFlash f).outs = h.outs := rfl
@[simp] theorem Hw.onFlash_answers (h : Hw) (f : KMap Byte → KMap Byte) : (h.onFlash f).answers = h.answers := rfl
@[simp] theorem Hw.onFlash_invalidations (h : Hw) (f : KMap Byte → KMap Byte) : (h.onFlash f).invalidations = h.invalidations := rfl
@[simp] theorem Hw.onFlash_colls (h : Hw) (f : KMap Byte → KMap Byte) : (h.onFlash f).colls = h.colls := rfl

@[simp] theorem Hw.onInst_freeCount (h : Hw) (g : Nat) (f : Instance → Instance) : (h.onInst g f).freeCount = h.freeCount := rfl
@[simp] theorem Hw.onInst_sys (h : Hw) (g : Nat) (f : Instance → Instance) : (h.onInst g f).sys = h.sys := rfl
@[simp] theorem Hw.onInst_fuses (h : Hw) (g : Nat) (f : Instance → Instance) : (h.onInst g f).fuses = h.fuses := rfl
@[simp] theorem Hw.onInst_fw (h : Hw) (g : Nat) (f : Instance → Instance) : (h.onInst g f).fw = h.fw := rfl
@[simp] theorem Hw.onInst_bist (h : Hw) (g : Nat) (f : Instance → Instance) : (h.onInst g f).bist = h.bist := rfl
@[simp] theorem Hw.onInst_clk (h : Hw) (g : Nat) (f : Instance → Instance) : (h.onInst g f).clk = h.clk := rfl
@[simp] theorem Hw.onInst_always (h : Hw) (g : Nat) (f : Instance → Instance) : (h.onInst g f).always = h.always := rfl
@[simp] theorem Hw.onInst_pwr (h : Hw) (g : Nat) (f : Instance → Instance) : (h.onInst g f).pwr = h.pwr := rfl
@[simp] theorem Hw.onInst_pcie (h : Hw) (g : Nat) (f : Instance → Instance) : (h.onInst g f).pcie = h.pcie := rfl
@[simp] theorem Hw.onInst_smb (h : Hw) (g : Nat) (f : Instance → Instance) : (h.onInst g f).smb = h.smb := rfl
@[simp] theorem Hw.onInst_tap (h : Hw) (g : Nat) (f : Instance → Instance) : (h.onInst g f).tap = h.tap := rfl
@[simp] theorem Hw.onInst_gpio (h : Hw) (g : Nat) (f : Instance → Instance) : (h.onInst g f).gpio = h.gpio := rfl
@[simp] theorem Hw.onInst_evc (h : Hw) (g : Nat) (f : Instance → Instance) : (h.onInst g f).evc = h.evc := rfl
@[simp] theorem Hw.onInst_logs (h : Hw) (g : Nat) (f : Instance → Instance) : (h.onInst g f).logs = h.logs := rfl
@[simp] theorem Hw.onInst_mbx (h : Hw) (g : Nat) (f : Instance → Instance) : (h.onInst g f).mbx = h.mbx := rfl
@[simp] theorem Hw.onInst_mbxOrder (h : Hw) (g : Nat) (f : Instance → Instance) : (h.onInst g f).mbxOrder = h.mbxOrder := rfl
@[simp] theorem Hw.onInst_mems (h : Hw) (g : Nat) (f : Instance → Instance) : (h.onInst g f).mems = h.mems := rfl
@[simp] theorem Hw.onInst_links (h : Hw) (g : Nat) (f : Instance → Instance) : (h.onInst g f).links = h.links := rfl
@[simp] theorem Hw.onInst_lanes (h : Hw) (g : Nat) (f : Instance → Instance) : (h.onInst g f).lanes = h.lanes := rfl
@[simp] theorem Hw.onInst_engines (h : Hw) (g : Nat) (f : Instance → Instance) : (h.onInst g f).engines = h.engines := rfl
@[simp] theorem Hw.onInst_router (h : Hw) (g : Nat) (f : Instance → Instance) : (h.onInst g f).router = h.router := rfl
@[simp] theorem Hw.onInst_time (h : Hw) (g : Nat) (f : Instance → Instance) : (h.onInst g f).time = h.time := rfl
@[simp] theorem Hw.onInst_pair (h : Hw) (g : Nat) (f : Instance → Instance) : (h.onInst g f).pair = h.pair := rfl
@[simp] theorem Hw.onInst_stamp (h : Hw) (g : Nat) (f : Instance → Instance) : (h.onInst g f).stamp = h.stamp := rfl
@[simp] theorem Hw.onInst_regions (h : Hw) (g : Nat) (f : Instance → Instance) : (h.onInst g f).regions = h.regions := rfl
@[simp] theorem Hw.onInst_groups (h : Hw) (g : Nat) (f : Instance → Instance) : (h.onInst g f).groups = h.groups := rfl
@[simp] theorem Hw.onInst_dead (h : Hw) (g : Nat) (f : Instance → Instance) : (h.onInst g f).dead = h.dead := rfl
@[simp] theorem Hw.onInst_changes (h : Hw) (g : Nat) (f : Instance → Instance) : (h.onInst g f).changes = h.changes := rfl
@[simp] theorem Hw.onInst_snaps (h : Hw) (g : Nat) (f : Instance → Instance) : (h.onInst g f).snaps = h.snaps := rfl
@[simp] theorem Hw.onInst_switching (h : Hw) (g : Nat) (f : Instance → Instance) : (h.onInst g f).switching = h.switching := rfl
@[simp] theorem Hw.onInst_dirs (h : Hw) (g : Nat) (f : Instance → Instance) : (h.onInst g f).dirs = h.dirs := rfl
@[simp] theorem Hw.onInst_homeTimeout (h : Hw) (g : Nat) (f : Instance → Instance) : (h.onInst g f).homeTimeout = h.homeTimeout := rfl
@[simp] theorem Hw.onInst_suspects (h : Hw) (g : Nat) (f : Instance → Instance) : (h.onInst g f).suspects = h.suspects := rfl
@[simp] theorem Hw.onInst_bulk (h : Hw) (g : Nat) (f : Instance → Instance) : (h.onInst g f).bulk = h.bulk := rfl
@[simp] theorem Hw.onInst_parked (h : Hw) (g : Nat) (f : Instance → Instance) : (h.onInst g f).parked = h.parked := rfl
@[simp] theorem Hw.onInst_contexts (h : Hw) (g : Nat) (f : Instance → Instance) : (h.onInst g f).contexts = h.contexts := rfl
@[simp] theorem Hw.onInst_tiles (h : Hw) (g : Nat) (f : Instance → Instance) : (h.onInst g f).tiles = h.tiles := rfl
@[simp] theorem Hw.onInst_queues (h : Hw) (g : Nat) (f : Instance → Instance) : (h.onInst g f).queues = h.queues := rfl
@[simp] theorem Hw.onInst_outs (h : Hw) (g : Nat) (f : Instance → Instance) : (h.onInst g f).outs = h.outs := rfl
@[simp] theorem Hw.onInst_answers (h : Hw) (g : Nat) (f : Instance → Instance) : (h.onInst g f).answers = h.answers := rfl
@[simp] theorem Hw.onInst_invalidations (h : Hw) (g : Nat) (f : Instance → Instance) : (h.onInst g f).invalidations = h.invalidations := rfl

@[simp] theorem Hw.onPair_freeCount (h : Hw) (f : Pair → Pair) : (h.onPair f).freeCount = h.freeCount := rfl
@[simp] theorem Hw.onPair_sys (h : Hw) (f : Pair → Pair) : (h.onPair f).sys = h.sys := rfl
@[simp] theorem Hw.onPair_fuses (h : Hw) (f : Pair → Pair) : (h.onPair f).fuses = h.fuses := rfl
@[simp] theorem Hw.onPair_fw (h : Hw) (f : Pair → Pair) : (h.onPair f).fw = h.fw := rfl
@[simp] theorem Hw.onPair_bist (h : Hw) (f : Pair → Pair) : (h.onPair f).bist = h.bist := rfl
@[simp] theorem Hw.onPair_clk (h : Hw) (f : Pair → Pair) : (h.onPair f).clk = h.clk := rfl
@[simp] theorem Hw.onPair_always (h : Hw) (f : Pair → Pair) : (h.onPair f).always = h.always := rfl
@[simp] theorem Hw.onPair_pwr (h : Hw) (f : Pair → Pair) : (h.onPair f).pwr = h.pwr := rfl
@[simp] theorem Hw.onPair_pcie (h : Hw) (f : Pair → Pair) : (h.onPair f).pcie = h.pcie := rfl
@[simp] theorem Hw.onPair_smb (h : Hw) (f : Pair → Pair) : (h.onPair f).smb = h.smb := rfl
@[simp] theorem Hw.onPair_tap (h : Hw) (f : Pair → Pair) : (h.onPair f).tap = h.tap := rfl
@[simp] theorem Hw.onPair_gpio (h : Hw) (f : Pair → Pair) : (h.onPair f).gpio = h.gpio := rfl
@[simp] theorem Hw.onPair_evc (h : Hw) (f : Pair → Pair) : (h.onPair f).evc = h.evc := rfl
@[simp] theorem Hw.onPair_logs (h : Hw) (f : Pair → Pair) : (h.onPair f).logs = h.logs := rfl
@[simp] theorem Hw.onPair_mbx (h : Hw) (f : Pair → Pair) : (h.onPair f).mbx = h.mbx := rfl
@[simp] theorem Hw.onPair_mbxOrder (h : Hw) (f : Pair → Pair) : (h.onPair f).mbxOrder = h.mbxOrder := rfl
@[simp] theorem Hw.onPair_mems (h : Hw) (f : Pair → Pair) : (h.onPair f).mems = h.mems := rfl
@[simp] theorem Hw.onPair_links (h : Hw) (f : Pair → Pair) : (h.onPair f).links = h.links := rfl
@[simp] theorem Hw.onPair_lanes (h : Hw) (f : Pair → Pair) : (h.onPair f).lanes = h.lanes := rfl
@[simp] theorem Hw.onPair_engines (h : Hw) (f : Pair → Pair) : (h.onPair f).engines = h.engines := rfl
@[simp] theorem Hw.onPair_router (h : Hw) (f : Pair → Pair) : (h.onPair f).router = h.router := rfl
@[simp] theorem Hw.onPair_time (h : Hw) (f : Pair → Pair) : (h.onPair f).time = h.time := rfl
@[simp] theorem Hw.onPair_stamp (h : Hw) (f : Pair → Pair) : (h.onPair f).stamp = h.stamp := rfl
@[simp] theorem Hw.onPair_regions (h : Hw) (f : Pair → Pair) : (h.onPair f).regions = h.regions := rfl
@[simp] theorem Hw.onPair_groups (h : Hw) (f : Pair → Pair) : (h.onPair f).groups = h.groups := rfl
@[simp] theorem Hw.onPair_dead (h : Hw) (f : Pair → Pair) : (h.onPair f).dead = h.dead := rfl
@[simp] theorem Hw.onPair_changes (h : Hw) (f : Pair → Pair) : (h.onPair f).changes = h.changes := rfl
@[simp] theorem Hw.onPair_snaps (h : Hw) (f : Pair → Pair) : (h.onPair f).snaps = h.snaps := rfl
@[simp] theorem Hw.onPair_switching (h : Hw) (f : Pair → Pair) : (h.onPair f).switching = h.switching := rfl
@[simp] theorem Hw.onPair_dirs (h : Hw) (f : Pair → Pair) : (h.onPair f).dirs = h.dirs := rfl
@[simp] theorem Hw.onPair_homeTimeout (h : Hw) (f : Pair → Pair) : (h.onPair f).homeTimeout = h.homeTimeout := rfl
@[simp] theorem Hw.onPair_suspects (h : Hw) (f : Pair → Pair) : (h.onPair f).suspects = h.suspects := rfl
@[simp] theorem Hw.onPair_bulk (h : Hw) (f : Pair → Pair) : (h.onPair f).bulk = h.bulk := rfl
@[simp] theorem Hw.onPair_parked (h : Hw) (f : Pair → Pair) : (h.onPair f).parked = h.parked := rfl
@[simp] theorem Hw.onPair_contexts (h : Hw) (f : Pair → Pair) : (h.onPair f).contexts = h.contexts := rfl
@[simp] theorem Hw.onPair_tiles (h : Hw) (f : Pair → Pair) : (h.onPair f).tiles = h.tiles := rfl
@[simp] theorem Hw.onPair_queues (h : Hw) (f : Pair → Pair) : (h.onPair f).queues = h.queues := rfl
@[simp] theorem Hw.onPair_outs (h : Hw) (f : Pair → Pair) : (h.onPair f).outs = h.outs := rfl
@[simp] theorem Hw.onPair_answers (h : Hw) (f : Pair → Pair) : (h.onPair f).answers = h.answers := rfl
@[simp] theorem Hw.onPair_invalidations (h : Hw) (f : Pair → Pair) : (h.onPair f).invalidations = h.invalidations := rfl
@[simp] theorem Hw.onPair_colls (h : Hw) (f : Pair → Pair) : (h.onPair f).colls = h.colls := rfl
@[simp] theorem Hw.onPair_pair (h : Hw) (f : Pair → Pair) : (h.onPair f).pair = f h.pair := rfl

@[simp] theorem Hw.onPcie_freeCount (h : Hw) (f : PcieEndpoint → PcieEndpoint) : (h.onPcie f).freeCount = h.freeCount := rfl
@[simp] theorem Hw.onPcie_sys (h : Hw) (f : PcieEndpoint → PcieEndpoint) : (h.onPcie f).sys = h.sys := rfl
@[simp] theorem Hw.onPcie_fuses (h : Hw) (f : PcieEndpoint → PcieEndpoint) : (h.onPcie f).fuses = h.fuses := rfl
@[simp] theorem Hw.onPcie_fw (h : Hw) (f : PcieEndpoint → PcieEndpoint) : (h.onPcie f).fw = h.fw := rfl
@[simp] theorem Hw.onPcie_bist (h : Hw) (f : PcieEndpoint → PcieEndpoint) : (h.onPcie f).bist = h.bist := rfl
@[simp] theorem Hw.onPcie_clk (h : Hw) (f : PcieEndpoint → PcieEndpoint) : (h.onPcie f).clk = h.clk := rfl
@[simp] theorem Hw.onPcie_always (h : Hw) (f : PcieEndpoint → PcieEndpoint) : (h.onPcie f).always = h.always := rfl
@[simp] theorem Hw.onPcie_pwr (h : Hw) (f : PcieEndpoint → PcieEndpoint) : (h.onPcie f).pwr = h.pwr := rfl
@[simp] theorem Hw.onPcie_smb (h : Hw) (f : PcieEndpoint → PcieEndpoint) : (h.onPcie f).smb = h.smb := rfl
@[simp] theorem Hw.onPcie_tap (h : Hw) (f : PcieEndpoint → PcieEndpoint) : (h.onPcie f).tap = h.tap := rfl
@[simp] theorem Hw.onPcie_gpio (h : Hw) (f : PcieEndpoint → PcieEndpoint) : (h.onPcie f).gpio = h.gpio := rfl
@[simp] theorem Hw.onPcie_evc (h : Hw) (f : PcieEndpoint → PcieEndpoint) : (h.onPcie f).evc = h.evc := rfl
@[simp] theorem Hw.onPcie_logs (h : Hw) (f : PcieEndpoint → PcieEndpoint) : (h.onPcie f).logs = h.logs := rfl
@[simp] theorem Hw.onPcie_mbx (h : Hw) (f : PcieEndpoint → PcieEndpoint) : (h.onPcie f).mbx = h.mbx := rfl
@[simp] theorem Hw.onPcie_mbxOrder (h : Hw) (f : PcieEndpoint → PcieEndpoint) : (h.onPcie f).mbxOrder = h.mbxOrder := rfl
@[simp] theorem Hw.onPcie_mems (h : Hw) (f : PcieEndpoint → PcieEndpoint) : (h.onPcie f).mems = h.mems := rfl
@[simp] theorem Hw.onPcie_links (h : Hw) (f : PcieEndpoint → PcieEndpoint) : (h.onPcie f).links = h.links := rfl
@[simp] theorem Hw.onPcie_lanes (h : Hw) (f : PcieEndpoint → PcieEndpoint) : (h.onPcie f).lanes = h.lanes := rfl
@[simp] theorem Hw.onPcie_engines (h : Hw) (f : PcieEndpoint → PcieEndpoint) : (h.onPcie f).engines = h.engines := rfl
@[simp] theorem Hw.onPcie_router (h : Hw) (f : PcieEndpoint → PcieEndpoint) : (h.onPcie f).router = h.router := rfl
@[simp] theorem Hw.onPcie_time (h : Hw) (f : PcieEndpoint → PcieEndpoint) : (h.onPcie f).time = h.time := rfl
@[simp] theorem Hw.onPcie_pair (h : Hw) (f : PcieEndpoint → PcieEndpoint) : (h.onPcie f).pair = h.pair := rfl
@[simp] theorem Hw.onPcie_stamp (h : Hw) (f : PcieEndpoint → PcieEndpoint) : (h.onPcie f).stamp = h.stamp := rfl
@[simp] theorem Hw.onPcie_regions (h : Hw) (f : PcieEndpoint → PcieEndpoint) : (h.onPcie f).regions = h.regions := rfl
@[simp] theorem Hw.onPcie_groups (h : Hw) (f : PcieEndpoint → PcieEndpoint) : (h.onPcie f).groups = h.groups := rfl
@[simp] theorem Hw.onPcie_dead (h : Hw) (f : PcieEndpoint → PcieEndpoint) : (h.onPcie f).dead = h.dead := rfl
@[simp] theorem Hw.onPcie_changes (h : Hw) (f : PcieEndpoint → PcieEndpoint) : (h.onPcie f).changes = h.changes := rfl
@[simp] theorem Hw.onPcie_snaps (h : Hw) (f : PcieEndpoint → PcieEndpoint) : (h.onPcie f).snaps = h.snaps := rfl
@[simp] theorem Hw.onPcie_switching (h : Hw) (f : PcieEndpoint → PcieEndpoint) : (h.onPcie f).switching = h.switching := rfl
@[simp] theorem Hw.onPcie_dirs (h : Hw) (f : PcieEndpoint → PcieEndpoint) : (h.onPcie f).dirs = h.dirs := rfl
@[simp] theorem Hw.onPcie_homeTimeout (h : Hw) (f : PcieEndpoint → PcieEndpoint) : (h.onPcie f).homeTimeout = h.homeTimeout := rfl
@[simp] theorem Hw.onPcie_suspects (h : Hw) (f : PcieEndpoint → PcieEndpoint) : (h.onPcie f).suspects = h.suspects := rfl
@[simp] theorem Hw.onPcie_bulk (h : Hw) (f : PcieEndpoint → PcieEndpoint) : (h.onPcie f).bulk = h.bulk := rfl
@[simp] theorem Hw.onPcie_parked (h : Hw) (f : PcieEndpoint → PcieEndpoint) : (h.onPcie f).parked = h.parked := rfl
@[simp] theorem Hw.onPcie_contexts (h : Hw) (f : PcieEndpoint → PcieEndpoint) : (h.onPcie f).contexts = h.contexts := rfl
@[simp] theorem Hw.onPcie_tiles (h : Hw) (f : PcieEndpoint → PcieEndpoint) : (h.onPcie f).tiles = h.tiles := rfl
@[simp] theorem Hw.onPcie_queues (h : Hw) (f : PcieEndpoint → PcieEndpoint) : (h.onPcie f).queues = h.queues := rfl
@[simp] theorem Hw.onPcie_outs (h : Hw) (f : PcieEndpoint → PcieEndpoint) : (h.onPcie f).outs = h.outs := rfl
@[simp] theorem Hw.onPcie_answers (h : Hw) (f : PcieEndpoint → PcieEndpoint) : (h.onPcie f).answers = h.answers := rfl
@[simp] theorem Hw.onPcie_invalidations (h : Hw) (f : PcieEndpoint → PcieEndpoint) : (h.onPcie f).invalidations = h.invalidations := rfl
@[simp] theorem Hw.onPcie_colls (h : Hw) (f : PcieEndpoint → PcieEndpoint) : (h.onPcie f).colls = h.colls := rfl
@[simp] theorem Hw.onPcie_pcie (h : Hw) (f : PcieEndpoint → PcieEndpoint) : (h.onPcie f).pcie = f h.pcie := rfl

@[simp] theorem Hw.onPwr_freeCount (h : Hw) (f : Power → Power) : (h.onPwr f).freeCount = h.freeCount := rfl
@[simp] theorem Hw.onPwr_sys (h : Hw) (f : Power → Power) : (h.onPwr f).sys = h.sys := rfl
@[simp] theorem Hw.onPwr_fuses (h : Hw) (f : Power → Power) : (h.onPwr f).fuses = h.fuses := rfl
@[simp] theorem Hw.onPwr_fw (h : Hw) (f : Power → Power) : (h.onPwr f).fw = h.fw := rfl
@[simp] theorem Hw.onPwr_bist (h : Hw) (f : Power → Power) : (h.onPwr f).bist = h.bist := rfl
@[simp] theorem Hw.onPwr_clk (h : Hw) (f : Power → Power) : (h.onPwr f).clk = h.clk := rfl
@[simp] theorem Hw.onPwr_always (h : Hw) (f : Power → Power) : (h.onPwr f).always = h.always := rfl
@[simp] theorem Hw.onPwr_pcie (h : Hw) (f : Power → Power) : (h.onPwr f).pcie = h.pcie := rfl
@[simp] theorem Hw.onPwr_smb (h : Hw) (f : Power → Power) : (h.onPwr f).smb = h.smb := rfl
@[simp] theorem Hw.onPwr_tap (h : Hw) (f : Power → Power) : (h.onPwr f).tap = h.tap := rfl
@[simp] theorem Hw.onPwr_gpio (h : Hw) (f : Power → Power) : (h.onPwr f).gpio = h.gpio := rfl
@[simp] theorem Hw.onPwr_evc (h : Hw) (f : Power → Power) : (h.onPwr f).evc = h.evc := rfl
@[simp] theorem Hw.onPwr_logs (h : Hw) (f : Power → Power) : (h.onPwr f).logs = h.logs := rfl
@[simp] theorem Hw.onPwr_mbx (h : Hw) (f : Power → Power) : (h.onPwr f).mbx = h.mbx := rfl
@[simp] theorem Hw.onPwr_mbxOrder (h : Hw) (f : Power → Power) : (h.onPwr f).mbxOrder = h.mbxOrder := rfl
@[simp] theorem Hw.onPwr_mems (h : Hw) (f : Power → Power) : (h.onPwr f).mems = h.mems := rfl
@[simp] theorem Hw.onPwr_links (h : Hw) (f : Power → Power) : (h.onPwr f).links = h.links := rfl
@[simp] theorem Hw.onPwr_lanes (h : Hw) (f : Power → Power) : (h.onPwr f).lanes = h.lanes := rfl
@[simp] theorem Hw.onPwr_engines (h : Hw) (f : Power → Power) : (h.onPwr f).engines = h.engines := rfl
@[simp] theorem Hw.onPwr_router (h : Hw) (f : Power → Power) : (h.onPwr f).router = h.router := rfl
@[simp] theorem Hw.onPwr_time (h : Hw) (f : Power → Power) : (h.onPwr f).time = h.time := rfl
@[simp] theorem Hw.onPwr_pair (h : Hw) (f : Power → Power) : (h.onPwr f).pair = h.pair := rfl
@[simp] theorem Hw.onPwr_stamp (h : Hw) (f : Power → Power) : (h.onPwr f).stamp = h.stamp := rfl
@[simp] theorem Hw.onPwr_regions (h : Hw) (f : Power → Power) : (h.onPwr f).regions = h.regions := rfl
@[simp] theorem Hw.onPwr_groups (h : Hw) (f : Power → Power) : (h.onPwr f).groups = h.groups := rfl
@[simp] theorem Hw.onPwr_dead (h : Hw) (f : Power → Power) : (h.onPwr f).dead = h.dead := rfl
@[simp] theorem Hw.onPwr_changes (h : Hw) (f : Power → Power) : (h.onPwr f).changes = h.changes := rfl
@[simp] theorem Hw.onPwr_snaps (h : Hw) (f : Power → Power) : (h.onPwr f).snaps = h.snaps := rfl
@[simp] theorem Hw.onPwr_switching (h : Hw) (f : Power → Power) : (h.onPwr f).switching = h.switching := rfl
@[simp] theorem Hw.onPwr_dirs (h : Hw) (f : Power → Power) : (h.onPwr f).dirs = h.dirs := rfl
@[simp] theorem Hw.onPwr_homeTimeout (h : Hw) (f : Power → Power) : (h.onPwr f).homeTimeout = h.homeTimeout := rfl
@[simp] theorem Hw.onPwr_suspects (h : Hw) (f : Power → Power) : (h.onPwr f).suspects = h.suspects := rfl
@[simp] theorem Hw.onPwr_bulk (h : Hw) (f : Power → Power) : (h.onPwr f).bulk = h.bulk := rfl
@[simp] theorem Hw.onPwr_parked (h : Hw) (f : Power → Power) : (h.onPwr f).parked = h.parked := rfl
@[simp] theorem Hw.onPwr_contexts (h : Hw) (f : Power → Power) : (h.onPwr f).contexts = h.contexts := rfl
@[simp] theorem Hw.onPwr_tiles (h : Hw) (f : Power → Power) : (h.onPwr f).tiles = h.tiles := rfl
@[simp] theorem Hw.onPwr_queues (h : Hw) (f : Power → Power) : (h.onPwr f).queues = h.queues := rfl
@[simp] theorem Hw.onPwr_outs (h : Hw) (f : Power → Power) : (h.onPwr f).outs = h.outs := rfl
@[simp] theorem Hw.onPwr_answers (h : Hw) (f : Power → Power) : (h.onPwr f).answers = h.answers := rfl
@[simp] theorem Hw.onPwr_invalidations (h : Hw) (f : Power → Power) : (h.onPwr f).invalidations = h.invalidations := rfl
@[simp] theorem Hw.onPwr_colls (h : Hw) (f : Power → Power) : (h.onPwr f).colls = h.colls := rfl
@[simp] theorem Hw.onPwr_pwr (h : Hw) (f : Power → Power) : (h.onPwr f).pwr = f h.pwr := rfl

@[simp] theorem Hw.onSmb_freeCount (h : Hw) (f : Smbus → Smbus) : (h.onSmb f).freeCount = h.freeCount := rfl
@[simp] theorem Hw.onSmb_sys (h : Hw) (f : Smbus → Smbus) : (h.onSmb f).sys = h.sys := rfl
@[simp] theorem Hw.onSmb_fuses (h : Hw) (f : Smbus → Smbus) : (h.onSmb f).fuses = h.fuses := rfl
@[simp] theorem Hw.onSmb_fw (h : Hw) (f : Smbus → Smbus) : (h.onSmb f).fw = h.fw := rfl
@[simp] theorem Hw.onSmb_bist (h : Hw) (f : Smbus → Smbus) : (h.onSmb f).bist = h.bist := rfl
@[simp] theorem Hw.onSmb_clk (h : Hw) (f : Smbus → Smbus) : (h.onSmb f).clk = h.clk := rfl
@[simp] theorem Hw.onSmb_always (h : Hw) (f : Smbus → Smbus) : (h.onSmb f).always = h.always := rfl
@[simp] theorem Hw.onSmb_pwr (h : Hw) (f : Smbus → Smbus) : (h.onSmb f).pwr = h.pwr := rfl
@[simp] theorem Hw.onSmb_pcie (h : Hw) (f : Smbus → Smbus) : (h.onSmb f).pcie = h.pcie := rfl
@[simp] theorem Hw.onSmb_tap (h : Hw) (f : Smbus → Smbus) : (h.onSmb f).tap = h.tap := rfl
@[simp] theorem Hw.onSmb_gpio (h : Hw) (f : Smbus → Smbus) : (h.onSmb f).gpio = h.gpio := rfl
@[simp] theorem Hw.onSmb_evc (h : Hw) (f : Smbus → Smbus) : (h.onSmb f).evc = h.evc := rfl
@[simp] theorem Hw.onSmb_logs (h : Hw) (f : Smbus → Smbus) : (h.onSmb f).logs = h.logs := rfl
@[simp] theorem Hw.onSmb_mbx (h : Hw) (f : Smbus → Smbus) : (h.onSmb f).mbx = h.mbx := rfl
@[simp] theorem Hw.onSmb_mbxOrder (h : Hw) (f : Smbus → Smbus) : (h.onSmb f).mbxOrder = h.mbxOrder := rfl
@[simp] theorem Hw.onSmb_mems (h : Hw) (f : Smbus → Smbus) : (h.onSmb f).mems = h.mems := rfl
@[simp] theorem Hw.onSmb_links (h : Hw) (f : Smbus → Smbus) : (h.onSmb f).links = h.links := rfl
@[simp] theorem Hw.onSmb_lanes (h : Hw) (f : Smbus → Smbus) : (h.onSmb f).lanes = h.lanes := rfl
@[simp] theorem Hw.onSmb_engines (h : Hw) (f : Smbus → Smbus) : (h.onSmb f).engines = h.engines := rfl
@[simp] theorem Hw.onSmb_router (h : Hw) (f : Smbus → Smbus) : (h.onSmb f).router = h.router := rfl
@[simp] theorem Hw.onSmb_time (h : Hw) (f : Smbus → Smbus) : (h.onSmb f).time = h.time := rfl
@[simp] theorem Hw.onSmb_pair (h : Hw) (f : Smbus → Smbus) : (h.onSmb f).pair = h.pair := rfl
@[simp] theorem Hw.onSmb_stamp (h : Hw) (f : Smbus → Smbus) : (h.onSmb f).stamp = h.stamp := rfl
@[simp] theorem Hw.onSmb_regions (h : Hw) (f : Smbus → Smbus) : (h.onSmb f).regions = h.regions := rfl
@[simp] theorem Hw.onSmb_groups (h : Hw) (f : Smbus → Smbus) : (h.onSmb f).groups = h.groups := rfl
@[simp] theorem Hw.onSmb_dead (h : Hw) (f : Smbus → Smbus) : (h.onSmb f).dead = h.dead := rfl
@[simp] theorem Hw.onSmb_changes (h : Hw) (f : Smbus → Smbus) : (h.onSmb f).changes = h.changes := rfl
@[simp] theorem Hw.onSmb_snaps (h : Hw) (f : Smbus → Smbus) : (h.onSmb f).snaps = h.snaps := rfl
@[simp] theorem Hw.onSmb_switching (h : Hw) (f : Smbus → Smbus) : (h.onSmb f).switching = h.switching := rfl
@[simp] theorem Hw.onSmb_dirs (h : Hw) (f : Smbus → Smbus) : (h.onSmb f).dirs = h.dirs := rfl
@[simp] theorem Hw.onSmb_homeTimeout (h : Hw) (f : Smbus → Smbus) : (h.onSmb f).homeTimeout = h.homeTimeout := rfl
@[simp] theorem Hw.onSmb_suspects (h : Hw) (f : Smbus → Smbus) : (h.onSmb f).suspects = h.suspects := rfl
@[simp] theorem Hw.onSmb_bulk (h : Hw) (f : Smbus → Smbus) : (h.onSmb f).bulk = h.bulk := rfl
@[simp] theorem Hw.onSmb_parked (h : Hw) (f : Smbus → Smbus) : (h.onSmb f).parked = h.parked := rfl
@[simp] theorem Hw.onSmb_contexts (h : Hw) (f : Smbus → Smbus) : (h.onSmb f).contexts = h.contexts := rfl
@[simp] theorem Hw.onSmb_tiles (h : Hw) (f : Smbus → Smbus) : (h.onSmb f).tiles = h.tiles := rfl
@[simp] theorem Hw.onSmb_queues (h : Hw) (f : Smbus → Smbus) : (h.onSmb f).queues = h.queues := rfl
@[simp] theorem Hw.onSmb_outs (h : Hw) (f : Smbus → Smbus) : (h.onSmb f).outs = h.outs := rfl
@[simp] theorem Hw.onSmb_answers (h : Hw) (f : Smbus → Smbus) : (h.onSmb f).answers = h.answers := rfl
@[simp] theorem Hw.onSmb_invalidations (h : Hw) (f : Smbus → Smbus) : (h.onSmb f).invalidations = h.invalidations := rfl
@[simp] theorem Hw.onSmb_colls (h : Hw) (f : Smbus → Smbus) : (h.onSmb f).colls = h.colls := rfl
@[simp] theorem Hw.onSmb_smb (h : Hw) (f : Smbus → Smbus) : (h.onSmb f).smb = f h.smb := rfl

@[simp] theorem Hw.onSys_freeCount (h : Hw) (f : Sys → Sys) : (h.onSys f).freeCount = h.freeCount := rfl
@[simp] theorem Hw.onSys_fuses (h : Hw) (f : Sys → Sys) : (h.onSys f).fuses = h.fuses := rfl
@[simp] theorem Hw.onSys_fw (h : Hw) (f : Sys → Sys) : (h.onSys f).fw = h.fw := rfl
@[simp] theorem Hw.onSys_bist (h : Hw) (f : Sys → Sys) : (h.onSys f).bist = h.bist := rfl
@[simp] theorem Hw.onSys_clk (h : Hw) (f : Sys → Sys) : (h.onSys f).clk = h.clk := rfl
@[simp] theorem Hw.onSys_always (h : Hw) (f : Sys → Sys) : (h.onSys f).always = h.always := rfl
@[simp] theorem Hw.onSys_pwr (h : Hw) (f : Sys → Sys) : (h.onSys f).pwr = h.pwr := rfl
@[simp] theorem Hw.onSys_pcie (h : Hw) (f : Sys → Sys) : (h.onSys f).pcie = h.pcie := rfl
@[simp] theorem Hw.onSys_smb (h : Hw) (f : Sys → Sys) : (h.onSys f).smb = h.smb := rfl
@[simp] theorem Hw.onSys_tap (h : Hw) (f : Sys → Sys) : (h.onSys f).tap = h.tap := rfl
@[simp] theorem Hw.onSys_gpio (h : Hw) (f : Sys → Sys) : (h.onSys f).gpio = h.gpio := rfl
@[simp] theorem Hw.onSys_evc (h : Hw) (f : Sys → Sys) : (h.onSys f).evc = h.evc := rfl
@[simp] theorem Hw.onSys_logs (h : Hw) (f : Sys → Sys) : (h.onSys f).logs = h.logs := rfl
@[simp] theorem Hw.onSys_mbx (h : Hw) (f : Sys → Sys) : (h.onSys f).mbx = h.mbx := rfl
@[simp] theorem Hw.onSys_mbxOrder (h : Hw) (f : Sys → Sys) : (h.onSys f).mbxOrder = h.mbxOrder := rfl
@[simp] theorem Hw.onSys_mems (h : Hw) (f : Sys → Sys) : (h.onSys f).mems = h.mems := rfl
@[simp] theorem Hw.onSys_links (h : Hw) (f : Sys → Sys) : (h.onSys f).links = h.links := rfl
@[simp] theorem Hw.onSys_lanes (h : Hw) (f : Sys → Sys) : (h.onSys f).lanes = h.lanes := rfl
@[simp] theorem Hw.onSys_engines (h : Hw) (f : Sys → Sys) : (h.onSys f).engines = h.engines := rfl
@[simp] theorem Hw.onSys_router (h : Hw) (f : Sys → Sys) : (h.onSys f).router = h.router := rfl
@[simp] theorem Hw.onSys_time (h : Hw) (f : Sys → Sys) : (h.onSys f).time = h.time := rfl
@[simp] theorem Hw.onSys_pair (h : Hw) (f : Sys → Sys) : (h.onSys f).pair = h.pair := rfl
@[simp] theorem Hw.onSys_stamp (h : Hw) (f : Sys → Sys) : (h.onSys f).stamp = h.stamp := rfl
@[simp] theorem Hw.onSys_regions (h : Hw) (f : Sys → Sys) : (h.onSys f).regions = h.regions := rfl
@[simp] theorem Hw.onSys_groups (h : Hw) (f : Sys → Sys) : (h.onSys f).groups = h.groups := rfl
@[simp] theorem Hw.onSys_dead (h : Hw) (f : Sys → Sys) : (h.onSys f).dead = h.dead := rfl
@[simp] theorem Hw.onSys_changes (h : Hw) (f : Sys → Sys) : (h.onSys f).changes = h.changes := rfl
@[simp] theorem Hw.onSys_snaps (h : Hw) (f : Sys → Sys) : (h.onSys f).snaps = h.snaps := rfl
@[simp] theorem Hw.onSys_switching (h : Hw) (f : Sys → Sys) : (h.onSys f).switching = h.switching := rfl
@[simp] theorem Hw.onSys_dirs (h : Hw) (f : Sys → Sys) : (h.onSys f).dirs = h.dirs := rfl
@[simp] theorem Hw.onSys_homeTimeout (h : Hw) (f : Sys → Sys) : (h.onSys f).homeTimeout = h.homeTimeout := rfl
@[simp] theorem Hw.onSys_suspects (h : Hw) (f : Sys → Sys) : (h.onSys f).suspects = h.suspects := rfl
@[simp] theorem Hw.onSys_bulk (h : Hw) (f : Sys → Sys) : (h.onSys f).bulk = h.bulk := rfl
@[simp] theorem Hw.onSys_parked (h : Hw) (f : Sys → Sys) : (h.onSys f).parked = h.parked := rfl
@[simp] theorem Hw.onSys_contexts (h : Hw) (f : Sys → Sys) : (h.onSys f).contexts = h.contexts := rfl
@[simp] theorem Hw.onSys_tiles (h : Hw) (f : Sys → Sys) : (h.onSys f).tiles = h.tiles := rfl
@[simp] theorem Hw.onSys_queues (h : Hw) (f : Sys → Sys) : (h.onSys f).queues = h.queues := rfl
@[simp] theorem Hw.onSys_outs (h : Hw) (f : Sys → Sys) : (h.onSys f).outs = h.outs := rfl
@[simp] theorem Hw.onSys_answers (h : Hw) (f : Sys → Sys) : (h.onSys f).answers = h.answers := rfl
@[simp] theorem Hw.onSys_invalidations (h : Hw) (f : Sys → Sys) : (h.onSys f).invalidations = h.invalidations := rfl
@[simp] theorem Hw.onSys_colls (h : Hw) (f : Sys → Sys) : (h.onSys f).colls = h.colls := rfl
@[simp] theorem Hw.onSys_sys (h : Hw) (f : Sys → Sys) : (h.onSys f).sys = f h.sys := rfl

@[simp] theorem Hw.onTap_freeCount (h : Hw) (f : Tap → Tap) : (h.onTap f).freeCount = h.freeCount := rfl
@[simp] theorem Hw.onTap_sys (h : Hw) (f : Tap → Tap) : (h.onTap f).sys = h.sys := rfl
@[simp] theorem Hw.onTap_fuses (h : Hw) (f : Tap → Tap) : (h.onTap f).fuses = h.fuses := rfl
@[simp] theorem Hw.onTap_fw (h : Hw) (f : Tap → Tap) : (h.onTap f).fw = h.fw := rfl
@[simp] theorem Hw.onTap_bist (h : Hw) (f : Tap → Tap) : (h.onTap f).bist = h.bist := rfl
@[simp] theorem Hw.onTap_clk (h : Hw) (f : Tap → Tap) : (h.onTap f).clk = h.clk := rfl
@[simp] theorem Hw.onTap_always (h : Hw) (f : Tap → Tap) : (h.onTap f).always = h.always := rfl
@[simp] theorem Hw.onTap_pwr (h : Hw) (f : Tap → Tap) : (h.onTap f).pwr = h.pwr := rfl
@[simp] theorem Hw.onTap_pcie (h : Hw) (f : Tap → Tap) : (h.onTap f).pcie = h.pcie := rfl
@[simp] theorem Hw.onTap_smb (h : Hw) (f : Tap → Tap) : (h.onTap f).smb = h.smb := rfl
@[simp] theorem Hw.onTap_gpio (h : Hw) (f : Tap → Tap) : (h.onTap f).gpio = h.gpio := rfl
@[simp] theorem Hw.onTap_evc (h : Hw) (f : Tap → Tap) : (h.onTap f).evc = h.evc := rfl
@[simp] theorem Hw.onTap_logs (h : Hw) (f : Tap → Tap) : (h.onTap f).logs = h.logs := rfl
@[simp] theorem Hw.onTap_mbx (h : Hw) (f : Tap → Tap) : (h.onTap f).mbx = h.mbx := rfl
@[simp] theorem Hw.onTap_mbxOrder (h : Hw) (f : Tap → Tap) : (h.onTap f).mbxOrder = h.mbxOrder := rfl
@[simp] theorem Hw.onTap_mems (h : Hw) (f : Tap → Tap) : (h.onTap f).mems = h.mems := rfl
@[simp] theorem Hw.onTap_links (h : Hw) (f : Tap → Tap) : (h.onTap f).links = h.links := rfl
@[simp] theorem Hw.onTap_lanes (h : Hw) (f : Tap → Tap) : (h.onTap f).lanes = h.lanes := rfl
@[simp] theorem Hw.onTap_engines (h : Hw) (f : Tap → Tap) : (h.onTap f).engines = h.engines := rfl
@[simp] theorem Hw.onTap_router (h : Hw) (f : Tap → Tap) : (h.onTap f).router = h.router := rfl
@[simp] theorem Hw.onTap_time (h : Hw) (f : Tap → Tap) : (h.onTap f).time = h.time := rfl
@[simp] theorem Hw.onTap_pair (h : Hw) (f : Tap → Tap) : (h.onTap f).pair = h.pair := rfl
@[simp] theorem Hw.onTap_stamp (h : Hw) (f : Tap → Tap) : (h.onTap f).stamp = h.stamp := rfl
@[simp] theorem Hw.onTap_regions (h : Hw) (f : Tap → Tap) : (h.onTap f).regions = h.regions := rfl
@[simp] theorem Hw.onTap_groups (h : Hw) (f : Tap → Tap) : (h.onTap f).groups = h.groups := rfl
@[simp] theorem Hw.onTap_dead (h : Hw) (f : Tap → Tap) : (h.onTap f).dead = h.dead := rfl
@[simp] theorem Hw.onTap_changes (h : Hw) (f : Tap → Tap) : (h.onTap f).changes = h.changes := rfl
@[simp] theorem Hw.onTap_snaps (h : Hw) (f : Tap → Tap) : (h.onTap f).snaps = h.snaps := rfl
@[simp] theorem Hw.onTap_switching (h : Hw) (f : Tap → Tap) : (h.onTap f).switching = h.switching := rfl
@[simp] theorem Hw.onTap_dirs (h : Hw) (f : Tap → Tap) : (h.onTap f).dirs = h.dirs := rfl
@[simp] theorem Hw.onTap_homeTimeout (h : Hw) (f : Tap → Tap) : (h.onTap f).homeTimeout = h.homeTimeout := rfl
@[simp] theorem Hw.onTap_suspects (h : Hw) (f : Tap → Tap) : (h.onTap f).suspects = h.suspects := rfl
@[simp] theorem Hw.onTap_bulk (h : Hw) (f : Tap → Tap) : (h.onTap f).bulk = h.bulk := rfl
@[simp] theorem Hw.onTap_parked (h : Hw) (f : Tap → Tap) : (h.onTap f).parked = h.parked := rfl
@[simp] theorem Hw.onTap_contexts (h : Hw) (f : Tap → Tap) : (h.onTap f).contexts = h.contexts := rfl
@[simp] theorem Hw.onTap_tiles (h : Hw) (f : Tap → Tap) : (h.onTap f).tiles = h.tiles := rfl
@[simp] theorem Hw.onTap_queues (h : Hw) (f : Tap → Tap) : (h.onTap f).queues = h.queues := rfl
@[simp] theorem Hw.onTap_outs (h : Hw) (f : Tap → Tap) : (h.onTap f).outs = h.outs := rfl
@[simp] theorem Hw.onTap_answers (h : Hw) (f : Tap → Tap) : (h.onTap f).answers = h.answers := rfl
@[simp] theorem Hw.onTap_invalidations (h : Hw) (f : Tap → Tap) : (h.onTap f).invalidations = h.invalidations := rfl
@[simp] theorem Hw.onTap_colls (h : Hw) (f : Tap → Tap) : (h.onTap f).colls = h.colls := rfl
@[simp] theorem Hw.onTap_tap (h : Hw) (f : Tap → Tap) : (h.onTap f).tap = f h.tap := rfl

@[simp] theorem Hw.setColl_freeCount (h : Hw) (g : Nat) (x : Group) : (h.setColl g x).freeCount = h.freeCount := rfl
@[simp] theorem Hw.setColl_sys (h : Hw) (g : Nat) (x : Group) : (h.setColl g x).sys = h.sys := rfl
@[simp] theorem Hw.setColl_fuses (h : Hw) (g : Nat) (x : Group) : (h.setColl g x).fuses = h.fuses := rfl
@[simp] theorem Hw.setColl_fw (h : Hw) (g : Nat) (x : Group) : (h.setColl g x).fw = h.fw := rfl
@[simp] theorem Hw.setColl_bist (h : Hw) (g : Nat) (x : Group) : (h.setColl g x).bist = h.bist := rfl
@[simp] theorem Hw.setColl_clk (h : Hw) (g : Nat) (x : Group) : (h.setColl g x).clk = h.clk := rfl
@[simp] theorem Hw.setColl_always (h : Hw) (g : Nat) (x : Group) : (h.setColl g x).always = h.always := rfl
@[simp] theorem Hw.setColl_pwr (h : Hw) (g : Nat) (x : Group) : (h.setColl g x).pwr = h.pwr := rfl
@[simp] theorem Hw.setColl_pcie (h : Hw) (g : Nat) (x : Group) : (h.setColl g x).pcie = h.pcie := rfl
@[simp] theorem Hw.setColl_smb (h : Hw) (g : Nat) (x : Group) : (h.setColl g x).smb = h.smb := rfl
@[simp] theorem Hw.setColl_tap (h : Hw) (g : Nat) (x : Group) : (h.setColl g x).tap = h.tap := rfl
@[simp] theorem Hw.setColl_gpio (h : Hw) (g : Nat) (x : Group) : (h.setColl g x).gpio = h.gpio := rfl
@[simp] theorem Hw.setColl_evc (h : Hw) (g : Nat) (x : Group) : (h.setColl g x).evc = h.evc := rfl
@[simp] theorem Hw.setColl_logs (h : Hw) (g : Nat) (x : Group) : (h.setColl g x).logs = h.logs := rfl
@[simp] theorem Hw.setColl_mbx (h : Hw) (g : Nat) (x : Group) : (h.setColl g x).mbx = h.mbx := rfl
@[simp] theorem Hw.setColl_mbxOrder (h : Hw) (g : Nat) (x : Group) : (h.setColl g x).mbxOrder = h.mbxOrder := rfl
@[simp] theorem Hw.setColl_mems (h : Hw) (g : Nat) (x : Group) : (h.setColl g x).mems = h.mems := rfl
@[simp] theorem Hw.setColl_links (h : Hw) (g : Nat) (x : Group) : (h.setColl g x).links = h.links := rfl
@[simp] theorem Hw.setColl_lanes (h : Hw) (g : Nat) (x : Group) : (h.setColl g x).lanes = h.lanes := rfl
@[simp] theorem Hw.setColl_engines (h : Hw) (g : Nat) (x : Group) : (h.setColl g x).engines = h.engines := rfl
@[simp] theorem Hw.setColl_router (h : Hw) (g : Nat) (x : Group) : (h.setColl g x).router = h.router := rfl
@[simp] theorem Hw.setColl_time (h : Hw) (g : Nat) (x : Group) : (h.setColl g x).time = h.time := rfl
@[simp] theorem Hw.setColl_pair (h : Hw) (g : Nat) (x : Group) : (h.setColl g x).pair = h.pair := rfl
@[simp] theorem Hw.setColl_stamp (h : Hw) (g : Nat) (x : Group) : (h.setColl g x).stamp = h.stamp := rfl
@[simp] theorem Hw.setColl_regions (h : Hw) (g : Nat) (x : Group) : (h.setColl g x).regions = h.regions := rfl
@[simp] theorem Hw.setColl_groups (h : Hw) (g : Nat) (x : Group) : (h.setColl g x).groups = h.groups := rfl
@[simp] theorem Hw.setColl_dead (h : Hw) (g : Nat) (x : Group) : (h.setColl g x).dead = h.dead := rfl
@[simp] theorem Hw.setColl_changes (h : Hw) (g : Nat) (x : Group) : (h.setColl g x).changes = h.changes := rfl
@[simp] theorem Hw.setColl_snaps (h : Hw) (g : Nat) (x : Group) : (h.setColl g x).snaps = h.snaps := rfl
@[simp] theorem Hw.setColl_switching (h : Hw) (g : Nat) (x : Group) : (h.setColl g x).switching = h.switching := rfl
@[simp] theorem Hw.setColl_dirs (h : Hw) (g : Nat) (x : Group) : (h.setColl g x).dirs = h.dirs := rfl
@[simp] theorem Hw.setColl_homeTimeout (h : Hw) (g : Nat) (x : Group) : (h.setColl g x).homeTimeout = h.homeTimeout := rfl
@[simp] theorem Hw.setColl_suspects (h : Hw) (g : Nat) (x : Group) : (h.setColl g x).suspects = h.suspects := rfl
@[simp] theorem Hw.setColl_bulk (h : Hw) (g : Nat) (x : Group) : (h.setColl g x).bulk = h.bulk := rfl
@[simp] theorem Hw.setColl_parked (h : Hw) (g : Nat) (x : Group) : (h.setColl g x).parked = h.parked := rfl
@[simp] theorem Hw.setColl_contexts (h : Hw) (g : Nat) (x : Group) : (h.setColl g x).contexts = h.contexts := rfl
@[simp] theorem Hw.setColl_tiles (h : Hw) (g : Nat) (x : Group) : (h.setColl g x).tiles = h.tiles := rfl
@[simp] theorem Hw.setColl_queues (h : Hw) (g : Nat) (x : Group) : (h.setColl g x).queues = h.queues := rfl
@[simp] theorem Hw.setColl_outs (h : Hw) (g : Nat) (x : Group) : (h.setColl g x).outs = h.outs := rfl
@[simp] theorem Hw.setColl_answers (h : Hw) (g : Nat) (x : Group) : (h.setColl g x).answers = h.answers := rfl
@[simp] theorem Hw.setColl_invalidations (h : Hw) (g : Nat) (x : Group) : (h.setColl g x).invalidations = h.invalidations := rfl

@[simp] theorem Hw.setCtx_freeCount (h : Hw) (c : Nat) (x : Context) : (h.setCtx c x).freeCount = h.freeCount := rfl
@[simp] theorem Hw.setCtx_sys (h : Hw) (c : Nat) (x : Context) : (h.setCtx c x).sys = h.sys := rfl
@[simp] theorem Hw.setCtx_fuses (h : Hw) (c : Nat) (x : Context) : (h.setCtx c x).fuses = h.fuses := rfl
@[simp] theorem Hw.setCtx_fw (h : Hw) (c : Nat) (x : Context) : (h.setCtx c x).fw = h.fw := rfl
@[simp] theorem Hw.setCtx_bist (h : Hw) (c : Nat) (x : Context) : (h.setCtx c x).bist = h.bist := rfl
@[simp] theorem Hw.setCtx_clk (h : Hw) (c : Nat) (x : Context) : (h.setCtx c x).clk = h.clk := rfl
@[simp] theorem Hw.setCtx_always (h : Hw) (c : Nat) (x : Context) : (h.setCtx c x).always = h.always := rfl
@[simp] theorem Hw.setCtx_pwr (h : Hw) (c : Nat) (x : Context) : (h.setCtx c x).pwr = h.pwr := rfl
@[simp] theorem Hw.setCtx_pcie (h : Hw) (c : Nat) (x : Context) : (h.setCtx c x).pcie = h.pcie := rfl
@[simp] theorem Hw.setCtx_smb (h : Hw) (c : Nat) (x : Context) : (h.setCtx c x).smb = h.smb := rfl
@[simp] theorem Hw.setCtx_tap (h : Hw) (c : Nat) (x : Context) : (h.setCtx c x).tap = h.tap := rfl
@[simp] theorem Hw.setCtx_gpio (h : Hw) (c : Nat) (x : Context) : (h.setCtx c x).gpio = h.gpio := rfl
@[simp] theorem Hw.setCtx_evc (h : Hw) (c : Nat) (x : Context) : (h.setCtx c x).evc = h.evc := rfl
@[simp] theorem Hw.setCtx_logs (h : Hw) (c : Nat) (x : Context) : (h.setCtx c x).logs = h.logs := rfl
@[simp] theorem Hw.setCtx_mbx (h : Hw) (c : Nat) (x : Context) : (h.setCtx c x).mbx = h.mbx := rfl
@[simp] theorem Hw.setCtx_mbxOrder (h : Hw) (c : Nat) (x : Context) : (h.setCtx c x).mbxOrder = h.mbxOrder := rfl
@[simp] theorem Hw.setCtx_mems (h : Hw) (c : Nat) (x : Context) : (h.setCtx c x).mems = h.mems := rfl
@[simp] theorem Hw.setCtx_links (h : Hw) (c : Nat) (x : Context) : (h.setCtx c x).links = h.links := rfl
@[simp] theorem Hw.setCtx_lanes (h : Hw) (c : Nat) (x : Context) : (h.setCtx c x).lanes = h.lanes := rfl
@[simp] theorem Hw.setCtx_engines (h : Hw) (c : Nat) (x : Context) : (h.setCtx c x).engines = h.engines := rfl
@[simp] theorem Hw.setCtx_router (h : Hw) (c : Nat) (x : Context) : (h.setCtx c x).router = h.router := rfl
@[simp] theorem Hw.setCtx_time (h : Hw) (c : Nat) (x : Context) : (h.setCtx c x).time = h.time := rfl
@[simp] theorem Hw.setCtx_pair (h : Hw) (c : Nat) (x : Context) : (h.setCtx c x).pair = h.pair := rfl
@[simp] theorem Hw.setCtx_stamp (h : Hw) (c : Nat) (x : Context) : (h.setCtx c x).stamp = h.stamp := rfl
@[simp] theorem Hw.setCtx_regions (h : Hw) (c : Nat) (x : Context) : (h.setCtx c x).regions = h.regions := rfl
@[simp] theorem Hw.setCtx_groups (h : Hw) (c : Nat) (x : Context) : (h.setCtx c x).groups = h.groups := rfl
@[simp] theorem Hw.setCtx_dead (h : Hw) (c : Nat) (x : Context) : (h.setCtx c x).dead = h.dead := rfl
@[simp] theorem Hw.setCtx_changes (h : Hw) (c : Nat) (x : Context) : (h.setCtx c x).changes = h.changes := rfl
@[simp] theorem Hw.setCtx_snaps (h : Hw) (c : Nat) (x : Context) : (h.setCtx c x).snaps = h.snaps := rfl
@[simp] theorem Hw.setCtx_switching (h : Hw) (c : Nat) (x : Context) : (h.setCtx c x).switching = h.switching := rfl
@[simp] theorem Hw.setCtx_dirs (h : Hw) (c : Nat) (x : Context) : (h.setCtx c x).dirs = h.dirs := rfl
@[simp] theorem Hw.setCtx_homeTimeout (h : Hw) (c : Nat) (x : Context) : (h.setCtx c x).homeTimeout = h.homeTimeout := rfl
@[simp] theorem Hw.setCtx_suspects (h : Hw) (c : Nat) (x : Context) : (h.setCtx c x).suspects = h.suspects := rfl
@[simp] theorem Hw.setCtx_bulk (h : Hw) (c : Nat) (x : Context) : (h.setCtx c x).bulk = h.bulk := rfl
@[simp] theorem Hw.setCtx_parked (h : Hw) (c : Nat) (x : Context) : (h.setCtx c x).parked = h.parked := rfl
@[simp] theorem Hw.setCtx_tiles (h : Hw) (c : Nat) (x : Context) : (h.setCtx c x).tiles = h.tiles := rfl
@[simp] theorem Hw.setCtx_queues (h : Hw) (c : Nat) (x : Context) : (h.setCtx c x).queues = h.queues := rfl
@[simp] theorem Hw.setCtx_outs (h : Hw) (c : Nat) (x : Context) : (h.setCtx c x).outs = h.outs := rfl
@[simp] theorem Hw.setCtx_answers (h : Hw) (c : Nat) (x : Context) : (h.setCtx c x).answers = h.answers := rfl
@[simp] theorem Hw.setCtx_invalidations (h : Hw) (c : Nat) (x : Context) : (h.setCtx c x).invalidations = h.invalidations := rfl
@[simp] theorem Hw.setCtx_colls (h : Hw) (c : Nat) (x : Context) : (h.setCtx c x).colls = h.colls := rfl

@[simp] theorem Hw.setDir_freeCount (h : Hw) (t : Nat) (d : DirSlice) : (h.setDir t d).freeCount = h.freeCount := rfl
@[simp] theorem Hw.setDir_sys (h : Hw) (t : Nat) (d : DirSlice) : (h.setDir t d).sys = h.sys := rfl
@[simp] theorem Hw.setDir_fuses (h : Hw) (t : Nat) (d : DirSlice) : (h.setDir t d).fuses = h.fuses := rfl
@[simp] theorem Hw.setDir_fw (h : Hw) (t : Nat) (d : DirSlice) : (h.setDir t d).fw = h.fw := rfl
@[simp] theorem Hw.setDir_bist (h : Hw) (t : Nat) (d : DirSlice) : (h.setDir t d).bist = h.bist := rfl
@[simp] theorem Hw.setDir_clk (h : Hw) (t : Nat) (d : DirSlice) : (h.setDir t d).clk = h.clk := rfl
@[simp] theorem Hw.setDir_always (h : Hw) (t : Nat) (d : DirSlice) : (h.setDir t d).always = h.always := rfl
@[simp] theorem Hw.setDir_pwr (h : Hw) (t : Nat) (d : DirSlice) : (h.setDir t d).pwr = h.pwr := rfl
@[simp] theorem Hw.setDir_pcie (h : Hw) (t : Nat) (d : DirSlice) : (h.setDir t d).pcie = h.pcie := rfl
@[simp] theorem Hw.setDir_smb (h : Hw) (t : Nat) (d : DirSlice) : (h.setDir t d).smb = h.smb := rfl
@[simp] theorem Hw.setDir_tap (h : Hw) (t : Nat) (d : DirSlice) : (h.setDir t d).tap = h.tap := rfl
@[simp] theorem Hw.setDir_gpio (h : Hw) (t : Nat) (d : DirSlice) : (h.setDir t d).gpio = h.gpio := rfl
@[simp] theorem Hw.setDir_evc (h : Hw) (t : Nat) (d : DirSlice) : (h.setDir t d).evc = h.evc := rfl
@[simp] theorem Hw.setDir_logs (h : Hw) (t : Nat) (d : DirSlice) : (h.setDir t d).logs = h.logs := rfl
@[simp] theorem Hw.setDir_mbx (h : Hw) (t : Nat) (d : DirSlice) : (h.setDir t d).mbx = h.mbx := rfl
@[simp] theorem Hw.setDir_mbxOrder (h : Hw) (t : Nat) (d : DirSlice) : (h.setDir t d).mbxOrder = h.mbxOrder := rfl
@[simp] theorem Hw.setDir_mems (h : Hw) (t : Nat) (d : DirSlice) : (h.setDir t d).mems = h.mems := rfl
@[simp] theorem Hw.setDir_links (h : Hw) (t : Nat) (d : DirSlice) : (h.setDir t d).links = h.links := rfl
@[simp] theorem Hw.setDir_lanes (h : Hw) (t : Nat) (d : DirSlice) : (h.setDir t d).lanes = h.lanes := rfl
@[simp] theorem Hw.setDir_engines (h : Hw) (t : Nat) (d : DirSlice) : (h.setDir t d).engines = h.engines := rfl
@[simp] theorem Hw.setDir_router (h : Hw) (t : Nat) (d : DirSlice) : (h.setDir t d).router = h.router := rfl
@[simp] theorem Hw.setDir_time (h : Hw) (t : Nat) (d : DirSlice) : (h.setDir t d).time = h.time := rfl
@[simp] theorem Hw.setDir_pair (h : Hw) (t : Nat) (d : DirSlice) : (h.setDir t d).pair = h.pair := rfl
@[simp] theorem Hw.setDir_stamp (h : Hw) (t : Nat) (d : DirSlice) : (h.setDir t d).stamp = h.stamp := rfl
@[simp] theorem Hw.setDir_regions (h : Hw) (t : Nat) (d : DirSlice) : (h.setDir t d).regions = h.regions := rfl
@[simp] theorem Hw.setDir_groups (h : Hw) (t : Nat) (d : DirSlice) : (h.setDir t d).groups = h.groups := rfl
@[simp] theorem Hw.setDir_dead (h : Hw) (t : Nat) (d : DirSlice) : (h.setDir t d).dead = h.dead := rfl
@[simp] theorem Hw.setDir_changes (h : Hw) (t : Nat) (d : DirSlice) : (h.setDir t d).changes = h.changes := rfl
@[simp] theorem Hw.setDir_snaps (h : Hw) (t : Nat) (d : DirSlice) : (h.setDir t d).snaps = h.snaps := rfl
@[simp] theorem Hw.setDir_switching (h : Hw) (t : Nat) (d : DirSlice) : (h.setDir t d).switching = h.switching := rfl
@[simp] theorem Hw.setDir_homeTimeout (h : Hw) (t : Nat) (d : DirSlice) : (h.setDir t d).homeTimeout = h.homeTimeout := rfl
@[simp] theorem Hw.setDir_suspects (h : Hw) (t : Nat) (d : DirSlice) : (h.setDir t d).suspects = h.suspects := rfl
@[simp] theorem Hw.setDir_bulk (h : Hw) (t : Nat) (d : DirSlice) : (h.setDir t d).bulk = h.bulk := rfl
@[simp] theorem Hw.setDir_parked (h : Hw) (t : Nat) (d : DirSlice) : (h.setDir t d).parked = h.parked := rfl
@[simp] theorem Hw.setDir_contexts (h : Hw) (t : Nat) (d : DirSlice) : (h.setDir t d).contexts = h.contexts := rfl
@[simp] theorem Hw.setDir_tiles (h : Hw) (t : Nat) (d : DirSlice) : (h.setDir t d).tiles = h.tiles := rfl
@[simp] theorem Hw.setDir_queues (h : Hw) (t : Nat) (d : DirSlice) : (h.setDir t d).queues = h.queues := rfl
@[simp] theorem Hw.setDir_outs (h : Hw) (t : Nat) (d : DirSlice) : (h.setDir t d).outs = h.outs := rfl
@[simp] theorem Hw.setDir_answers (h : Hw) (t : Nat) (d : DirSlice) : (h.setDir t d).answers = h.answers := rfl
@[simp] theorem Hw.setDir_invalidations (h : Hw) (t : Nat) (d : DirSlice) : (h.setDir t d).invalidations = h.invalidations := rfl
@[simp] theorem Hw.setDir_colls (h : Hw) (t : Nat) (d : DirSlice) : (h.setDir t d).colls = h.colls := rfl

@[simp] theorem Hw.setDomain_freeCount (h : Hw) (d : Nat) (x : ClockDomain) : (h.setDomain d x).freeCount = h.freeCount := rfl
@[simp] theorem Hw.setDomain_sys (h : Hw) (d : Nat) (x : ClockDomain) : (h.setDomain d x).sys = h.sys := rfl
@[simp] theorem Hw.setDomain_fuses (h : Hw) (d : Nat) (x : ClockDomain) : (h.setDomain d x).fuses = h.fuses := rfl
@[simp] theorem Hw.setDomain_fw (h : Hw) (d : Nat) (x : ClockDomain) : (h.setDomain d x).fw = h.fw := rfl
@[simp] theorem Hw.setDomain_bist (h : Hw) (d : Nat) (x : ClockDomain) : (h.setDomain d x).bist = h.bist := rfl
@[simp] theorem Hw.setDomain_always (h : Hw) (d : Nat) (x : ClockDomain) : (h.setDomain d x).always = h.always := rfl
@[simp] theorem Hw.setDomain_pwr (h : Hw) (d : Nat) (x : ClockDomain) : (h.setDomain d x).pwr = h.pwr := rfl
@[simp] theorem Hw.setDomain_pcie (h : Hw) (d : Nat) (x : ClockDomain) : (h.setDomain d x).pcie = h.pcie := rfl
@[simp] theorem Hw.setDomain_smb (h : Hw) (d : Nat) (x : ClockDomain) : (h.setDomain d x).smb = h.smb := rfl
@[simp] theorem Hw.setDomain_tap (h : Hw) (d : Nat) (x : ClockDomain) : (h.setDomain d x).tap = h.tap := rfl
@[simp] theorem Hw.setDomain_gpio (h : Hw) (d : Nat) (x : ClockDomain) : (h.setDomain d x).gpio = h.gpio := rfl
@[simp] theorem Hw.setDomain_evc (h : Hw) (d : Nat) (x : ClockDomain) : (h.setDomain d x).evc = h.evc := rfl
@[simp] theorem Hw.setDomain_logs (h : Hw) (d : Nat) (x : ClockDomain) : (h.setDomain d x).logs = h.logs := rfl
@[simp] theorem Hw.setDomain_mbx (h : Hw) (d : Nat) (x : ClockDomain) : (h.setDomain d x).mbx = h.mbx := rfl
@[simp] theorem Hw.setDomain_mbxOrder (h : Hw) (d : Nat) (x : ClockDomain) : (h.setDomain d x).mbxOrder = h.mbxOrder := rfl
@[simp] theorem Hw.setDomain_mems (h : Hw) (d : Nat) (x : ClockDomain) : (h.setDomain d x).mems = h.mems := rfl
@[simp] theorem Hw.setDomain_links (h : Hw) (d : Nat) (x : ClockDomain) : (h.setDomain d x).links = h.links := rfl
@[simp] theorem Hw.setDomain_lanes (h : Hw) (d : Nat) (x : ClockDomain) : (h.setDomain d x).lanes = h.lanes := rfl
@[simp] theorem Hw.setDomain_engines (h : Hw) (d : Nat) (x : ClockDomain) : (h.setDomain d x).engines = h.engines := rfl
@[simp] theorem Hw.setDomain_router (h : Hw) (d : Nat) (x : ClockDomain) : (h.setDomain d x).router = h.router := rfl
@[simp] theorem Hw.setDomain_time (h : Hw) (d : Nat) (x : ClockDomain) : (h.setDomain d x).time = h.time := rfl
@[simp] theorem Hw.setDomain_pair (h : Hw) (d : Nat) (x : ClockDomain) : (h.setDomain d x).pair = h.pair := rfl
@[simp] theorem Hw.setDomain_stamp (h : Hw) (d : Nat) (x : ClockDomain) : (h.setDomain d x).stamp = h.stamp := rfl
@[simp] theorem Hw.setDomain_regions (h : Hw) (d : Nat) (x : ClockDomain) : (h.setDomain d x).regions = h.regions := rfl
@[simp] theorem Hw.setDomain_groups (h : Hw) (d : Nat) (x : ClockDomain) : (h.setDomain d x).groups = h.groups := rfl
@[simp] theorem Hw.setDomain_dead (h : Hw) (d : Nat) (x : ClockDomain) : (h.setDomain d x).dead = h.dead := rfl
@[simp] theorem Hw.setDomain_changes (h : Hw) (d : Nat) (x : ClockDomain) : (h.setDomain d x).changes = h.changes := rfl
@[simp] theorem Hw.setDomain_snaps (h : Hw) (d : Nat) (x : ClockDomain) : (h.setDomain d x).snaps = h.snaps := rfl
@[simp] theorem Hw.setDomain_switching (h : Hw) (d : Nat) (x : ClockDomain) : (h.setDomain d x).switching = h.switching := rfl
@[simp] theorem Hw.setDomain_dirs (h : Hw) (d : Nat) (x : ClockDomain) : (h.setDomain d x).dirs = h.dirs := rfl
@[simp] theorem Hw.setDomain_homeTimeout (h : Hw) (d : Nat) (x : ClockDomain) : (h.setDomain d x).homeTimeout = h.homeTimeout := rfl
@[simp] theorem Hw.setDomain_suspects (h : Hw) (d : Nat) (x : ClockDomain) : (h.setDomain d x).suspects = h.suspects := rfl
@[simp] theorem Hw.setDomain_bulk (h : Hw) (d : Nat) (x : ClockDomain) : (h.setDomain d x).bulk = h.bulk := rfl
@[simp] theorem Hw.setDomain_parked (h : Hw) (d : Nat) (x : ClockDomain) : (h.setDomain d x).parked = h.parked := rfl
@[simp] theorem Hw.setDomain_contexts (h : Hw) (d : Nat) (x : ClockDomain) : (h.setDomain d x).contexts = h.contexts := rfl
@[simp] theorem Hw.setDomain_tiles (h : Hw) (d : Nat) (x : ClockDomain) : (h.setDomain d x).tiles = h.tiles := rfl
@[simp] theorem Hw.setDomain_queues (h : Hw) (d : Nat) (x : ClockDomain) : (h.setDomain d x).queues = h.queues := rfl
@[simp] theorem Hw.setDomain_outs (h : Hw) (d : Nat) (x : ClockDomain) : (h.setDomain d x).outs = h.outs := rfl
@[simp] theorem Hw.setDomain_answers (h : Hw) (d : Nat) (x : ClockDomain) : (h.setDomain d x).answers = h.answers := rfl
@[simp] theorem Hw.setDomain_invalidations (h : Hw) (d : Nat) (x : ClockDomain) : (h.setDomain d x).invalidations = h.invalidations := rfl
@[simp] theorem Hw.setDomain_colls (h : Hw) (d : Nat) (x : ClockDomain) : (h.setDomain d x).colls = h.colls := rfl

@[simp] theorem Hw.setEngine_freeCount (h : Hw) (n : Nat) (x : Engine) : (h.setEngine n x).freeCount = h.freeCount := rfl
@[simp] theorem Hw.setEngine_sys (h : Hw) (n : Nat) (x : Engine) : (h.setEngine n x).sys = h.sys := rfl
@[simp] theorem Hw.setEngine_fuses (h : Hw) (n : Nat) (x : Engine) : (h.setEngine n x).fuses = h.fuses := rfl
@[simp] theorem Hw.setEngine_fw (h : Hw) (n : Nat) (x : Engine) : (h.setEngine n x).fw = h.fw := rfl
@[simp] theorem Hw.setEngine_bist (h : Hw) (n : Nat) (x : Engine) : (h.setEngine n x).bist = h.bist := rfl
@[simp] theorem Hw.setEngine_clk (h : Hw) (n : Nat) (x : Engine) : (h.setEngine n x).clk = h.clk := rfl
@[simp] theorem Hw.setEngine_always (h : Hw) (n : Nat) (x : Engine) : (h.setEngine n x).always = h.always := rfl
@[simp] theorem Hw.setEngine_pwr (h : Hw) (n : Nat) (x : Engine) : (h.setEngine n x).pwr = h.pwr := rfl
@[simp] theorem Hw.setEngine_pcie (h : Hw) (n : Nat) (x : Engine) : (h.setEngine n x).pcie = h.pcie := rfl
@[simp] theorem Hw.setEngine_smb (h : Hw) (n : Nat) (x : Engine) : (h.setEngine n x).smb = h.smb := rfl
@[simp] theorem Hw.setEngine_tap (h : Hw) (n : Nat) (x : Engine) : (h.setEngine n x).tap = h.tap := rfl
@[simp] theorem Hw.setEngine_gpio (h : Hw) (n : Nat) (x : Engine) : (h.setEngine n x).gpio = h.gpio := rfl
@[simp] theorem Hw.setEngine_evc (h : Hw) (n : Nat) (x : Engine) : (h.setEngine n x).evc = h.evc := rfl
@[simp] theorem Hw.setEngine_logs (h : Hw) (n : Nat) (x : Engine) : (h.setEngine n x).logs = h.logs := rfl
@[simp] theorem Hw.setEngine_mbx (h : Hw) (n : Nat) (x : Engine) : (h.setEngine n x).mbx = h.mbx := rfl
@[simp] theorem Hw.setEngine_mbxOrder (h : Hw) (n : Nat) (x : Engine) : (h.setEngine n x).mbxOrder = h.mbxOrder := rfl
@[simp] theorem Hw.setEngine_mems (h : Hw) (n : Nat) (x : Engine) : (h.setEngine n x).mems = h.mems := rfl
@[simp] theorem Hw.setEngine_links (h : Hw) (n : Nat) (x : Engine) : (h.setEngine n x).links = h.links := rfl
@[simp] theorem Hw.setEngine_lanes (h : Hw) (n : Nat) (x : Engine) : (h.setEngine n x).lanes = h.lanes := rfl
@[simp] theorem Hw.setEngine_router (h : Hw) (n : Nat) (x : Engine) : (h.setEngine n x).router = h.router := rfl
@[simp] theorem Hw.setEngine_time (h : Hw) (n : Nat) (x : Engine) : (h.setEngine n x).time = h.time := rfl
@[simp] theorem Hw.setEngine_pair (h : Hw) (n : Nat) (x : Engine) : (h.setEngine n x).pair = h.pair := rfl
@[simp] theorem Hw.setEngine_stamp (h : Hw) (n : Nat) (x : Engine) : (h.setEngine n x).stamp = h.stamp := rfl
@[simp] theorem Hw.setEngine_regions (h : Hw) (n : Nat) (x : Engine) : (h.setEngine n x).regions = h.regions := rfl
@[simp] theorem Hw.setEngine_groups (h : Hw) (n : Nat) (x : Engine) : (h.setEngine n x).groups = h.groups := rfl
@[simp] theorem Hw.setEngine_dead (h : Hw) (n : Nat) (x : Engine) : (h.setEngine n x).dead = h.dead := rfl
@[simp] theorem Hw.setEngine_changes (h : Hw) (n : Nat) (x : Engine) : (h.setEngine n x).changes = h.changes := rfl
@[simp] theorem Hw.setEngine_snaps (h : Hw) (n : Nat) (x : Engine) : (h.setEngine n x).snaps = h.snaps := rfl
@[simp] theorem Hw.setEngine_switching (h : Hw) (n : Nat) (x : Engine) : (h.setEngine n x).switching = h.switching := rfl
@[simp] theorem Hw.setEngine_dirs (h : Hw) (n : Nat) (x : Engine) : (h.setEngine n x).dirs = h.dirs := rfl
@[simp] theorem Hw.setEngine_homeTimeout (h : Hw) (n : Nat) (x : Engine) : (h.setEngine n x).homeTimeout = h.homeTimeout := rfl
@[simp] theorem Hw.setEngine_suspects (h : Hw) (n : Nat) (x : Engine) : (h.setEngine n x).suspects = h.suspects := rfl
@[simp] theorem Hw.setEngine_bulk (h : Hw) (n : Nat) (x : Engine) : (h.setEngine n x).bulk = h.bulk := rfl
@[simp] theorem Hw.setEngine_parked (h : Hw) (n : Nat) (x : Engine) : (h.setEngine n x).parked = h.parked := rfl
@[simp] theorem Hw.setEngine_contexts (h : Hw) (n : Nat) (x : Engine) : (h.setEngine n x).contexts = h.contexts := rfl
@[simp] theorem Hw.setEngine_tiles (h : Hw) (n : Nat) (x : Engine) : (h.setEngine n x).tiles = h.tiles := rfl
@[simp] theorem Hw.setEngine_queues (h : Hw) (n : Nat) (x : Engine) : (h.setEngine n x).queues = h.queues := rfl
@[simp] theorem Hw.setEngine_outs (h : Hw) (n : Nat) (x : Engine) : (h.setEngine n x).outs = h.outs := rfl
@[simp] theorem Hw.setEngine_answers (h : Hw) (n : Nat) (x : Engine) : (h.setEngine n x).answers = h.answers := rfl
@[simp] theorem Hw.setEngine_invalidations (h : Hw) (n : Nat) (x : Engine) : (h.setEngine n x).invalidations = h.invalidations := rfl
@[simp] theorem Hw.setEngine_colls (h : Hw) (n : Nat) (x : Engine) : (h.setEngine n x).colls = h.colls := rfl

@[simp] theorem Hw.setExec_freeCount (h : Hw) (q i : Nat) (e : Exec) : (h.setExec q i e).freeCount = h.freeCount := rfl
@[simp] theorem Hw.setExec_sys (h : Hw) (q i : Nat) (e : Exec) : (h.setExec q i e).sys = h.sys := rfl
@[simp] theorem Hw.setExec_fuses (h : Hw) (q i : Nat) (e : Exec) : (h.setExec q i e).fuses = h.fuses := rfl
@[simp] theorem Hw.setExec_fw (h : Hw) (q i : Nat) (e : Exec) : (h.setExec q i e).fw = h.fw := rfl
@[simp] theorem Hw.setExec_bist (h : Hw) (q i : Nat) (e : Exec) : (h.setExec q i e).bist = h.bist := rfl
@[simp] theorem Hw.setExec_clk (h : Hw) (q i : Nat) (e : Exec) : (h.setExec q i e).clk = h.clk := rfl
@[simp] theorem Hw.setExec_always (h : Hw) (q i : Nat) (e : Exec) : (h.setExec q i e).always = h.always := rfl
@[simp] theorem Hw.setExec_pwr (h : Hw) (q i : Nat) (e : Exec) : (h.setExec q i e).pwr = h.pwr := rfl
@[simp] theorem Hw.setExec_pcie (h : Hw) (q i : Nat) (e : Exec) : (h.setExec q i e).pcie = h.pcie := rfl
@[simp] theorem Hw.setExec_smb (h : Hw) (q i : Nat) (e : Exec) : (h.setExec q i e).smb = h.smb := rfl
@[simp] theorem Hw.setExec_tap (h : Hw) (q i : Nat) (e : Exec) : (h.setExec q i e).tap = h.tap := rfl
@[simp] theorem Hw.setExec_gpio (h : Hw) (q i : Nat) (e : Exec) : (h.setExec q i e).gpio = h.gpio := rfl
@[simp] theorem Hw.setExec_evc (h : Hw) (q i : Nat) (e : Exec) : (h.setExec q i e).evc = h.evc := rfl
@[simp] theorem Hw.setExec_logs (h : Hw) (q i : Nat) (e : Exec) : (h.setExec q i e).logs = h.logs := rfl
@[simp] theorem Hw.setExec_mbx (h : Hw) (q i : Nat) (e : Exec) : (h.setExec q i e).mbx = h.mbx := rfl
@[simp] theorem Hw.setExec_mbxOrder (h : Hw) (q i : Nat) (e : Exec) : (h.setExec q i e).mbxOrder = h.mbxOrder := rfl
@[simp] theorem Hw.setExec_mems (h : Hw) (q i : Nat) (e : Exec) : (h.setExec q i e).mems = h.mems := rfl
@[simp] theorem Hw.setExec_links (h : Hw) (q i : Nat) (e : Exec) : (h.setExec q i e).links = h.links := rfl
@[simp] theorem Hw.setExec_lanes (h : Hw) (q i : Nat) (e : Exec) : (h.setExec q i e).lanes = h.lanes := rfl
@[simp] theorem Hw.setExec_engines (h : Hw) (q i : Nat) (e : Exec) : (h.setExec q i e).engines = h.engines := rfl
@[simp] theorem Hw.setExec_router (h : Hw) (q i : Nat) (e : Exec) : (h.setExec q i e).router = h.router := rfl
@[simp] theorem Hw.setExec_time (h : Hw) (q i : Nat) (e : Exec) : (h.setExec q i e).time = h.time := rfl
@[simp] theorem Hw.setExec_pair (h : Hw) (q i : Nat) (e : Exec) : (h.setExec q i e).pair = h.pair := rfl
@[simp] theorem Hw.setExec_stamp (h : Hw) (q i : Nat) (e : Exec) : (h.setExec q i e).stamp = h.stamp := rfl
@[simp] theorem Hw.setExec_regions (h : Hw) (q i : Nat) (e : Exec) : (h.setExec q i e).regions = h.regions := rfl
@[simp] theorem Hw.setExec_groups (h : Hw) (q i : Nat) (e : Exec) : (h.setExec q i e).groups = h.groups := rfl
@[simp] theorem Hw.setExec_dead (h : Hw) (q i : Nat) (e : Exec) : (h.setExec q i e).dead = h.dead := rfl
@[simp] theorem Hw.setExec_changes (h : Hw) (q i : Nat) (e : Exec) : (h.setExec q i e).changes = h.changes := rfl
@[simp] theorem Hw.setExec_snaps (h : Hw) (q i : Nat) (e : Exec) : (h.setExec q i e).snaps = h.snaps := rfl
@[simp] theorem Hw.setExec_switching (h : Hw) (q i : Nat) (e : Exec) : (h.setExec q i e).switching = h.switching := rfl
@[simp] theorem Hw.setExec_dirs (h : Hw) (q i : Nat) (e : Exec) : (h.setExec q i e).dirs = h.dirs := rfl
@[simp] theorem Hw.setExec_homeTimeout (h : Hw) (q i : Nat) (e : Exec) : (h.setExec q i e).homeTimeout = h.homeTimeout := rfl
@[simp] theorem Hw.setExec_suspects (h : Hw) (q i : Nat) (e : Exec) : (h.setExec q i e).suspects = h.suspects := rfl
@[simp] theorem Hw.setExec_bulk (h : Hw) (q i : Nat) (e : Exec) : (h.setExec q i e).bulk = h.bulk := rfl
@[simp] theorem Hw.setExec_parked (h : Hw) (q i : Nat) (e : Exec) : (h.setExec q i e).parked = h.parked := rfl
@[simp] theorem Hw.setExec_contexts (h : Hw) (q i : Nat) (e : Exec) : (h.setExec q i e).contexts = h.contexts := rfl
@[simp] theorem Hw.setExec_tiles (h : Hw) (q i : Nat) (e : Exec) : (h.setExec q i e).tiles = h.tiles := rfl
@[simp] theorem Hw.setExec_outs (h : Hw) (q i : Nat) (e : Exec) : (h.setExec q i e).outs = h.outs := rfl
@[simp] theorem Hw.setExec_answers (h : Hw) (q i : Nat) (e : Exec) : (h.setExec q i e).answers = h.answers := rfl
@[simp] theorem Hw.setExec_invalidations (h : Hw) (q i : Nat) (e : Exec) : (h.setExec q i e).invalidations = h.invalidations := rfl
@[simp] theorem Hw.setExec_colls (h : Hw) (q i : Nat) (e : Exec) : (h.setExec q i e).colls = h.colls := rfl

@[simp] theorem Hw.setHorizon_freeCount (h : Hw) (port : Nat) (x : Horizon) : (h.setHorizon port x).freeCount = h.freeCount := rfl
@[simp] theorem Hw.setHorizon_sys (h : Hw) (port : Nat) (x : Horizon) : (h.setHorizon port x).sys = h.sys := rfl
@[simp] theorem Hw.setHorizon_fuses (h : Hw) (port : Nat) (x : Horizon) : (h.setHorizon port x).fuses = h.fuses := rfl
@[simp] theorem Hw.setHorizon_fw (h : Hw) (port : Nat) (x : Horizon) : (h.setHorizon port x).fw = h.fw := rfl
@[simp] theorem Hw.setHorizon_bist (h : Hw) (port : Nat) (x : Horizon) : (h.setHorizon port x).bist = h.bist := rfl
@[simp] theorem Hw.setHorizon_clk (h : Hw) (port : Nat) (x : Horizon) : (h.setHorizon port x).clk = h.clk := rfl
@[simp] theorem Hw.setHorizon_always (h : Hw) (port : Nat) (x : Horizon) : (h.setHorizon port x).always = h.always := rfl
@[simp] theorem Hw.setHorizon_pwr (h : Hw) (port : Nat) (x : Horizon) : (h.setHorizon port x).pwr = h.pwr := rfl
@[simp] theorem Hw.setHorizon_pcie (h : Hw) (port : Nat) (x : Horizon) : (h.setHorizon port x).pcie = h.pcie := rfl
@[simp] theorem Hw.setHorizon_smb (h : Hw) (port : Nat) (x : Horizon) : (h.setHorizon port x).smb = h.smb := rfl
@[simp] theorem Hw.setHorizon_tap (h : Hw) (port : Nat) (x : Horizon) : (h.setHorizon port x).tap = h.tap := rfl
@[simp] theorem Hw.setHorizon_gpio (h : Hw) (port : Nat) (x : Horizon) : (h.setHorizon port x).gpio = h.gpio := rfl
@[simp] theorem Hw.setHorizon_evc (h : Hw) (port : Nat) (x : Horizon) : (h.setHorizon port x).evc = h.evc := rfl
@[simp] theorem Hw.setHorizon_logs (h : Hw) (port : Nat) (x : Horizon) : (h.setHorizon port x).logs = h.logs := rfl
@[simp] theorem Hw.setHorizon_mbx (h : Hw) (port : Nat) (x : Horizon) : (h.setHorizon port x).mbx = h.mbx := rfl
@[simp] theorem Hw.setHorizon_mbxOrder (h : Hw) (port : Nat) (x : Horizon) : (h.setHorizon port x).mbxOrder = h.mbxOrder := rfl
@[simp] theorem Hw.setHorizon_mems (h : Hw) (port : Nat) (x : Horizon) : (h.setHorizon port x).mems = h.mems := rfl
@[simp] theorem Hw.setHorizon_links (h : Hw) (port : Nat) (x : Horizon) : (h.setHorizon port x).links = h.links := rfl
@[simp] theorem Hw.setHorizon_lanes (h : Hw) (port : Nat) (x : Horizon) : (h.setHorizon port x).lanes = h.lanes := rfl
@[simp] theorem Hw.setHorizon_engines (h : Hw) (port : Nat) (x : Horizon) : (h.setHorizon port x).engines = h.engines := rfl
@[simp] theorem Hw.setHorizon_time (h : Hw) (port : Nat) (x : Horizon) : (h.setHorizon port x).time = h.time := rfl
@[simp] theorem Hw.setHorizon_pair (h : Hw) (port : Nat) (x : Horizon) : (h.setHorizon port x).pair = h.pair := rfl
@[simp] theorem Hw.setHorizon_stamp (h : Hw) (port : Nat) (x : Horizon) : (h.setHorizon port x).stamp = h.stamp := rfl
@[simp] theorem Hw.setHorizon_regions (h : Hw) (port : Nat) (x : Horizon) : (h.setHorizon port x).regions = h.regions := rfl
@[simp] theorem Hw.setHorizon_groups (h : Hw) (port : Nat) (x : Horizon) : (h.setHorizon port x).groups = h.groups := rfl
@[simp] theorem Hw.setHorizon_dead (h : Hw) (port : Nat) (x : Horizon) : (h.setHorizon port x).dead = h.dead := rfl
@[simp] theorem Hw.setHorizon_changes (h : Hw) (port : Nat) (x : Horizon) : (h.setHorizon port x).changes = h.changes := rfl
@[simp] theorem Hw.setHorizon_snaps (h : Hw) (port : Nat) (x : Horizon) : (h.setHorizon port x).snaps = h.snaps := rfl
@[simp] theorem Hw.setHorizon_switching (h : Hw) (port : Nat) (x : Horizon) : (h.setHorizon port x).switching = h.switching := rfl
@[simp] theorem Hw.setHorizon_dirs (h : Hw) (port : Nat) (x : Horizon) : (h.setHorizon port x).dirs = h.dirs := rfl
@[simp] theorem Hw.setHorizon_homeTimeout (h : Hw) (port : Nat) (x : Horizon) : (h.setHorizon port x).homeTimeout = h.homeTimeout := rfl
@[simp] theorem Hw.setHorizon_suspects (h : Hw) (port : Nat) (x : Horizon) : (h.setHorizon port x).suspects = h.suspects := rfl
@[simp] theorem Hw.setHorizon_bulk (h : Hw) (port : Nat) (x : Horizon) : (h.setHorizon port x).bulk = h.bulk := rfl
@[simp] theorem Hw.setHorizon_parked (h : Hw) (port : Nat) (x : Horizon) : (h.setHorizon port x).parked = h.parked := rfl
@[simp] theorem Hw.setHorizon_contexts (h : Hw) (port : Nat) (x : Horizon) : (h.setHorizon port x).contexts = h.contexts := rfl
@[simp] theorem Hw.setHorizon_tiles (h : Hw) (port : Nat) (x : Horizon) : (h.setHorizon port x).tiles = h.tiles := rfl
@[simp] theorem Hw.setHorizon_queues (h : Hw) (port : Nat) (x : Horizon) : (h.setHorizon port x).queues = h.queues := rfl
@[simp] theorem Hw.setHorizon_outs (h : Hw) (port : Nat) (x : Horizon) : (h.setHorizon port x).outs = h.outs := rfl
@[simp] theorem Hw.setHorizon_answers (h : Hw) (port : Nat) (x : Horizon) : (h.setHorizon port x).answers = h.answers := rfl
@[simp] theorem Hw.setHorizon_invalidations (h : Hw) (port : Nat) (x : Horizon) : (h.setHorizon port x).invalidations = h.invalidations := rfl
@[simp] theorem Hw.setHorizon_colls (h : Hw) (port : Nat) (x : Horizon) : (h.setHorizon port x).colls = h.colls := rfl

@[simp] theorem Hw.setLane_freeCount (h : Hw) (n : Nat) (x : Lane) : (h.setLane n x).freeCount = h.freeCount := rfl
@[simp] theorem Hw.setLane_sys (h : Hw) (n : Nat) (x : Lane) : (h.setLane n x).sys = h.sys := rfl
@[simp] theorem Hw.setLane_fuses (h : Hw) (n : Nat) (x : Lane) : (h.setLane n x).fuses = h.fuses := rfl
@[simp] theorem Hw.setLane_fw (h : Hw) (n : Nat) (x : Lane) : (h.setLane n x).fw = h.fw := rfl
@[simp] theorem Hw.setLane_bist (h : Hw) (n : Nat) (x : Lane) : (h.setLane n x).bist = h.bist := rfl
@[simp] theorem Hw.setLane_clk (h : Hw) (n : Nat) (x : Lane) : (h.setLane n x).clk = h.clk := rfl
@[simp] theorem Hw.setLane_always (h : Hw) (n : Nat) (x : Lane) : (h.setLane n x).always = h.always := rfl
@[simp] theorem Hw.setLane_pwr (h : Hw) (n : Nat) (x : Lane) : (h.setLane n x).pwr = h.pwr := rfl
@[simp] theorem Hw.setLane_pcie (h : Hw) (n : Nat) (x : Lane) : (h.setLane n x).pcie = h.pcie := rfl
@[simp] theorem Hw.setLane_smb (h : Hw) (n : Nat) (x : Lane) : (h.setLane n x).smb = h.smb := rfl
@[simp] theorem Hw.setLane_tap (h : Hw) (n : Nat) (x : Lane) : (h.setLane n x).tap = h.tap := rfl
@[simp] theorem Hw.setLane_gpio (h : Hw) (n : Nat) (x : Lane) : (h.setLane n x).gpio = h.gpio := rfl
@[simp] theorem Hw.setLane_evc (h : Hw) (n : Nat) (x : Lane) : (h.setLane n x).evc = h.evc := rfl
@[simp] theorem Hw.setLane_logs (h : Hw) (n : Nat) (x : Lane) : (h.setLane n x).logs = h.logs := rfl
@[simp] theorem Hw.setLane_mbx (h : Hw) (n : Nat) (x : Lane) : (h.setLane n x).mbx = h.mbx := rfl
@[simp] theorem Hw.setLane_mbxOrder (h : Hw) (n : Nat) (x : Lane) : (h.setLane n x).mbxOrder = h.mbxOrder := rfl
@[simp] theorem Hw.setLane_mems (h : Hw) (n : Nat) (x : Lane) : (h.setLane n x).mems = h.mems := rfl
@[simp] theorem Hw.setLane_links (h : Hw) (n : Nat) (x : Lane) : (h.setLane n x).links = h.links := rfl
@[simp] theorem Hw.setLane_engines (h : Hw) (n : Nat) (x : Lane) : (h.setLane n x).engines = h.engines := rfl
@[simp] theorem Hw.setLane_router (h : Hw) (n : Nat) (x : Lane) : (h.setLane n x).router = h.router := rfl
@[simp] theorem Hw.setLane_time (h : Hw) (n : Nat) (x : Lane) : (h.setLane n x).time = h.time := rfl
@[simp] theorem Hw.setLane_pair (h : Hw) (n : Nat) (x : Lane) : (h.setLane n x).pair = h.pair := rfl
@[simp] theorem Hw.setLane_stamp (h : Hw) (n : Nat) (x : Lane) : (h.setLane n x).stamp = h.stamp := rfl
@[simp] theorem Hw.setLane_regions (h : Hw) (n : Nat) (x : Lane) : (h.setLane n x).regions = h.regions := rfl
@[simp] theorem Hw.setLane_groups (h : Hw) (n : Nat) (x : Lane) : (h.setLane n x).groups = h.groups := rfl
@[simp] theorem Hw.setLane_dead (h : Hw) (n : Nat) (x : Lane) : (h.setLane n x).dead = h.dead := rfl
@[simp] theorem Hw.setLane_changes (h : Hw) (n : Nat) (x : Lane) : (h.setLane n x).changes = h.changes := rfl
@[simp] theorem Hw.setLane_snaps (h : Hw) (n : Nat) (x : Lane) : (h.setLane n x).snaps = h.snaps := rfl
@[simp] theorem Hw.setLane_switching (h : Hw) (n : Nat) (x : Lane) : (h.setLane n x).switching = h.switching := rfl
@[simp] theorem Hw.setLane_dirs (h : Hw) (n : Nat) (x : Lane) : (h.setLane n x).dirs = h.dirs := rfl
@[simp] theorem Hw.setLane_homeTimeout (h : Hw) (n : Nat) (x : Lane) : (h.setLane n x).homeTimeout = h.homeTimeout := rfl
@[simp] theorem Hw.setLane_suspects (h : Hw) (n : Nat) (x : Lane) : (h.setLane n x).suspects = h.suspects := rfl
@[simp] theorem Hw.setLane_bulk (h : Hw) (n : Nat) (x : Lane) : (h.setLane n x).bulk = h.bulk := rfl
@[simp] theorem Hw.setLane_parked (h : Hw) (n : Nat) (x : Lane) : (h.setLane n x).parked = h.parked := rfl
@[simp] theorem Hw.setLane_contexts (h : Hw) (n : Nat) (x : Lane) : (h.setLane n x).contexts = h.contexts := rfl
@[simp] theorem Hw.setLane_tiles (h : Hw) (n : Nat) (x : Lane) : (h.setLane n x).tiles = h.tiles := rfl
@[simp] theorem Hw.setLane_queues (h : Hw) (n : Nat) (x : Lane) : (h.setLane n x).queues = h.queues := rfl
@[simp] theorem Hw.setLane_outs (h : Hw) (n : Nat) (x : Lane) : (h.setLane n x).outs = h.outs := rfl
@[simp] theorem Hw.setLane_answers (h : Hw) (n : Nat) (x : Lane) : (h.setLane n x).answers = h.answers := rfl
@[simp] theorem Hw.setLane_invalidations (h : Hw) (n : Nat) (x : Lane) : (h.setLane n x).invalidations = h.invalidations := rfl
@[simp] theorem Hw.setLane_colls (h : Hw) (n : Nat) (x : Lane) : (h.setLane n x).colls = h.colls := rfl

@[simp] theorem Hw.setLink_freeCount (h : Hw) (n : Nat) (x : Link) : (h.setLink n x).freeCount = h.freeCount := rfl
@[simp] theorem Hw.setLink_sys (h : Hw) (n : Nat) (x : Link) : (h.setLink n x).sys = h.sys := rfl
@[simp] theorem Hw.setLink_fuses (h : Hw) (n : Nat) (x : Link) : (h.setLink n x).fuses = h.fuses := rfl
@[simp] theorem Hw.setLink_fw (h : Hw) (n : Nat) (x : Link) : (h.setLink n x).fw = h.fw := rfl
@[simp] theorem Hw.setLink_bist (h : Hw) (n : Nat) (x : Link) : (h.setLink n x).bist = h.bist := rfl
@[simp] theorem Hw.setLink_clk (h : Hw) (n : Nat) (x : Link) : (h.setLink n x).clk = h.clk := rfl
@[simp] theorem Hw.setLink_always (h : Hw) (n : Nat) (x : Link) : (h.setLink n x).always = h.always := rfl
@[simp] theorem Hw.setLink_pwr (h : Hw) (n : Nat) (x : Link) : (h.setLink n x).pwr = h.pwr := rfl
@[simp] theorem Hw.setLink_pcie (h : Hw) (n : Nat) (x : Link) : (h.setLink n x).pcie = h.pcie := rfl
@[simp] theorem Hw.setLink_smb (h : Hw) (n : Nat) (x : Link) : (h.setLink n x).smb = h.smb := rfl
@[simp] theorem Hw.setLink_tap (h : Hw) (n : Nat) (x : Link) : (h.setLink n x).tap = h.tap := rfl
@[simp] theorem Hw.setLink_gpio (h : Hw) (n : Nat) (x : Link) : (h.setLink n x).gpio = h.gpio := rfl
@[simp] theorem Hw.setLink_evc (h : Hw) (n : Nat) (x : Link) : (h.setLink n x).evc = h.evc := rfl
@[simp] theorem Hw.setLink_logs (h : Hw) (n : Nat) (x : Link) : (h.setLink n x).logs = h.logs := rfl
@[simp] theorem Hw.setLink_mbx (h : Hw) (n : Nat) (x : Link) : (h.setLink n x).mbx = h.mbx := rfl
@[simp] theorem Hw.setLink_mbxOrder (h : Hw) (n : Nat) (x : Link) : (h.setLink n x).mbxOrder = h.mbxOrder := rfl
@[simp] theorem Hw.setLink_mems (h : Hw) (n : Nat) (x : Link) : (h.setLink n x).mems = h.mems := rfl
@[simp] theorem Hw.setLink_lanes (h : Hw) (n : Nat) (x : Link) : (h.setLink n x).lanes = h.lanes := rfl
@[simp] theorem Hw.setLink_engines (h : Hw) (n : Nat) (x : Link) : (h.setLink n x).engines = h.engines := rfl
@[simp] theorem Hw.setLink_router (h : Hw) (n : Nat) (x : Link) : (h.setLink n x).router = h.router := rfl
@[simp] theorem Hw.setLink_time (h : Hw) (n : Nat) (x : Link) : (h.setLink n x).time = h.time := rfl
@[simp] theorem Hw.setLink_pair (h : Hw) (n : Nat) (x : Link) : (h.setLink n x).pair = h.pair := rfl
@[simp] theorem Hw.setLink_stamp (h : Hw) (n : Nat) (x : Link) : (h.setLink n x).stamp = h.stamp := rfl
@[simp] theorem Hw.setLink_regions (h : Hw) (n : Nat) (x : Link) : (h.setLink n x).regions = h.regions := rfl
@[simp] theorem Hw.setLink_groups (h : Hw) (n : Nat) (x : Link) : (h.setLink n x).groups = h.groups := rfl
@[simp] theorem Hw.setLink_dead (h : Hw) (n : Nat) (x : Link) : (h.setLink n x).dead = h.dead := rfl
@[simp] theorem Hw.setLink_changes (h : Hw) (n : Nat) (x : Link) : (h.setLink n x).changes = h.changes := rfl
@[simp] theorem Hw.setLink_snaps (h : Hw) (n : Nat) (x : Link) : (h.setLink n x).snaps = h.snaps := rfl
@[simp] theorem Hw.setLink_switching (h : Hw) (n : Nat) (x : Link) : (h.setLink n x).switching = h.switching := rfl
@[simp] theorem Hw.setLink_dirs (h : Hw) (n : Nat) (x : Link) : (h.setLink n x).dirs = h.dirs := rfl
@[simp] theorem Hw.setLink_homeTimeout (h : Hw) (n : Nat) (x : Link) : (h.setLink n x).homeTimeout = h.homeTimeout := rfl
@[simp] theorem Hw.setLink_suspects (h : Hw) (n : Nat) (x : Link) : (h.setLink n x).suspects = h.suspects := rfl
@[simp] theorem Hw.setLink_bulk (h : Hw) (n : Nat) (x : Link) : (h.setLink n x).bulk = h.bulk := rfl
@[simp] theorem Hw.setLink_parked (h : Hw) (n : Nat) (x : Link) : (h.setLink n x).parked = h.parked := rfl
@[simp] theorem Hw.setLink_contexts (h : Hw) (n : Nat) (x : Link) : (h.setLink n x).contexts = h.contexts := rfl
@[simp] theorem Hw.setLink_tiles (h : Hw) (n : Nat) (x : Link) : (h.setLink n x).tiles = h.tiles := rfl
@[simp] theorem Hw.setLink_queues (h : Hw) (n : Nat) (x : Link) : (h.setLink n x).queues = h.queues := rfl
@[simp] theorem Hw.setLink_outs (h : Hw) (n : Nat) (x : Link) : (h.setLink n x).outs = h.outs := rfl
@[simp] theorem Hw.setLink_answers (h : Hw) (n : Nat) (x : Link) : (h.setLink n x).answers = h.answers := rfl
@[simp] theorem Hw.setLink_invalidations (h : Hw) (n : Nat) (x : Link) : (h.setLink n x).invalidations = h.invalidations := rfl
@[simp] theorem Hw.setLink_colls (h : Hw) (n : Nat) (x : Link) : (h.setLink n x).colls = h.colls := rfl

@[simp] theorem Hw.setMailbox_freeCount (h : Hw) (m : Nat) (x : Mailbox) : (h.setMailbox m x).freeCount = h.freeCount := rfl
@[simp] theorem Hw.setMailbox_sys (h : Hw) (m : Nat) (x : Mailbox) : (h.setMailbox m x).sys = h.sys := rfl
@[simp] theorem Hw.setMailbox_fuses (h : Hw) (m : Nat) (x : Mailbox) : (h.setMailbox m x).fuses = h.fuses := rfl
@[simp] theorem Hw.setMailbox_fw (h : Hw) (m : Nat) (x : Mailbox) : (h.setMailbox m x).fw = h.fw := rfl
@[simp] theorem Hw.setMailbox_bist (h : Hw) (m : Nat) (x : Mailbox) : (h.setMailbox m x).bist = h.bist := rfl
@[simp] theorem Hw.setMailbox_clk (h : Hw) (m : Nat) (x : Mailbox) : (h.setMailbox m x).clk = h.clk := rfl
@[simp] theorem Hw.setMailbox_always (h : Hw) (m : Nat) (x : Mailbox) : (h.setMailbox m x).always = h.always := rfl
@[simp] theorem Hw.setMailbox_pwr (h : Hw) (m : Nat) (x : Mailbox) : (h.setMailbox m x).pwr = h.pwr := rfl
@[simp] theorem Hw.setMailbox_pcie (h : Hw) (m : Nat) (x : Mailbox) : (h.setMailbox m x).pcie = h.pcie := rfl
@[simp] theorem Hw.setMailbox_smb (h : Hw) (m : Nat) (x : Mailbox) : (h.setMailbox m x).smb = h.smb := rfl
@[simp] theorem Hw.setMailbox_tap (h : Hw) (m : Nat) (x : Mailbox) : (h.setMailbox m x).tap = h.tap := rfl
@[simp] theorem Hw.setMailbox_gpio (h : Hw) (m : Nat) (x : Mailbox) : (h.setMailbox m x).gpio = h.gpio := rfl
@[simp] theorem Hw.setMailbox_evc (h : Hw) (m : Nat) (x : Mailbox) : (h.setMailbox m x).evc = h.evc := rfl
@[simp] theorem Hw.setMailbox_logs (h : Hw) (m : Nat) (x : Mailbox) : (h.setMailbox m x).logs = h.logs := rfl
@[simp] theorem Hw.setMailbox_mbxOrder (h : Hw) (m : Nat) (x : Mailbox) : (h.setMailbox m x).mbxOrder = h.mbxOrder := rfl
@[simp] theorem Hw.setMailbox_mems (h : Hw) (m : Nat) (x : Mailbox) : (h.setMailbox m x).mems = h.mems := rfl
@[simp] theorem Hw.setMailbox_links (h : Hw) (m : Nat) (x : Mailbox) : (h.setMailbox m x).links = h.links := rfl
@[simp] theorem Hw.setMailbox_lanes (h : Hw) (m : Nat) (x : Mailbox) : (h.setMailbox m x).lanes = h.lanes := rfl
@[simp] theorem Hw.setMailbox_engines (h : Hw) (m : Nat) (x : Mailbox) : (h.setMailbox m x).engines = h.engines := rfl
@[simp] theorem Hw.setMailbox_router (h : Hw) (m : Nat) (x : Mailbox) : (h.setMailbox m x).router = h.router := rfl
@[simp] theorem Hw.setMailbox_time (h : Hw) (m : Nat) (x : Mailbox) : (h.setMailbox m x).time = h.time := rfl
@[simp] theorem Hw.setMailbox_pair (h : Hw) (m : Nat) (x : Mailbox) : (h.setMailbox m x).pair = h.pair := rfl
@[simp] theorem Hw.setMailbox_stamp (h : Hw) (m : Nat) (x : Mailbox) : (h.setMailbox m x).stamp = h.stamp := rfl
@[simp] theorem Hw.setMailbox_regions (h : Hw) (m : Nat) (x : Mailbox) : (h.setMailbox m x).regions = h.regions := rfl
@[simp] theorem Hw.setMailbox_groups (h : Hw) (m : Nat) (x : Mailbox) : (h.setMailbox m x).groups = h.groups := rfl
@[simp] theorem Hw.setMailbox_dead (h : Hw) (m : Nat) (x : Mailbox) : (h.setMailbox m x).dead = h.dead := rfl
@[simp] theorem Hw.setMailbox_changes (h : Hw) (m : Nat) (x : Mailbox) : (h.setMailbox m x).changes = h.changes := rfl
@[simp] theorem Hw.setMailbox_snaps (h : Hw) (m : Nat) (x : Mailbox) : (h.setMailbox m x).snaps = h.snaps := rfl
@[simp] theorem Hw.setMailbox_switching (h : Hw) (m : Nat) (x : Mailbox) : (h.setMailbox m x).switching = h.switching := rfl
@[simp] theorem Hw.setMailbox_dirs (h : Hw) (m : Nat) (x : Mailbox) : (h.setMailbox m x).dirs = h.dirs := rfl
@[simp] theorem Hw.setMailbox_homeTimeout (h : Hw) (m : Nat) (x : Mailbox) : (h.setMailbox m x).homeTimeout = h.homeTimeout := rfl
@[simp] theorem Hw.setMailbox_suspects (h : Hw) (m : Nat) (x : Mailbox) : (h.setMailbox m x).suspects = h.suspects := rfl
@[simp] theorem Hw.setMailbox_bulk (h : Hw) (m : Nat) (x : Mailbox) : (h.setMailbox m x).bulk = h.bulk := rfl
@[simp] theorem Hw.setMailbox_parked (h : Hw) (m : Nat) (x : Mailbox) : (h.setMailbox m x).parked = h.parked := rfl
@[simp] theorem Hw.setMailbox_contexts (h : Hw) (m : Nat) (x : Mailbox) : (h.setMailbox m x).contexts = h.contexts := rfl
@[simp] theorem Hw.setMailbox_tiles (h : Hw) (m : Nat) (x : Mailbox) : (h.setMailbox m x).tiles = h.tiles := rfl
@[simp] theorem Hw.setMailbox_queues (h : Hw) (m : Nat) (x : Mailbox) : (h.setMailbox m x).queues = h.queues := rfl
@[simp] theorem Hw.setMailbox_outs (h : Hw) (m : Nat) (x : Mailbox) : (h.setMailbox m x).outs = h.outs := rfl
@[simp] theorem Hw.setMailbox_answers (h : Hw) (m : Nat) (x : Mailbox) : (h.setMailbox m x).answers = h.answers := rfl
@[simp] theorem Hw.setMailbox_invalidations (h : Hw) (m : Nat) (x : Mailbox) : (h.setMailbox m x).invalidations = h.invalidations := rfl
@[simp] theorem Hw.setMailbox_colls (h : Hw) (m : Nat) (x : Mailbox) : (h.setMailbox m x).colls = h.colls := rfl

@[simp] theorem Hw.setPin_freeCount (h : Hw) (p : Nat) (x : GpioPin) : (h.setPin p x).freeCount = h.freeCount := rfl
@[simp] theorem Hw.setPin_sys (h : Hw) (p : Nat) (x : GpioPin) : (h.setPin p x).sys = h.sys := rfl
@[simp] theorem Hw.setPin_fuses (h : Hw) (p : Nat) (x : GpioPin) : (h.setPin p x).fuses = h.fuses := rfl
@[simp] theorem Hw.setPin_fw (h : Hw) (p : Nat) (x : GpioPin) : (h.setPin p x).fw = h.fw := rfl
@[simp] theorem Hw.setPin_bist (h : Hw) (p : Nat) (x : GpioPin) : (h.setPin p x).bist = h.bist := rfl
@[simp] theorem Hw.setPin_clk (h : Hw) (p : Nat) (x : GpioPin) : (h.setPin p x).clk = h.clk := rfl
@[simp] theorem Hw.setPin_always (h : Hw) (p : Nat) (x : GpioPin) : (h.setPin p x).always = h.always := rfl
@[simp] theorem Hw.setPin_pwr (h : Hw) (p : Nat) (x : GpioPin) : (h.setPin p x).pwr = h.pwr := rfl
@[simp] theorem Hw.setPin_pcie (h : Hw) (p : Nat) (x : GpioPin) : (h.setPin p x).pcie = h.pcie := rfl
@[simp] theorem Hw.setPin_smb (h : Hw) (p : Nat) (x : GpioPin) : (h.setPin p x).smb = h.smb := rfl
@[simp] theorem Hw.setPin_tap (h : Hw) (p : Nat) (x : GpioPin) : (h.setPin p x).tap = h.tap := rfl
@[simp] theorem Hw.setPin_evc (h : Hw) (p : Nat) (x : GpioPin) : (h.setPin p x).evc = h.evc := rfl
@[simp] theorem Hw.setPin_logs (h : Hw) (p : Nat) (x : GpioPin) : (h.setPin p x).logs = h.logs := rfl
@[simp] theorem Hw.setPin_mbx (h : Hw) (p : Nat) (x : GpioPin) : (h.setPin p x).mbx = h.mbx := rfl
@[simp] theorem Hw.setPin_mbxOrder (h : Hw) (p : Nat) (x : GpioPin) : (h.setPin p x).mbxOrder = h.mbxOrder := rfl
@[simp] theorem Hw.setPin_mems (h : Hw) (p : Nat) (x : GpioPin) : (h.setPin p x).mems = h.mems := rfl
@[simp] theorem Hw.setPin_links (h : Hw) (p : Nat) (x : GpioPin) : (h.setPin p x).links = h.links := rfl
@[simp] theorem Hw.setPin_lanes (h : Hw) (p : Nat) (x : GpioPin) : (h.setPin p x).lanes = h.lanes := rfl
@[simp] theorem Hw.setPin_engines (h : Hw) (p : Nat) (x : GpioPin) : (h.setPin p x).engines = h.engines := rfl
@[simp] theorem Hw.setPin_router (h : Hw) (p : Nat) (x : GpioPin) : (h.setPin p x).router = h.router := rfl
@[simp] theorem Hw.setPin_time (h : Hw) (p : Nat) (x : GpioPin) : (h.setPin p x).time = h.time := rfl
@[simp] theorem Hw.setPin_pair (h : Hw) (p : Nat) (x : GpioPin) : (h.setPin p x).pair = h.pair := rfl
@[simp] theorem Hw.setPin_stamp (h : Hw) (p : Nat) (x : GpioPin) : (h.setPin p x).stamp = h.stamp := rfl
@[simp] theorem Hw.setPin_regions (h : Hw) (p : Nat) (x : GpioPin) : (h.setPin p x).regions = h.regions := rfl
@[simp] theorem Hw.setPin_groups (h : Hw) (p : Nat) (x : GpioPin) : (h.setPin p x).groups = h.groups := rfl
@[simp] theorem Hw.setPin_dead (h : Hw) (p : Nat) (x : GpioPin) : (h.setPin p x).dead = h.dead := rfl
@[simp] theorem Hw.setPin_changes (h : Hw) (p : Nat) (x : GpioPin) : (h.setPin p x).changes = h.changes := rfl
@[simp] theorem Hw.setPin_snaps (h : Hw) (p : Nat) (x : GpioPin) : (h.setPin p x).snaps = h.snaps := rfl
@[simp] theorem Hw.setPin_switching (h : Hw) (p : Nat) (x : GpioPin) : (h.setPin p x).switching = h.switching := rfl
@[simp] theorem Hw.setPin_dirs (h : Hw) (p : Nat) (x : GpioPin) : (h.setPin p x).dirs = h.dirs := rfl
@[simp] theorem Hw.setPin_homeTimeout (h : Hw) (p : Nat) (x : GpioPin) : (h.setPin p x).homeTimeout = h.homeTimeout := rfl
@[simp] theorem Hw.setPin_suspects (h : Hw) (p : Nat) (x : GpioPin) : (h.setPin p x).suspects = h.suspects := rfl
@[simp] theorem Hw.setPin_bulk (h : Hw) (p : Nat) (x : GpioPin) : (h.setPin p x).bulk = h.bulk := rfl
@[simp] theorem Hw.setPin_parked (h : Hw) (p : Nat) (x : GpioPin) : (h.setPin p x).parked = h.parked := rfl
@[simp] theorem Hw.setPin_contexts (h : Hw) (p : Nat) (x : GpioPin) : (h.setPin p x).contexts = h.contexts := rfl
@[simp] theorem Hw.setPin_tiles (h : Hw) (p : Nat) (x : GpioPin) : (h.setPin p x).tiles = h.tiles := rfl
@[simp] theorem Hw.setPin_queues (h : Hw) (p : Nat) (x : GpioPin) : (h.setPin p x).queues = h.queues := rfl
@[simp] theorem Hw.setPin_outs (h : Hw) (p : Nat) (x : GpioPin) : (h.setPin p x).outs = h.outs := rfl
@[simp] theorem Hw.setPin_answers (h : Hw) (p : Nat) (x : GpioPin) : (h.setPin p x).answers = h.answers := rfl
@[simp] theorem Hw.setPin_invalidations (h : Hw) (p : Nat) (x : GpioPin) : (h.setPin p x).invalidations = h.invalidations := rfl
@[simp] theorem Hw.setPin_colls (h : Hw) (p : Nat) (x : GpioPin) : (h.setPin p x).colls = h.colls := rfl

@[simp] theorem Hw.setQos_freeCount (h : Hw) (port : Nat) (q : PortQos) : (h.setQos port q).freeCount = h.freeCount := rfl
@[simp] theorem Hw.setQos_sys (h : Hw) (port : Nat) (q : PortQos) : (h.setQos port q).sys = h.sys := rfl
@[simp] theorem Hw.setQos_fuses (h : Hw) (port : Nat) (q : PortQos) : (h.setQos port q).fuses = h.fuses := rfl
@[simp] theorem Hw.setQos_fw (h : Hw) (port : Nat) (q : PortQos) : (h.setQos port q).fw = h.fw := rfl
@[simp] theorem Hw.setQos_bist (h : Hw) (port : Nat) (q : PortQos) : (h.setQos port q).bist = h.bist := rfl
@[simp] theorem Hw.setQos_clk (h : Hw) (port : Nat) (q : PortQos) : (h.setQos port q).clk = h.clk := rfl
@[simp] theorem Hw.setQos_always (h : Hw) (port : Nat) (q : PortQos) : (h.setQos port q).always = h.always := rfl
@[simp] theorem Hw.setQos_pwr (h : Hw) (port : Nat) (q : PortQos) : (h.setQos port q).pwr = h.pwr := rfl
@[simp] theorem Hw.setQos_pcie (h : Hw) (port : Nat) (q : PortQos) : (h.setQos port q).pcie = h.pcie := rfl
@[simp] theorem Hw.setQos_smb (h : Hw) (port : Nat) (q : PortQos) : (h.setQos port q).smb = h.smb := rfl
@[simp] theorem Hw.setQos_tap (h : Hw) (port : Nat) (q : PortQos) : (h.setQos port q).tap = h.tap := rfl
@[simp] theorem Hw.setQos_gpio (h : Hw) (port : Nat) (q : PortQos) : (h.setQos port q).gpio = h.gpio := rfl
@[simp] theorem Hw.setQos_evc (h : Hw) (port : Nat) (q : PortQos) : (h.setQos port q).evc = h.evc := rfl
@[simp] theorem Hw.setQos_logs (h : Hw) (port : Nat) (q : PortQos) : (h.setQos port q).logs = h.logs := rfl
@[simp] theorem Hw.setQos_mbx (h : Hw) (port : Nat) (q : PortQos) : (h.setQos port q).mbx = h.mbx := rfl
@[simp] theorem Hw.setQos_mbxOrder (h : Hw) (port : Nat) (q : PortQos) : (h.setQos port q).mbxOrder = h.mbxOrder := rfl
@[simp] theorem Hw.setQos_mems (h : Hw) (port : Nat) (q : PortQos) : (h.setQos port q).mems = h.mems := rfl
@[simp] theorem Hw.setQos_links (h : Hw) (port : Nat) (q : PortQos) : (h.setQos port q).links = h.links := rfl
@[simp] theorem Hw.setQos_lanes (h : Hw) (port : Nat) (q : PortQos) : (h.setQos port q).lanes = h.lanes := rfl
@[simp] theorem Hw.setQos_engines (h : Hw) (port : Nat) (q : PortQos) : (h.setQos port q).engines = h.engines := rfl
@[simp] theorem Hw.setQos_time (h : Hw) (port : Nat) (q : PortQos) : (h.setQos port q).time = h.time := rfl
@[simp] theorem Hw.setQos_pair (h : Hw) (port : Nat) (q : PortQos) : (h.setQos port q).pair = h.pair := rfl
@[simp] theorem Hw.setQos_stamp (h : Hw) (port : Nat) (q : PortQos) : (h.setQos port q).stamp = h.stamp := rfl
@[simp] theorem Hw.setQos_regions (h : Hw) (port : Nat) (q : PortQos) : (h.setQos port q).regions = h.regions := rfl
@[simp] theorem Hw.setQos_groups (h : Hw) (port : Nat) (q : PortQos) : (h.setQos port q).groups = h.groups := rfl
@[simp] theorem Hw.setQos_dead (h : Hw) (port : Nat) (q : PortQos) : (h.setQos port q).dead = h.dead := rfl
@[simp] theorem Hw.setQos_changes (h : Hw) (port : Nat) (q : PortQos) : (h.setQos port q).changes = h.changes := rfl
@[simp] theorem Hw.setQos_snaps (h : Hw) (port : Nat) (q : PortQos) : (h.setQos port q).snaps = h.snaps := rfl
@[simp] theorem Hw.setQos_switching (h : Hw) (port : Nat) (q : PortQos) : (h.setQos port q).switching = h.switching := rfl
@[simp] theorem Hw.setQos_dirs (h : Hw) (port : Nat) (q : PortQos) : (h.setQos port q).dirs = h.dirs := rfl
@[simp] theorem Hw.setQos_homeTimeout (h : Hw) (port : Nat) (q : PortQos) : (h.setQos port q).homeTimeout = h.homeTimeout := rfl
@[simp] theorem Hw.setQos_suspects (h : Hw) (port : Nat) (q : PortQos) : (h.setQos port q).suspects = h.suspects := rfl
@[simp] theorem Hw.setQos_bulk (h : Hw) (port : Nat) (q : PortQos) : (h.setQos port q).bulk = h.bulk := rfl
@[simp] theorem Hw.setQos_parked (h : Hw) (port : Nat) (q : PortQos) : (h.setQos port q).parked = h.parked := rfl
@[simp] theorem Hw.setQos_contexts (h : Hw) (port : Nat) (q : PortQos) : (h.setQos port q).contexts = h.contexts := rfl
@[simp] theorem Hw.setQos_tiles (h : Hw) (port : Nat) (q : PortQos) : (h.setQos port q).tiles = h.tiles := rfl
@[simp] theorem Hw.setQos_queues (h : Hw) (port : Nat) (q : PortQos) : (h.setQos port q).queues = h.queues := rfl
@[simp] theorem Hw.setQos_outs (h : Hw) (port : Nat) (q : PortQos) : (h.setQos port q).outs = h.outs := rfl
@[simp] theorem Hw.setQos_answers (h : Hw) (port : Nat) (q : PortQos) : (h.setQos port q).answers = h.answers := rfl
@[simp] theorem Hw.setQos_invalidations (h : Hw) (port : Nat) (q : PortQos) : (h.setQos port q).invalidations = h.invalidations := rfl
@[simp] theorem Hw.setQos_colls (h : Hw) (port : Nat) (q : PortQos) : (h.setQos port q).colls = h.colls := rfl

@[simp] theorem Hw.setQueue_freeCount (h : Hw) (q : Nat) (x : Queue) : (h.setQueue q x).freeCount = h.freeCount := rfl
@[simp] theorem Hw.setQueue_sys (h : Hw) (q : Nat) (x : Queue) : (h.setQueue q x).sys = h.sys := rfl
@[simp] theorem Hw.setQueue_fuses (h : Hw) (q : Nat) (x : Queue) : (h.setQueue q x).fuses = h.fuses := rfl
@[simp] theorem Hw.setQueue_fw (h : Hw) (q : Nat) (x : Queue) : (h.setQueue q x).fw = h.fw := rfl
@[simp] theorem Hw.setQueue_bist (h : Hw) (q : Nat) (x : Queue) : (h.setQueue q x).bist = h.bist := rfl
@[simp] theorem Hw.setQueue_clk (h : Hw) (q : Nat) (x : Queue) : (h.setQueue q x).clk = h.clk := rfl
@[simp] theorem Hw.setQueue_always (h : Hw) (q : Nat) (x : Queue) : (h.setQueue q x).always = h.always := rfl
@[simp] theorem Hw.setQueue_pwr (h : Hw) (q : Nat) (x : Queue) : (h.setQueue q x).pwr = h.pwr := rfl
@[simp] theorem Hw.setQueue_pcie (h : Hw) (q : Nat) (x : Queue) : (h.setQueue q x).pcie = h.pcie := rfl
@[simp] theorem Hw.setQueue_smb (h : Hw) (q : Nat) (x : Queue) : (h.setQueue q x).smb = h.smb := rfl
@[simp] theorem Hw.setQueue_tap (h : Hw) (q : Nat) (x : Queue) : (h.setQueue q x).tap = h.tap := rfl
@[simp] theorem Hw.setQueue_gpio (h : Hw) (q : Nat) (x : Queue) : (h.setQueue q x).gpio = h.gpio := rfl
@[simp] theorem Hw.setQueue_evc (h : Hw) (q : Nat) (x : Queue) : (h.setQueue q x).evc = h.evc := rfl
@[simp] theorem Hw.setQueue_logs (h : Hw) (q : Nat) (x : Queue) : (h.setQueue q x).logs = h.logs := rfl
@[simp] theorem Hw.setQueue_mbx (h : Hw) (q : Nat) (x : Queue) : (h.setQueue q x).mbx = h.mbx := rfl
@[simp] theorem Hw.setQueue_mbxOrder (h : Hw) (q : Nat) (x : Queue) : (h.setQueue q x).mbxOrder = h.mbxOrder := rfl
@[simp] theorem Hw.setQueue_mems (h : Hw) (q : Nat) (x : Queue) : (h.setQueue q x).mems = h.mems := rfl
@[simp] theorem Hw.setQueue_links (h : Hw) (q : Nat) (x : Queue) : (h.setQueue q x).links = h.links := rfl
@[simp] theorem Hw.setQueue_lanes (h : Hw) (q : Nat) (x : Queue) : (h.setQueue q x).lanes = h.lanes := rfl
@[simp] theorem Hw.setQueue_engines (h : Hw) (q : Nat) (x : Queue) : (h.setQueue q x).engines = h.engines := rfl
@[simp] theorem Hw.setQueue_router (h : Hw) (q : Nat) (x : Queue) : (h.setQueue q x).router = h.router := rfl
@[simp] theorem Hw.setQueue_time (h : Hw) (q : Nat) (x : Queue) : (h.setQueue q x).time = h.time := rfl
@[simp] theorem Hw.setQueue_pair (h : Hw) (q : Nat) (x : Queue) : (h.setQueue q x).pair = h.pair := rfl
@[simp] theorem Hw.setQueue_stamp (h : Hw) (q : Nat) (x : Queue) : (h.setQueue q x).stamp = h.stamp := rfl
@[simp] theorem Hw.setQueue_regions (h : Hw) (q : Nat) (x : Queue) : (h.setQueue q x).regions = h.regions := rfl
@[simp] theorem Hw.setQueue_groups (h : Hw) (q : Nat) (x : Queue) : (h.setQueue q x).groups = h.groups := rfl
@[simp] theorem Hw.setQueue_dead (h : Hw) (q : Nat) (x : Queue) : (h.setQueue q x).dead = h.dead := rfl
@[simp] theorem Hw.setQueue_changes (h : Hw) (q : Nat) (x : Queue) : (h.setQueue q x).changes = h.changes := rfl
@[simp] theorem Hw.setQueue_snaps (h : Hw) (q : Nat) (x : Queue) : (h.setQueue q x).snaps = h.snaps := rfl
@[simp] theorem Hw.setQueue_switching (h : Hw) (q : Nat) (x : Queue) : (h.setQueue q x).switching = h.switching := rfl
@[simp] theorem Hw.setQueue_dirs (h : Hw) (q : Nat) (x : Queue) : (h.setQueue q x).dirs = h.dirs := rfl
@[simp] theorem Hw.setQueue_homeTimeout (h : Hw) (q : Nat) (x : Queue) : (h.setQueue q x).homeTimeout = h.homeTimeout := rfl
@[simp] theorem Hw.setQueue_suspects (h : Hw) (q : Nat) (x : Queue) : (h.setQueue q x).suspects = h.suspects := rfl
@[simp] theorem Hw.setQueue_bulk (h : Hw) (q : Nat) (x : Queue) : (h.setQueue q x).bulk = h.bulk := rfl
@[simp] theorem Hw.setQueue_parked (h : Hw) (q : Nat) (x : Queue) : (h.setQueue q x).parked = h.parked := rfl
@[simp] theorem Hw.setQueue_contexts (h : Hw) (q : Nat) (x : Queue) : (h.setQueue q x).contexts = h.contexts := rfl
@[simp] theorem Hw.setQueue_tiles (h : Hw) (q : Nat) (x : Queue) : (h.setQueue q x).tiles = h.tiles := rfl
@[simp] theorem Hw.setQueue_outs (h : Hw) (q : Nat) (x : Queue) : (h.setQueue q x).outs = h.outs := rfl
@[simp] theorem Hw.setQueue_answers (h : Hw) (q : Nat) (x : Queue) : (h.setQueue q x).answers = h.answers := rfl
@[simp] theorem Hw.setQueue_invalidations (h : Hw) (q : Nat) (x : Queue) : (h.setQueue q x).invalidations = h.invalidations := rfl
@[simp] theorem Hw.setQueue_colls (h : Hw) (q : Nat) (x : Queue) : (h.setQueue q x).colls = h.colls := rfl

@[simp] theorem Hw.setRegion_freeCount (h : Hw) (id : Nat) (r : Region) : (h.setRegion id r).freeCount = h.freeCount := rfl
@[simp] theorem Hw.setRegion_sys (h : Hw) (id : Nat) (r : Region) : (h.setRegion id r).sys = h.sys := rfl
@[simp] theorem Hw.setRegion_fuses (h : Hw) (id : Nat) (r : Region) : (h.setRegion id r).fuses = h.fuses := rfl
@[simp] theorem Hw.setRegion_fw (h : Hw) (id : Nat) (r : Region) : (h.setRegion id r).fw = h.fw := rfl
@[simp] theorem Hw.setRegion_bist (h : Hw) (id : Nat) (r : Region) : (h.setRegion id r).bist = h.bist := rfl
@[simp] theorem Hw.setRegion_clk (h : Hw) (id : Nat) (r : Region) : (h.setRegion id r).clk = h.clk := rfl
@[simp] theorem Hw.setRegion_always (h : Hw) (id : Nat) (r : Region) : (h.setRegion id r).always = h.always := rfl
@[simp] theorem Hw.setRegion_pwr (h : Hw) (id : Nat) (r : Region) : (h.setRegion id r).pwr = h.pwr := rfl
@[simp] theorem Hw.setRegion_pcie (h : Hw) (id : Nat) (r : Region) : (h.setRegion id r).pcie = h.pcie := rfl
@[simp] theorem Hw.setRegion_smb (h : Hw) (id : Nat) (r : Region) : (h.setRegion id r).smb = h.smb := rfl
@[simp] theorem Hw.setRegion_tap (h : Hw) (id : Nat) (r : Region) : (h.setRegion id r).tap = h.tap := rfl
@[simp] theorem Hw.setRegion_gpio (h : Hw) (id : Nat) (r : Region) : (h.setRegion id r).gpio = h.gpio := rfl
@[simp] theorem Hw.setRegion_evc (h : Hw) (id : Nat) (r : Region) : (h.setRegion id r).evc = h.evc := rfl
@[simp] theorem Hw.setRegion_logs (h : Hw) (id : Nat) (r : Region) : (h.setRegion id r).logs = h.logs := rfl
@[simp] theorem Hw.setRegion_mbx (h : Hw) (id : Nat) (r : Region) : (h.setRegion id r).mbx = h.mbx := rfl
@[simp] theorem Hw.setRegion_mbxOrder (h : Hw) (id : Nat) (r : Region) : (h.setRegion id r).mbxOrder = h.mbxOrder := rfl
@[simp] theorem Hw.setRegion_mems (h : Hw) (id : Nat) (r : Region) : (h.setRegion id r).mems = h.mems := rfl
@[simp] theorem Hw.setRegion_links (h : Hw) (id : Nat) (r : Region) : (h.setRegion id r).links = h.links := rfl
@[simp] theorem Hw.setRegion_lanes (h : Hw) (id : Nat) (r : Region) : (h.setRegion id r).lanes = h.lanes := rfl
@[simp] theorem Hw.setRegion_engines (h : Hw) (id : Nat) (r : Region) : (h.setRegion id r).engines = h.engines := rfl
@[simp] theorem Hw.setRegion_router (h : Hw) (id : Nat) (r : Region) : (h.setRegion id r).router = h.router := rfl
@[simp] theorem Hw.setRegion_time (h : Hw) (id : Nat) (r : Region) : (h.setRegion id r).time = h.time := rfl
@[simp] theorem Hw.setRegion_pair (h : Hw) (id : Nat) (r : Region) : (h.setRegion id r).pair = h.pair := rfl
@[simp] theorem Hw.setRegion_stamp (h : Hw) (id : Nat) (r : Region) : (h.setRegion id r).stamp = h.stamp := rfl
@[simp] theorem Hw.setRegion_groups (h : Hw) (id : Nat) (r : Region) : (h.setRegion id r).groups = h.groups := rfl
@[simp] theorem Hw.setRegion_dead (h : Hw) (id : Nat) (r : Region) : (h.setRegion id r).dead = h.dead := rfl
@[simp] theorem Hw.setRegion_changes (h : Hw) (id : Nat) (r : Region) : (h.setRegion id r).changes = h.changes := rfl
@[simp] theorem Hw.setRegion_snaps (h : Hw) (id : Nat) (r : Region) : (h.setRegion id r).snaps = h.snaps := rfl
@[simp] theorem Hw.setRegion_switching (h : Hw) (id : Nat) (r : Region) : (h.setRegion id r).switching = h.switching := rfl
@[simp] theorem Hw.setRegion_dirs (h : Hw) (id : Nat) (r : Region) : (h.setRegion id r).dirs = h.dirs := rfl
@[simp] theorem Hw.setRegion_homeTimeout (h : Hw) (id : Nat) (r : Region) : (h.setRegion id r).homeTimeout = h.homeTimeout := rfl
@[simp] theorem Hw.setRegion_suspects (h : Hw) (id : Nat) (r : Region) : (h.setRegion id r).suspects = h.suspects := rfl
@[simp] theorem Hw.setRegion_bulk (h : Hw) (id : Nat) (r : Region) : (h.setRegion id r).bulk = h.bulk := rfl
@[simp] theorem Hw.setRegion_parked (h : Hw) (id : Nat) (r : Region) : (h.setRegion id r).parked = h.parked := rfl
@[simp] theorem Hw.setRegion_contexts (h : Hw) (id : Nat) (r : Region) : (h.setRegion id r).contexts = h.contexts := rfl
@[simp] theorem Hw.setRegion_tiles (h : Hw) (id : Nat) (r : Region) : (h.setRegion id r).tiles = h.tiles := rfl
@[simp] theorem Hw.setRegion_queues (h : Hw) (id : Nat) (r : Region) : (h.setRegion id r).queues = h.queues := rfl
@[simp] theorem Hw.setRegion_outs (h : Hw) (id : Nat) (r : Region) : (h.setRegion id r).outs = h.outs := rfl
@[simp] theorem Hw.setRegion_answers (h : Hw) (id : Nat) (r : Region) : (h.setRegion id r).answers = h.answers := rfl
@[simp] theorem Hw.setRegion_invalidations (h : Hw) (id : Nat) (r : Region) : (h.setRegion id r).invalidations = h.invalidations := rfl
@[simp] theorem Hw.setRegion_colls (h : Hw) (id : Nat) (r : Region) : (h.setRegion id r).colls = h.colls := rfl

@[simp] theorem Hw.setSlice_freeCount (h : Hw) (n : Nat) (x : Slice) : (h.setSlice n x).freeCount = h.freeCount := rfl
@[simp] theorem Hw.setSlice_sys (h : Hw) (n : Nat) (x : Slice) : (h.setSlice n x).sys = h.sys := rfl
@[simp] theorem Hw.setSlice_fuses (h : Hw) (n : Nat) (x : Slice) : (h.setSlice n x).fuses = h.fuses := rfl
@[simp] theorem Hw.setSlice_fw (h : Hw) (n : Nat) (x : Slice) : (h.setSlice n x).fw = h.fw := rfl
@[simp] theorem Hw.setSlice_bist (h : Hw) (n : Nat) (x : Slice) : (h.setSlice n x).bist = h.bist := rfl
@[simp] theorem Hw.setSlice_clk (h : Hw) (n : Nat) (x : Slice) : (h.setSlice n x).clk = h.clk := rfl
@[simp] theorem Hw.setSlice_always (h : Hw) (n : Nat) (x : Slice) : (h.setSlice n x).always = h.always := rfl
@[simp] theorem Hw.setSlice_pwr (h : Hw) (n : Nat) (x : Slice) : (h.setSlice n x).pwr = h.pwr := rfl
@[simp] theorem Hw.setSlice_pcie (h : Hw) (n : Nat) (x : Slice) : (h.setSlice n x).pcie = h.pcie := rfl
@[simp] theorem Hw.setSlice_smb (h : Hw) (n : Nat) (x : Slice) : (h.setSlice n x).smb = h.smb := rfl
@[simp] theorem Hw.setSlice_tap (h : Hw) (n : Nat) (x : Slice) : (h.setSlice n x).tap = h.tap := rfl
@[simp] theorem Hw.setSlice_gpio (h : Hw) (n : Nat) (x : Slice) : (h.setSlice n x).gpio = h.gpio := rfl
@[simp] theorem Hw.setSlice_evc (h : Hw) (n : Nat) (x : Slice) : (h.setSlice n x).evc = h.evc := rfl
@[simp] theorem Hw.setSlice_logs (h : Hw) (n : Nat) (x : Slice) : (h.setSlice n x).logs = h.logs := rfl
@[simp] theorem Hw.setSlice_mbx (h : Hw) (n : Nat) (x : Slice) : (h.setSlice n x).mbx = h.mbx := rfl
@[simp] theorem Hw.setSlice_mbxOrder (h : Hw) (n : Nat) (x : Slice) : (h.setSlice n x).mbxOrder = h.mbxOrder := rfl
@[simp] theorem Hw.setSlice_links (h : Hw) (n : Nat) (x : Slice) : (h.setSlice n x).links = h.links := rfl
@[simp] theorem Hw.setSlice_lanes (h : Hw) (n : Nat) (x : Slice) : (h.setSlice n x).lanes = h.lanes := rfl
@[simp] theorem Hw.setSlice_engines (h : Hw) (n : Nat) (x : Slice) : (h.setSlice n x).engines = h.engines := rfl
@[simp] theorem Hw.setSlice_router (h : Hw) (n : Nat) (x : Slice) : (h.setSlice n x).router = h.router := rfl
@[simp] theorem Hw.setSlice_time (h : Hw) (n : Nat) (x : Slice) : (h.setSlice n x).time = h.time := rfl
@[simp] theorem Hw.setSlice_pair (h : Hw) (n : Nat) (x : Slice) : (h.setSlice n x).pair = h.pair := rfl
@[simp] theorem Hw.setSlice_stamp (h : Hw) (n : Nat) (x : Slice) : (h.setSlice n x).stamp = h.stamp := rfl
@[simp] theorem Hw.setSlice_regions (h : Hw) (n : Nat) (x : Slice) : (h.setSlice n x).regions = h.regions := rfl
@[simp] theorem Hw.setSlice_groups (h : Hw) (n : Nat) (x : Slice) : (h.setSlice n x).groups = h.groups := rfl
@[simp] theorem Hw.setSlice_dead (h : Hw) (n : Nat) (x : Slice) : (h.setSlice n x).dead = h.dead := rfl
@[simp] theorem Hw.setSlice_changes (h : Hw) (n : Nat) (x : Slice) : (h.setSlice n x).changes = h.changes := rfl
@[simp] theorem Hw.setSlice_snaps (h : Hw) (n : Nat) (x : Slice) : (h.setSlice n x).snaps = h.snaps := rfl
@[simp] theorem Hw.setSlice_switching (h : Hw) (n : Nat) (x : Slice) : (h.setSlice n x).switching = h.switching := rfl
@[simp] theorem Hw.setSlice_dirs (h : Hw) (n : Nat) (x : Slice) : (h.setSlice n x).dirs = h.dirs := rfl
@[simp] theorem Hw.setSlice_homeTimeout (h : Hw) (n : Nat) (x : Slice) : (h.setSlice n x).homeTimeout = h.homeTimeout := rfl
@[simp] theorem Hw.setSlice_suspects (h : Hw) (n : Nat) (x : Slice) : (h.setSlice n x).suspects = h.suspects := rfl
@[simp] theorem Hw.setSlice_bulk (h : Hw) (n : Nat) (x : Slice) : (h.setSlice n x).bulk = h.bulk := rfl
@[simp] theorem Hw.setSlice_parked (h : Hw) (n : Nat) (x : Slice) : (h.setSlice n x).parked = h.parked := rfl
@[simp] theorem Hw.setSlice_contexts (h : Hw) (n : Nat) (x : Slice) : (h.setSlice n x).contexts = h.contexts := rfl
@[simp] theorem Hw.setSlice_tiles (h : Hw) (n : Nat) (x : Slice) : (h.setSlice n x).tiles = h.tiles := rfl
@[simp] theorem Hw.setSlice_queues (h : Hw) (n : Nat) (x : Slice) : (h.setSlice n x).queues = h.queues := rfl
@[simp] theorem Hw.setSlice_outs (h : Hw) (n : Nat) (x : Slice) : (h.setSlice n x).outs = h.outs := rfl
@[simp] theorem Hw.setSlice_answers (h : Hw) (n : Nat) (x : Slice) : (h.setSlice n x).answers = h.answers := rfl
@[simp] theorem Hw.setSlice_invalidations (h : Hw) (n : Nat) (x : Slice) : (h.setSlice n x).invalidations = h.invalidations := rfl
@[simp] theorem Hw.setSlice_colls (h : Hw) (n : Nat) (x : Slice) : (h.setSlice n x).colls = h.colls := rfl

@[simp] theorem Hw.setSnap_freeCount (h : Hw) (id : Nat) (x : Snap) : (h.setSnap id x).freeCount = h.freeCount := rfl
@[simp] theorem Hw.setSnap_sys (h : Hw) (id : Nat) (x : Snap) : (h.setSnap id x).sys = h.sys := rfl
@[simp] theorem Hw.setSnap_fuses (h : Hw) (id : Nat) (x : Snap) : (h.setSnap id x).fuses = h.fuses := rfl
@[simp] theorem Hw.setSnap_fw (h : Hw) (id : Nat) (x : Snap) : (h.setSnap id x).fw = h.fw := rfl
@[simp] theorem Hw.setSnap_bist (h : Hw) (id : Nat) (x : Snap) : (h.setSnap id x).bist = h.bist := rfl
@[simp] theorem Hw.setSnap_clk (h : Hw) (id : Nat) (x : Snap) : (h.setSnap id x).clk = h.clk := rfl
@[simp] theorem Hw.setSnap_always (h : Hw) (id : Nat) (x : Snap) : (h.setSnap id x).always = h.always := rfl
@[simp] theorem Hw.setSnap_pwr (h : Hw) (id : Nat) (x : Snap) : (h.setSnap id x).pwr = h.pwr := rfl
@[simp] theorem Hw.setSnap_pcie (h : Hw) (id : Nat) (x : Snap) : (h.setSnap id x).pcie = h.pcie := rfl
@[simp] theorem Hw.setSnap_smb (h : Hw) (id : Nat) (x : Snap) : (h.setSnap id x).smb = h.smb := rfl
@[simp] theorem Hw.setSnap_tap (h : Hw) (id : Nat) (x : Snap) : (h.setSnap id x).tap = h.tap := rfl
@[simp] theorem Hw.setSnap_gpio (h : Hw) (id : Nat) (x : Snap) : (h.setSnap id x).gpio = h.gpio := rfl
@[simp] theorem Hw.setSnap_evc (h : Hw) (id : Nat) (x : Snap) : (h.setSnap id x).evc = h.evc := rfl
@[simp] theorem Hw.setSnap_logs (h : Hw) (id : Nat) (x : Snap) : (h.setSnap id x).logs = h.logs := rfl
@[simp] theorem Hw.setSnap_mbx (h : Hw) (id : Nat) (x : Snap) : (h.setSnap id x).mbx = h.mbx := rfl
@[simp] theorem Hw.setSnap_mbxOrder (h : Hw) (id : Nat) (x : Snap) : (h.setSnap id x).mbxOrder = h.mbxOrder := rfl
@[simp] theorem Hw.setSnap_mems (h : Hw) (id : Nat) (x : Snap) : (h.setSnap id x).mems = h.mems := rfl
@[simp] theorem Hw.setSnap_links (h : Hw) (id : Nat) (x : Snap) : (h.setSnap id x).links = h.links := rfl
@[simp] theorem Hw.setSnap_lanes (h : Hw) (id : Nat) (x : Snap) : (h.setSnap id x).lanes = h.lanes := rfl
@[simp] theorem Hw.setSnap_engines (h : Hw) (id : Nat) (x : Snap) : (h.setSnap id x).engines = h.engines := rfl
@[simp] theorem Hw.setSnap_router (h : Hw) (id : Nat) (x : Snap) : (h.setSnap id x).router = h.router := rfl
@[simp] theorem Hw.setSnap_time (h : Hw) (id : Nat) (x : Snap) : (h.setSnap id x).time = h.time := rfl
@[simp] theorem Hw.setSnap_pair (h : Hw) (id : Nat) (x : Snap) : (h.setSnap id x).pair = h.pair := rfl
@[simp] theorem Hw.setSnap_stamp (h : Hw) (id : Nat) (x : Snap) : (h.setSnap id x).stamp = h.stamp := rfl
@[simp] theorem Hw.setSnap_regions (h : Hw) (id : Nat) (x : Snap) : (h.setSnap id x).regions = h.regions := rfl
@[simp] theorem Hw.setSnap_groups (h : Hw) (id : Nat) (x : Snap) : (h.setSnap id x).groups = h.groups := rfl
@[simp] theorem Hw.setSnap_dead (h : Hw) (id : Nat) (x : Snap) : (h.setSnap id x).dead = h.dead := rfl
@[simp] theorem Hw.setSnap_changes (h : Hw) (id : Nat) (x : Snap) : (h.setSnap id x).changes = h.changes := rfl
@[simp] theorem Hw.setSnap_switching (h : Hw) (id : Nat) (x : Snap) : (h.setSnap id x).switching = h.switching := rfl
@[simp] theorem Hw.setSnap_dirs (h : Hw) (id : Nat) (x : Snap) : (h.setSnap id x).dirs = h.dirs := rfl
@[simp] theorem Hw.setSnap_homeTimeout (h : Hw) (id : Nat) (x : Snap) : (h.setSnap id x).homeTimeout = h.homeTimeout := rfl
@[simp] theorem Hw.setSnap_suspects (h : Hw) (id : Nat) (x : Snap) : (h.setSnap id x).suspects = h.suspects := rfl
@[simp] theorem Hw.setSnap_bulk (h : Hw) (id : Nat) (x : Snap) : (h.setSnap id x).bulk = h.bulk := rfl
@[simp] theorem Hw.setSnap_parked (h : Hw) (id : Nat) (x : Snap) : (h.setSnap id x).parked = h.parked := rfl
@[simp] theorem Hw.setSnap_contexts (h : Hw) (id : Nat) (x : Snap) : (h.setSnap id x).contexts = h.contexts := rfl
@[simp] theorem Hw.setSnap_tiles (h : Hw) (id : Nat) (x : Snap) : (h.setSnap id x).tiles = h.tiles := rfl
@[simp] theorem Hw.setSnap_queues (h : Hw) (id : Nat) (x : Snap) : (h.setSnap id x).queues = h.queues := rfl
@[simp] theorem Hw.setSnap_outs (h : Hw) (id : Nat) (x : Snap) : (h.setSnap id x).outs = h.outs := rfl
@[simp] theorem Hw.setSnap_answers (h : Hw) (id : Nat) (x : Snap) : (h.setSnap id x).answers = h.answers := rfl
@[simp] theorem Hw.setSnap_invalidations (h : Hw) (id : Nat) (x : Snap) : (h.setSnap id x).invalidations = h.invalidations := rfl
@[simp] theorem Hw.setSnap_colls (h : Hw) (id : Nat) (x : Snap) : (h.setSnap id x).colls = h.colls := rfl

@[simp] theorem Hw.setSource_freeCount (h : Hw) (n : Nat) (x : Source) : (h.setSource n x).freeCount = h.freeCount := rfl
@[simp] theorem Hw.setSource_sys (h : Hw) (n : Nat) (x : Source) : (h.setSource n x).sys = h.sys := rfl
@[simp] theorem Hw.setSource_fuses (h : Hw) (n : Nat) (x : Source) : (h.setSource n x).fuses = h.fuses := rfl
@[simp] theorem Hw.setSource_fw (h : Hw) (n : Nat) (x : Source) : (h.setSource n x).fw = h.fw := rfl
@[simp] theorem Hw.setSource_bist (h : Hw) (n : Nat) (x : Source) : (h.setSource n x).bist = h.bist := rfl
@[simp] theorem Hw.setSource_clk (h : Hw) (n : Nat) (x : Source) : (h.setSource n x).clk = h.clk := rfl
@[simp] theorem Hw.setSource_always (h : Hw) (n : Nat) (x : Source) : (h.setSource n x).always = h.always := rfl
@[simp] theorem Hw.setSource_pwr (h : Hw) (n : Nat) (x : Source) : (h.setSource n x).pwr = h.pwr := rfl
@[simp] theorem Hw.setSource_pcie (h : Hw) (n : Nat) (x : Source) : (h.setSource n x).pcie = h.pcie := rfl
@[simp] theorem Hw.setSource_smb (h : Hw) (n : Nat) (x : Source) : (h.setSource n x).smb = h.smb := rfl
@[simp] theorem Hw.setSource_tap (h : Hw) (n : Nat) (x : Source) : (h.setSource n x).tap = h.tap := rfl
@[simp] theorem Hw.setSource_gpio (h : Hw) (n : Nat) (x : Source) : (h.setSource n x).gpio = h.gpio := rfl
@[simp] theorem Hw.setSource_logs (h : Hw) (n : Nat) (x : Source) : (h.setSource n x).logs = h.logs := rfl
@[simp] theorem Hw.setSource_mbx (h : Hw) (n : Nat) (x : Source) : (h.setSource n x).mbx = h.mbx := rfl
@[simp] theorem Hw.setSource_mbxOrder (h : Hw) (n : Nat) (x : Source) : (h.setSource n x).mbxOrder = h.mbxOrder := rfl
@[simp] theorem Hw.setSource_mems (h : Hw) (n : Nat) (x : Source) : (h.setSource n x).mems = h.mems := rfl
@[simp] theorem Hw.setSource_links (h : Hw) (n : Nat) (x : Source) : (h.setSource n x).links = h.links := rfl
@[simp] theorem Hw.setSource_lanes (h : Hw) (n : Nat) (x : Source) : (h.setSource n x).lanes = h.lanes := rfl
@[simp] theorem Hw.setSource_engines (h : Hw) (n : Nat) (x : Source) : (h.setSource n x).engines = h.engines := rfl
@[simp] theorem Hw.setSource_router (h : Hw) (n : Nat) (x : Source) : (h.setSource n x).router = h.router := rfl
@[simp] theorem Hw.setSource_time (h : Hw) (n : Nat) (x : Source) : (h.setSource n x).time = h.time := rfl
@[simp] theorem Hw.setSource_pair (h : Hw) (n : Nat) (x : Source) : (h.setSource n x).pair = h.pair := rfl
@[simp] theorem Hw.setSource_stamp (h : Hw) (n : Nat) (x : Source) : (h.setSource n x).stamp = h.stamp := rfl
@[simp] theorem Hw.setSource_regions (h : Hw) (n : Nat) (x : Source) : (h.setSource n x).regions = h.regions := rfl
@[simp] theorem Hw.setSource_groups (h : Hw) (n : Nat) (x : Source) : (h.setSource n x).groups = h.groups := rfl
@[simp] theorem Hw.setSource_dead (h : Hw) (n : Nat) (x : Source) : (h.setSource n x).dead = h.dead := rfl
@[simp] theorem Hw.setSource_changes (h : Hw) (n : Nat) (x : Source) : (h.setSource n x).changes = h.changes := rfl
@[simp] theorem Hw.setSource_snaps (h : Hw) (n : Nat) (x : Source) : (h.setSource n x).snaps = h.snaps := rfl
@[simp] theorem Hw.setSource_switching (h : Hw) (n : Nat) (x : Source) : (h.setSource n x).switching = h.switching := rfl
@[simp] theorem Hw.setSource_dirs (h : Hw) (n : Nat) (x : Source) : (h.setSource n x).dirs = h.dirs := rfl
@[simp] theorem Hw.setSource_homeTimeout (h : Hw) (n : Nat) (x : Source) : (h.setSource n x).homeTimeout = h.homeTimeout := rfl
@[simp] theorem Hw.setSource_suspects (h : Hw) (n : Nat) (x : Source) : (h.setSource n x).suspects = h.suspects := rfl
@[simp] theorem Hw.setSource_bulk (h : Hw) (n : Nat) (x : Source) : (h.setSource n x).bulk = h.bulk := rfl
@[simp] theorem Hw.setSource_parked (h : Hw) (n : Nat) (x : Source) : (h.setSource n x).parked = h.parked := rfl
@[simp] theorem Hw.setSource_contexts (h : Hw) (n : Nat) (x : Source) : (h.setSource n x).contexts = h.contexts := rfl
@[simp] theorem Hw.setSource_tiles (h : Hw) (n : Nat) (x : Source) : (h.setSource n x).tiles = h.tiles := rfl
@[simp] theorem Hw.setSource_queues (h : Hw) (n : Nat) (x : Source) : (h.setSource n x).queues = h.queues := rfl
@[simp] theorem Hw.setSource_outs (h : Hw) (n : Nat) (x : Source) : (h.setSource n x).outs = h.outs := rfl
@[simp] theorem Hw.setSource_answers (h : Hw) (n : Nat) (x : Source) : (h.setSource n x).answers = h.answers := rfl
@[simp] theorem Hw.setSource_invalidations (h : Hw) (n : Nat) (x : Source) : (h.setSource n x).invalidations = h.invalidations := rfl
@[simp] theorem Hw.setSource_colls (h : Hw) (n : Nat) (x : Source) : (h.setSource n x).colls = h.colls := rfl

@[simp] theorem Hw.setTile_freeCount (h : Hw) (t : Nat) (x : Tile) : (h.setTile t x).freeCount = h.freeCount := rfl
@[simp] theorem Hw.setTile_sys (h : Hw) (t : Nat) (x : Tile) : (h.setTile t x).sys = h.sys := rfl
@[simp] theorem Hw.setTile_fuses (h : Hw) (t : Nat) (x : Tile) : (h.setTile t x).fuses = h.fuses := rfl
@[simp] theorem Hw.setTile_fw (h : Hw) (t : Nat) (x : Tile) : (h.setTile t x).fw = h.fw := rfl
@[simp] theorem Hw.setTile_bist (h : Hw) (t : Nat) (x : Tile) : (h.setTile t x).bist = h.bist := rfl
@[simp] theorem Hw.setTile_clk (h : Hw) (t : Nat) (x : Tile) : (h.setTile t x).clk = h.clk := rfl
@[simp] theorem Hw.setTile_always (h : Hw) (t : Nat) (x : Tile) : (h.setTile t x).always = h.always := rfl
@[simp] theorem Hw.setTile_pwr (h : Hw) (t : Nat) (x : Tile) : (h.setTile t x).pwr = h.pwr := rfl
@[simp] theorem Hw.setTile_pcie (h : Hw) (t : Nat) (x : Tile) : (h.setTile t x).pcie = h.pcie := rfl
@[simp] theorem Hw.setTile_smb (h : Hw) (t : Nat) (x : Tile) : (h.setTile t x).smb = h.smb := rfl
@[simp] theorem Hw.setTile_tap (h : Hw) (t : Nat) (x : Tile) : (h.setTile t x).tap = h.tap := rfl
@[simp] theorem Hw.setTile_gpio (h : Hw) (t : Nat) (x : Tile) : (h.setTile t x).gpio = h.gpio := rfl
@[simp] theorem Hw.setTile_evc (h : Hw) (t : Nat) (x : Tile) : (h.setTile t x).evc = h.evc := rfl
@[simp] theorem Hw.setTile_logs (h : Hw) (t : Nat) (x : Tile) : (h.setTile t x).logs = h.logs := rfl
@[simp] theorem Hw.setTile_mbx (h : Hw) (t : Nat) (x : Tile) : (h.setTile t x).mbx = h.mbx := rfl
@[simp] theorem Hw.setTile_mbxOrder (h : Hw) (t : Nat) (x : Tile) : (h.setTile t x).mbxOrder = h.mbxOrder := rfl
@[simp] theorem Hw.setTile_mems (h : Hw) (t : Nat) (x : Tile) : (h.setTile t x).mems = h.mems := rfl
@[simp] theorem Hw.setTile_links (h : Hw) (t : Nat) (x : Tile) : (h.setTile t x).links = h.links := rfl
@[simp] theorem Hw.setTile_lanes (h : Hw) (t : Nat) (x : Tile) : (h.setTile t x).lanes = h.lanes := rfl
@[simp] theorem Hw.setTile_engines (h : Hw) (t : Nat) (x : Tile) : (h.setTile t x).engines = h.engines := rfl
@[simp] theorem Hw.setTile_router (h : Hw) (t : Nat) (x : Tile) : (h.setTile t x).router = h.router := rfl
@[simp] theorem Hw.setTile_time (h : Hw) (t : Nat) (x : Tile) : (h.setTile t x).time = h.time := rfl
@[simp] theorem Hw.setTile_pair (h : Hw) (t : Nat) (x : Tile) : (h.setTile t x).pair = h.pair := rfl
@[simp] theorem Hw.setTile_stamp (h : Hw) (t : Nat) (x : Tile) : (h.setTile t x).stamp = h.stamp := rfl
@[simp] theorem Hw.setTile_regions (h : Hw) (t : Nat) (x : Tile) : (h.setTile t x).regions = h.regions := rfl
@[simp] theorem Hw.setTile_groups (h : Hw) (t : Nat) (x : Tile) : (h.setTile t x).groups = h.groups := rfl
@[simp] theorem Hw.setTile_dead (h : Hw) (t : Nat) (x : Tile) : (h.setTile t x).dead = h.dead := rfl
@[simp] theorem Hw.setTile_changes (h : Hw) (t : Nat) (x : Tile) : (h.setTile t x).changes = h.changes := rfl
@[simp] theorem Hw.setTile_snaps (h : Hw) (t : Nat) (x : Tile) : (h.setTile t x).snaps = h.snaps := rfl
@[simp] theorem Hw.setTile_switching (h : Hw) (t : Nat) (x : Tile) : (h.setTile t x).switching = h.switching := rfl
@[simp] theorem Hw.setTile_dirs (h : Hw) (t : Nat) (x : Tile) : (h.setTile t x).dirs = h.dirs := rfl
@[simp] theorem Hw.setTile_homeTimeout (h : Hw) (t : Nat) (x : Tile) : (h.setTile t x).homeTimeout = h.homeTimeout := rfl
@[simp] theorem Hw.setTile_suspects (h : Hw) (t : Nat) (x : Tile) : (h.setTile t x).suspects = h.suspects := rfl
@[simp] theorem Hw.setTile_bulk (h : Hw) (t : Nat) (x : Tile) : (h.setTile t x).bulk = h.bulk := rfl
@[simp] theorem Hw.setTile_parked (h : Hw) (t : Nat) (x : Tile) : (h.setTile t x).parked = h.parked := rfl
@[simp] theorem Hw.setTile_contexts (h : Hw) (t : Nat) (x : Tile) : (h.setTile t x).contexts = h.contexts := rfl
@[simp] theorem Hw.setTile_queues (h : Hw) (t : Nat) (x : Tile) : (h.setTile t x).queues = h.queues := rfl
@[simp] theorem Hw.setTile_outs (h : Hw) (t : Nat) (x : Tile) : (h.setTile t x).outs = h.outs := rfl
@[simp] theorem Hw.setTile_answers (h : Hw) (t : Nat) (x : Tile) : (h.setTile t x).answers = h.answers := rfl
@[simp] theorem Hw.setTile_invalidations (h : Hw) (t : Nat) (x : Tile) : (h.setTile t x).invalidations = h.invalidations := rfl
@[simp] theorem Hw.setTile_colls (h : Hw) (t : Nat) (x : Tile) : (h.setTile t x).colls = h.colls := rfl

@[simp] theorem Hw.setVector_freeCount (h : Hw) (v : Nat) (x : EvVector) : (h.setVector v x).freeCount = h.freeCount := rfl
@[simp] theorem Hw.setVector_sys (h : Hw) (v : Nat) (x : EvVector) : (h.setVector v x).sys = h.sys := rfl
@[simp] theorem Hw.setVector_fuses (h : Hw) (v : Nat) (x : EvVector) : (h.setVector v x).fuses = h.fuses := rfl
@[simp] theorem Hw.setVector_fw (h : Hw) (v : Nat) (x : EvVector) : (h.setVector v x).fw = h.fw := rfl
@[simp] theorem Hw.setVector_bist (h : Hw) (v : Nat) (x : EvVector) : (h.setVector v x).bist = h.bist := rfl
@[simp] theorem Hw.setVector_clk (h : Hw) (v : Nat) (x : EvVector) : (h.setVector v x).clk = h.clk := rfl
@[simp] theorem Hw.setVector_always (h : Hw) (v : Nat) (x : EvVector) : (h.setVector v x).always = h.always := rfl
@[simp] theorem Hw.setVector_pwr (h : Hw) (v : Nat) (x : EvVector) : (h.setVector v x).pwr = h.pwr := rfl
@[simp] theorem Hw.setVector_pcie (h : Hw) (v : Nat) (x : EvVector) : (h.setVector v x).pcie = h.pcie := rfl
@[simp] theorem Hw.setVector_smb (h : Hw) (v : Nat) (x : EvVector) : (h.setVector v x).smb = h.smb := rfl
@[simp] theorem Hw.setVector_tap (h : Hw) (v : Nat) (x : EvVector) : (h.setVector v x).tap = h.tap := rfl
@[simp] theorem Hw.setVector_gpio (h : Hw) (v : Nat) (x : EvVector) : (h.setVector v x).gpio = h.gpio := rfl
@[simp] theorem Hw.setVector_logs (h : Hw) (v : Nat) (x : EvVector) : (h.setVector v x).logs = h.logs := rfl
@[simp] theorem Hw.setVector_mbx (h : Hw) (v : Nat) (x : EvVector) : (h.setVector v x).mbx = h.mbx := rfl
@[simp] theorem Hw.setVector_mbxOrder (h : Hw) (v : Nat) (x : EvVector) : (h.setVector v x).mbxOrder = h.mbxOrder := rfl
@[simp] theorem Hw.setVector_mems (h : Hw) (v : Nat) (x : EvVector) : (h.setVector v x).mems = h.mems := rfl
@[simp] theorem Hw.setVector_links (h : Hw) (v : Nat) (x : EvVector) : (h.setVector v x).links = h.links := rfl
@[simp] theorem Hw.setVector_lanes (h : Hw) (v : Nat) (x : EvVector) : (h.setVector v x).lanes = h.lanes := rfl
@[simp] theorem Hw.setVector_engines (h : Hw) (v : Nat) (x : EvVector) : (h.setVector v x).engines = h.engines := rfl
@[simp] theorem Hw.setVector_router (h : Hw) (v : Nat) (x : EvVector) : (h.setVector v x).router = h.router := rfl
@[simp] theorem Hw.setVector_time (h : Hw) (v : Nat) (x : EvVector) : (h.setVector v x).time = h.time := rfl
@[simp] theorem Hw.setVector_pair (h : Hw) (v : Nat) (x : EvVector) : (h.setVector v x).pair = h.pair := rfl
@[simp] theorem Hw.setVector_stamp (h : Hw) (v : Nat) (x : EvVector) : (h.setVector v x).stamp = h.stamp := rfl
@[simp] theorem Hw.setVector_regions (h : Hw) (v : Nat) (x : EvVector) : (h.setVector v x).regions = h.regions := rfl
@[simp] theorem Hw.setVector_groups (h : Hw) (v : Nat) (x : EvVector) : (h.setVector v x).groups = h.groups := rfl
@[simp] theorem Hw.setVector_dead (h : Hw) (v : Nat) (x : EvVector) : (h.setVector v x).dead = h.dead := rfl
@[simp] theorem Hw.setVector_changes (h : Hw) (v : Nat) (x : EvVector) : (h.setVector v x).changes = h.changes := rfl
@[simp] theorem Hw.setVector_snaps (h : Hw) (v : Nat) (x : EvVector) : (h.setVector v x).snaps = h.snaps := rfl
@[simp] theorem Hw.setVector_switching (h : Hw) (v : Nat) (x : EvVector) : (h.setVector v x).switching = h.switching := rfl
@[simp] theorem Hw.setVector_dirs (h : Hw) (v : Nat) (x : EvVector) : (h.setVector v x).dirs = h.dirs := rfl
@[simp] theorem Hw.setVector_homeTimeout (h : Hw) (v : Nat) (x : EvVector) : (h.setVector v x).homeTimeout = h.homeTimeout := rfl
@[simp] theorem Hw.setVector_suspects (h : Hw) (v : Nat) (x : EvVector) : (h.setVector v x).suspects = h.suspects := rfl
@[simp] theorem Hw.setVector_bulk (h : Hw) (v : Nat) (x : EvVector) : (h.setVector v x).bulk = h.bulk := rfl
@[simp] theorem Hw.setVector_parked (h : Hw) (v : Nat) (x : EvVector) : (h.setVector v x).parked = h.parked := rfl
@[simp] theorem Hw.setVector_contexts (h : Hw) (v : Nat) (x : EvVector) : (h.setVector v x).contexts = h.contexts := rfl
@[simp] theorem Hw.setVector_tiles (h : Hw) (v : Nat) (x : EvVector) : (h.setVector v x).tiles = h.tiles := rfl
@[simp] theorem Hw.setVector_queues (h : Hw) (v : Nat) (x : EvVector) : (h.setVector v x).queues = h.queues := rfl
@[simp] theorem Hw.setVector_outs (h : Hw) (v : Nat) (x : EvVector) : (h.setVector v x).outs = h.outs := rfl
@[simp] theorem Hw.setVector_answers (h : Hw) (v : Nat) (x : EvVector) : (h.setVector v x).answers = h.answers := rfl
@[simp] theorem Hw.setVector_invalidations (h : Hw) (v : Nat) (x : EvVector) : (h.setVector v x).invalidations = h.invalidations := rfl
@[simp] theorem Hw.setVector_colls (h : Hw) (v : Nat) (x : EvVector) : (h.setVector v x).colls = h.colls := rfl

@[simp] theorem Hw.setMailbox_mailbox (h : Hw) (n k : Nat) (x : Mailbox) : (h.setMailbox n x).mailbox k = if k = n then x else h.mailbox k :=
  KMap.get_set _ _ _ _
@[simp] theorem Hw.setLink_link (h : Hw) (n k : Nat) (x : Link) : (h.setLink n x).link k = if k = n then x else h.link k :=
  KMap.get_set _ _ _ _
@[simp] theorem Hw.setLane_lane (h : Hw) (n k : Nat) (x : Lane) : (h.setLane n x).lane k = if k = n then x else h.lane k :=
  KMap.get_set _ _ _ _
@[simp] theorem Hw.setEngine_engine (h : Hw) (n k : Nat) (x : Engine) : (h.setEngine n x).engine k = if k = n then x else h.engine k :=
  KMap.get_set _ _ _ _
@[simp] theorem Hw.setSlice_slice (h : Hw) (n k : Nat) (x : Slice) : (h.setSlice n x).slice k = if k = n then x else h.slice k :=
  KMap.get_set _ _ _ _
@[simp] theorem Hw.setDomain_domain (h : Hw) (n k : Nat) (x : ClockDomain) : (h.setDomain n x).domain k = if k = n then x else h.domain k :=
  KMap.get_set _ _ _ _
@[simp] theorem Hw.setPin_pin (h : Hw) (n k : Nat) (x : GpioPin) : (h.setPin n x).pin k = if k = n then x else h.pin k :=
  KMap.get_set _ _ _ _
@[simp] theorem Hw.setVector_vector (h : Hw) (n k : Nat) (x : EvVector) : (h.setVector n x).vector k = if k = n then x else h.vector k :=
  KMap.get_set _ _ _ _
@[simp] theorem Hw.setRegion_region (h : Hw) (n k : Nat) (x : Region) : (h.setRegion n x).region k = if k = n then x else h.region k :=
  KMap.get_set _ _ _ _
@[simp] theorem Hw.setSnap_snap (h : Hw) (n k : Nat) (x : Snap) : (h.setSnap n x).snap k = if k = n then x else h.snap k :=
  KMap.get_set _ _ _ _
@[simp] theorem Hw.setDir_dir (h : Hw) (n k : Nat) (x : DirSlice) : (h.setDir n x).dir k = if k = n then x else h.dir k :=
  KMap.get_set _ _ _ _
@[simp] theorem Hw.setCtx_ctx (h : Hw) (n k : Nat) (x : Context) : (h.setCtx n x).ctx k = if k = n then x else h.ctx k :=
  KMap.get_set _ _ _ _
@[simp] theorem Hw.setTile_tile (h : Hw) (n k : Nat) (x : Tile) : (h.setTile n x).tile k = if k = n then x else h.tile k :=
  KMap.get_set _ _ _ _
@[simp] theorem Hw.setSource_source (h : Hw) (n k : Nat) (x : Source) : (h.setSource n x).source k = if k = n then x else h.source k := by
  show KMap.getD (KMap.setD h.evc.sources n x (sourceAtReset n)) k (sourceAtReset k) = _
  by_cases hk : k = n
  · subst hk
    exact KMap.getD_setD _ _ _ _ _
  · unfold KMap.setD Hw.source
    split <;> simp [KMap.getD, KMap.find?_erase_of_ne _ hk, KMap.find?_ins_of_ne _ _ hk]

end Sys2Proof.Machine
end

