-- ==== Sys2Proof/Laws/Shared.lean ====
section
/-!
SUPPORT. What the shared operations can do: the parts of the module that each can change, and what a mailbox command comes to
when its request stands.
-/
namespace Sys2Proof.Machine
open Sys2Proof

theorem settleTarget_frame (h : Hw) (n : Nat) : settleTarget h n = { h with evc := (settleTarget h n).evc } := by
  unfold settleTarget; dsimp only
  split <;> rfl

/-- An occurrence changes the event controller alone. -/
theorem raise_frame (h : Hw) (n info : Nat) : raise h n info = { h with evc := (raise h n info).evc } := by
  have e := settleTarget_frame h n
  unfold raise; dsimp only
  generalize settleTarget h n = g at e
  rw [e]; rfl

theorem setLevel_frame (h : Hw) (n : Nat) (b : Bool) (info : Nat) : setLevel h n b info = { h with evc := (setLevel h n b info).evc } := by
  unfold setLevel; dsimp only
  split
  · rfl
  · split
    · exact raise_frame _ _ _
    · rfl

theorem emit_frame (h : Hw) (v : Nat) (i : MirrorItem) : emit h v i = { h with pair := (emit h v i).pair } := by
  unfold emit
  split <;> rfl

theorem setLog_frame (h : Hw) (l : Nat) (x : ErrorLog) : h.setLog l x = { h with logs := KMap.set h.logs l x, pair := (h.setLog l x).pair } := by
  unfold Hw.setLog; dsimp only
  split
  · rw [emit_frame]
  · rfl

theorem settleFatal_frame (h : Hw) (l : Nat) : settleFatal h l = { h with evc := (settleFatal h l).evc } := by
  unfold settleFatal
  split
  · rfl
  · exact setLevel_frame _ _ _ _

/-- Recording an error changes the log, the event controller and, for a partner, the pair's record queue. -/
theorem logError_frame (h : Hw) (l sev code info addr detail : Nat) : logError h l sev code info addr detail =
    { h with logs := (logError h l sev code info addr detail).logs, evc := (logError h l sev code info addr detail).evc
             pair := (logError h l sev code info addr detail).pair } := by
  unfold logError; dsimp only
  generalize hg : Hw.setLog _ _ _ = g
  have e := setLog_frame h l
  split
  · rw [settleFatal_frame]; rw [← hg, e]
  · rw [raise_frame]; rw [← hg, e]

theorem modPc_frame (h : Hw) (t k : Nat) (f : PseudoChannel → PseudoChannel) : modPc h t k f = { h with mems := (modPc h t k f).mems } := rfl

theorem enqueue_frame (h : Hw) (a : Nat) (r : McsReq) : enqueue h a r = { h with mems := (enqueue h a r).mems } := by
  unfold enqueue; dsimp only
  repeat' first
    | rfl
    | split

/-- The requests of a pool access change the pseudo-channels and nothing else of the module. -/
theorem enqueueWords_frame (h : Hw) (write home : Bool) (sclass : Nat) (ws : List Nat) :
    enqueueWords h write home sclass ws = { h with mems := (enqueueWords h write home sclass ws).mems } := by
  have step {α : Type} (l : List α) (f : Hw → α → Hw) (hf : ∀ g i, f g i = { g with mems := (f g i).mems }) (h : Hw) :
      ∃ m, l.foldl f h = { h with mems := m } := by
    induction l generalizing h with
    | nil => exact ⟨h.mems, rfl⟩
    | cons x r ih =>
      obtain ⟨m, e⟩ := ih (f h x)
      exact ⟨m, by rw [List.foldl_cons, e, hf h x]⟩
  unfold enqueueWords
  obtain ⟨m, e⟩ := step _ _ (fun g i => enqueue_frame g _ _) h
  rw [e]

/-- A change of a link changes the links, and raises 0x310 when LINKS becomes FULL (R549). -/
theorem modLink_frame (h : Hw) (n : Nat) (f : Link → Link) :
    modLink h n f = { h with links := (modLink h n f).links, evc := (modLink h n f).evc } := by
  unfold modLink settleLinks
  split
  · rw [raise_frame]; rfl
  · rfl

/-- The link is as the change makes it. -/
theorem modLink_link (h : Hw) (n : Nat) (f : Link → Link) : (modLink h n f).link n = f (h.link n) := by
  unfold modLink settleLinks
  have e : (h.setLink n (f (h.link n))).link n = f (h.link n) := by simp
  split
  · rw [raise_frame]; exact e
  · exact e

/-- A flit that reaches an elastic buffer with room is handed on, whatever slots have passed (R397). -/
theorem elastic_kept (h : Hw) (n : Nat) (hf : (h.link n).rx.fill < 16) : elastic h n =
    (true, modLink (freshBits 8 h).2 n fun l => { l with rx := { l.rx with fill := (h.link n).rx.fill - (freshBits 8 h).1 + 1 } }) := by
  have e : ((freshBits 8 h).2.link n).rx.fill = (h.link n).rx.fill := rfl
  simp only [elastic, e]
  rw [if_neg (by omega)]

/-- A full one discards it: LANE_ELASTIC is raised and the overflow counted (R397). -/
theorem elastic_lost (h : Hw) (n : Nat) (hf : 16 ≤ (h.link n).rx.fill - (freshBits 8 h).1) : elastic h n =
    (false, raise (modLink (freshBits 8 h).2 n fun l => { l.count 16 with rx := { l.rx with fill := (h.link n).rx.fill - (freshBits 8 h).1 } })
      0x31B (4 * n + (bitsOf 4 ((freshBits 8 h).2.link n).rxLanes).headD 0)) := by
  have e : ((freshBits 8 h).2.link n).rx.fill = (h.link n).rx.fill := rfl
  simp only [elastic, e]
  rw [if_pos hf]

/-- The link after a flit that its buffer handed on. -/
theorem handedOn_link (h : Hw) (n : Nat) (f : List Byte) (hf : (h.link n).rx.fill < 16) : (handedOn h n f).link n =
    { h.link n with rx := { heard (h.link n) f with fill := (h.link n).rx.fill - (freshBits 8 h).1 + 1 } } := by
  have e : ((modLink h n fun l => { l with rx := heard l f }).link n).rx.fill = (h.link n).rx.fill := by rw [modLink_link]; rfl
  have e2 : (freshBits 8 (modLink h n fun l => { l with rx := heard l f })).1 = (freshBits 8 h).1 := by rw [modLink_frame]; rfl
  have e3 : (freshBits 8 (modLink h n fun l => { l with rx := heard l f })).2.link n = { h.link n with rx := heard (h.link n) f } :=
    modLink_link h n _
  unfold handedOn
  rw [elastic_kept _ _ (by omega), modLink_link, e, e2, e3]

@[simp] theorem heard_recover (l : Link) (f : List Byte) : (heard l f).recover = l.rx.recover := rfl
@[simp] theorem heard_expected (l : Link) (f : List Byte) : (heard l f).expected = l.rx.expected := rfl
@[simp] theorem heard_number (l : Link) (f : List Byte) : (heard l f).number = l.rx.number := rfl

/-- A flit that an ACTIVE link's elastic buffer has room for is taken (R397, R434). -/
theorem receiveFlit_kept (h : Hw) (n : Nat) (f : List Byte) (hs : (h.link n).state = 3) (hl : f.length = 192)
    (hf : (h.link n).rx.fill < 16) : receiveFlit h n f = takeFlit (handedOn h n f) n f := by
  have e := elastic_kept (modLink h n fun l => { l with rx := heard l f }) n (by rw [modLink_link]; exact hf)
  unfold receiveFlit handedOn
  rw [if_neg (by simp [hs, hl])]
  simp only [e, if_true]

/-- A flit that finds it full, after the slots since the last one, is heard and discarded (R397). -/
theorem receiveFlit_lost (h : Hw) (n : Nat) (f : List Byte) (hs : (h.link n).state = 3) (hl : f.length = 192)
    (hf : 16 ≤ (h.link n).rx.fill - (freshBits 8 h).1) : receiveFlit h n f = handedOn h n f := by
  have e : (freshBits 8 (modLink h n fun l => { l with rx := heard l f })).1 = (freshBits 8 h).1 := by rw [modLink_frame]; rfl
  have e2 : ((freshBits 8 (modLink h n fun l => { l with rx := heard l f })).2.link n).rx.fill = (h.link n).rx.fill := by
    show ((modLink h n fun l => { l with rx := heard l f }).link n).rx.fill = _
    rw [modLink_link]; rfl
  have k : (elastic (modLink h n fun l => { l with rx := heard l f }) n).1 = false := by
    simp only [elastic, e, e2]
    rw [if_pos hf]
  unfold receiveFlit handedOn
  rw [if_neg (by simp [hs, hl])]
  simp only [k, Bool.false_eq_true, if_false]

/-- A packet that leaves its port's buffer changes the list of arrived packets and the credits of its link. -/
theorem leaveBuffer_frame (h : Hw) (port : Nat) (p : Packet) : leaveBuffer h port p =
    { h with router := (leaveBuffer h port p).router, links := (leaveBuffer h port p).links, evc := (leaveBuffer h port p).evc } := by
  unfold leaveBuffer
  split
  · dsimp only
    rw [modLink_frame]
  · rfl

@[simp] theorem leaveBuffer_time (h : Hw) (port : Nat) (p : Packet) : (leaveBuffer h port p).time = h.time := by rw [leaveBuffer_frame]
@[simp] theorem leaveBuffer_clk (h : Hw) (port : Nat) (p : Packet) : (leaveBuffer h port p).clk = h.clk := by rw [leaveBuffer_frame]
@[simp] theorem leaveBuffer_sys (h : Hw) (port : Nat) (p : Packet) : (leaveBuffer h port p).sys = h.sys := by rw [leaveBuffer_frame]
@[simp] theorem leaveBuffer_pair (h : Hw) (port : Nat) (p : Packet) : (leaveBuffer h port p).pair = h.pair := by rw [leaveBuffer_frame]
@[simp] theorem dropTime_time (h : Hw) (port : Nat) (p : Packet) : (dropTime h port p).time = h.time := by
  unfold dropTime takeInbox; exact leaveBuffer_time h port p
@[simp] theorem dropTime_clk (h : Hw) (port : Nat) (p : Packet) : (dropTime h port p).clk = h.clk := by
  unfold dropTime takeInbox; exact leaveBuffer_clk h port p
/-- Whom a time message is for does not rest on the buffer that it leaves. -/
@[simp] theorem timeHere_dropTime (h : Hw) (port k : Nat) (p q : Packet) : timeHere (dropTime h port p) k q = timeHere h k q := by
  simp only [timeHere, isOwn, activeServices, mirrorLinks, dropTime, takeInbox, leaveBuffer_sys, leaveBuffer_pair]

/-! ### Answers and requests of the mailboxes -/

/-- An answer takes one free value (ELAPSED_US), changes its own mailbox, leaves the order of the others, and may raise MBX_DONE. -/
theorem answer_frame (h : Hw) (m : Nat) (r : Reply) : answer h m r =
    { h with freeCount := h.freeCount + 1, mbx := (answer h m r).mbx, mbxOrder := h.mbxOrder.filter (fun k => k != m)
             evc := (answer h m r).evc } := by
  unfold answer; dsimp only
  split
  · rw [raise_frame]; rfl
  · rfl

/-- What stands in the answered mailbox (R520, R525, R526). -/
theorem answer_mailbox (h : Hw) (m : Nat) (r : Reply) : (answer h m r).mailbox m =
    { h.mailbox m with
      rsp := putWords (h.mailbox m).rsp (bodyWords ((r.body.drop (2016 * (h.mailbox m).part)).take 2016)), index := r.index % 2 ^ 32
      elapsed := (freshBits 32 h).1, state := 2, status := r.status, reason := r.reason
      rlen := ((r.body.drop (2016 * (h.mailbox m).part)).take 2016).length
      parts := Nat.max 1 ((r.body.length + 2015) / 2016), seq := ((h.mailbox m).seq + 1) % 2 ^ 32, work := none } := by
  unfold answer; dsimp only
  split
  · rw [raise_frame]; simp [Hw.mailbox, Hw.setMailbox, freshBits, fresh]
  · simp [Hw.mailbox, Hw.setMailbox, freshBits, fresh]

/-- The other mailboxes are as they were. -/
theorem answer_mailbox_of_ne (h : Hw) {m k : Nat} (r : Reply) (hk : k ≠ m) : (answer h m r).mailbox k = h.mailbox k := by
  unfold answer; dsimp only
  split
  · rw [raise_frame]; simp [Hw.mailbox, Hw.setMailbox, KMap.get_set, hk, freshBits, fresh]
  · simp [Hw.mailbox, Hw.setMailbox, KMap.get_set, hk, freshBits, fresh]

/-- A request that stands is served by its command's meaning, whose reply is the answer. -/
theorem runCommand_of_asks {s : State} {m op : Nat} {params : List Param} {query : Bool} {vals : List Nat}
    (body : Req → State → State × Option Reply) (h : Asks s m op params query vals) : runCommand s m op params query body =
      match (body (theRequest s m vals) s).2 with
      | none => (body (theRequest s m vals) s).1
      | some r => (body (theRequest s m vals) s).1.onHw (fun g => answer g m r) := by
  obtain ⟨h1, h2, h3⟩ := h
  unfold runCommand
  simp only [h1, h2, h3, if_true, theRequest]
  split <;> simp_all

theorem runHw_of_asks {s : State} {m op : Nat} {params : List Param} {query : Bool} {vals : List Nat}
    (body : Req → Hw → Hw × Option Reply) (h : Asks s m op params query vals) : runHw s m op params query body =
      match (body (theRequest s m vals) s.hw).2 with
      | none => s.onHw fun _ => (body (theRequest s m vals) s.hw).1
      | some r => s.onHw fun _ => answer (body (theRequest s m vals) s.hw).1 m r := by
  rw [runHw, runCommand_of_asks _ h]
  rfl

/-- A row that names a mailbox without such a request changes nothing. -/
theorem runCommand_of_idle {s : State} {m op : Nat} {params : List Param} {query : Bool} (body : Req → State → State × Option Reply)
    (h : mayRun s.hw m op = false) : runCommand s m op params query body = s := by
  simp [runCommand, h]

/-- A malformed request is answered, and the command's meaning has no part in it. -/
theorem runCommand_of_refused {s : State} {m op : Nat} {params : List Param} {query : Bool} {vals : List Nat} {r : Reply}
    (body : Req → State → State × Option Reply) (h : mayRun s.hw m op = true) (hr : checkRequest s.hw m params query = (some r, vals)) :
    runCommand s m op params query body = s.onHw fun g => answer g m r := by
  simp [runCommand, h, hr]

/-! ### What the home reads of the state is untouched by a mirror record -/

theorem inPool_emit (h : Hw) (v : Nat) (i : MirrorItem) (a : Nat) : inPool (emit h v i) a = inPool h a := by
  unfold emit
  split <;> rfl

@[simp] theorem matched_emit (h : Hw) (v : Nat) (i : MirrorItem) (p : Packet) : matched (emit h v i) p = matched h p := by
  unfold emit
  split <;> rfl

theorem isDead_emit (h : Hw) (v : Nat) (i : MirrorItem) (n : Nat) : isDead (emit h v i) n = isDead h n := by
  unfold emit
  split <;> rfl

theorem addressFault_emit (h : Hw) (v : Nat) (i : MirrorItem) (p : Packet) : (addressFault (emit h v i) p).isNone = (addressFault h p).isNone := by
  unfold addressFault
  rw [inPool_emit]
  split
  · rfl
  · split
    · rfl
    · split <;> rfl

/-- An answer that an open transaction awaits is noted for the standby and taken; rebuilds that waited for a slot go on. -/
theorem answerArrives_of_awaited {s : State} {op t k : Nat} {p : Packet} {x : Txn} (f : State → State) (h : Awaited s op p t k x) (ho : op ≠ 0x34) :
    answerArrives op p f s = retryRebuilds (homeTile p) (f (noted s p t k)) := by
  obtain ⟨h1, h2, h3, h4⟩ := h
  have e : takenFor (taken s p).hw p = some (t, k) := by simp [takenFor, h1, ho, h4]
  unfold answerArrives
  simp only [h1, h2, h3, bne_self_eq_false, Bool.not_true, Bool.or_self, Bool.false_eq_true, if_false]
  simp only [noted, taken, State.onHw] at e ⊢
  rw [e]
  rfl

theorem matched_noted {s : State} {op t k : Nat} {p : Packet} {x : Txn} (h : Awaited s op p t k x) : matched (noted s p t k).hw p = some (t, k, x) :=
  (matched_emit _ _ _ _).trans h.2.2.2

/-- Equalizers that adapt leave a lane's margins as they are (R392). -/
theorem adapt_lane (h : Hw) (k : Nat) : (adapt h k).lane k =
    { h.lane k with ffe := (freshList 24 h).1, dfe := (freshBits 8 (freshList 24 h).2).1 } := by
  have e : ∀ (n : Nat) (h : Hw), (freshList n h).2.lanes = h.lanes := by
    intro n
    induction n with
    | zero => intro h; rfl
    | succ n ih => intro h; simp only [freshList]; exact ih _
  have e2 : (freshBits 8 (freshList 24 h).2).2.lane k = h.lane k := by
    show KMap.get (freshList 24 h).2.lanes k = KMap.get h.lanes k
    rw [e]
  unfold adapt
  simp only [Hw.setLane, Hw.lane, KMap.get_set_self]
  simp only [Hw.lane] at e2
  rw [e2]

theorem adapt_degraded (h : Hw) (k : Nat) : ((adapt h k).lane k).degraded = (h.lane k).degraded := by rw [adapt_lane]

/-! ### A slot of a pseudo-channel -/

/-- The slot of a queue's only request, in its last burst (R338). -/
theorem issueSlot_last {p : PseudoChannel} {r : McsReq} {ageLimit pdIdle : Nat} (hd : p.due = []) (hq : p.queue = [r]) (hb : r.bursts ≤ 1)
    (hc : chooseBurst p ageLimit = some (0, 3)) : issueSlot p ageLimit pdIdle = (lastBurst p r pdIdle, r.wipes) := by
  have e : ∀ (x : PseudoChannel) (b : Nat), x.queue = [] → (idleBank x b).queue = [] := by
    intro x b h
    simp [idleBank, PseudoChannel.queued, h, PseudoChannel.setBank]
  unfold issueSlot
  simp only [hd, hc, PseudoChannel.req, hq, List.getD_cons_zero, hb, decide_true, if_true, List.eraseIdx_cons_zero]
  cases hw : r.write <;> simp [lastBurst, hw, e, slotPasses, b2n, burstTo, PseudoChannel.setBank, PseudoChannel.bank, slotNs]

theorem idleBank_wipes (p : PseudoChannel) (b : Nat) : (idleBank p b).wipes = p.wipes := by
  unfold idleBank
  split <;> rfl

theorem lastBurst_wipes (p : PseudoChannel) (r : McsReq) (i : Nat) : (lastBurst p r i).wipes = p.wipes := by
  simp only [lastBurst, idleBank_wipes, slotPasses, burstTo, PseudoChannel.setBank]

theorem refill_nil {x : Slice} (k : Nat) (h : x.upstream = []) : refill x k = x := by
  unfold refill
  rw [h]
  simp only [List.foldl_nil]
  rw [← h]

theorem feedWipe_nil (t k : Nat) {p : PseudoChannel} (h : p.wipes = []) : feedWipe t k p = p := by
  unfold feedWipe
  rw [h]
  split <;> rfl
/-- The same for the slice, where nothing waits upstream and nothing is wiped. -/
theorem mcsSlot_last {h : Hw} {t k : Nat} {r : McsReq} (hs : ((h.slice t).pc k).serves = true) (hl : h.clk.loss = false)
    (hd : ((h.slice t).pc k).due = []) (hq : ((h.slice t).pc k).queue = [r]) (hb : r.bursts ≤ 1)
    (hc : chooseBurst ((h.slice t).pc k) (h.slice t).ageLimit = some (0, 3)) (hw : ((h.slice t).pc k).wipes = []) (hu : (h.slice t).upstream = []) :
    mcsSlot h t k = (modPc h t k fun p => lastBurst p r (h.slice t).pdIdle, r.wipes) := by
  have a := (lastBurst_wipes ((h.slice t).pc k) r (h.slice t).pdIdle).trans hw
  unfold mcsSlot
  simp only [hs, hl, issueSlot_last hd hq hb hc, Bool.not_false, Bool.and_self, if_true, feedWipe_nil t k a]
  have c := refill_nil (x := (h.slice t).setPc k (lastBurst ((h.slice t).pc k) r (h.slice t).pdIdle)) k hu
  rw [c]
  rfl

end Sys2Proof.Machine
end

