-- ==== Sys2Proof/Certificates/Slice0/Obligations.lean ====
section
/-!
DEFINITION. The statements for the provers. A statement that says `.next` of a state written out from the state before says the
command's whole effect: what is not written there is unchanged.
-/
open Sys2Proof Sys2Proof.Machine

/-- Step runs the command at the front of the queue on the state with the queue's rest. -/
def Obligations.StepRunsFrontCommand : Prop :=
  ∀ (s : State) (c : Instr) (rest : List Instr), s.pending = c :: rest → step s = exec c { s with pending := rest }

/-- With no command waiting, a cycle of CLK_FAB passes (the model's choice, log entry 2): fabric time goes on while that clock runs, and nothing else changes. -/
def Obligations.EmptyQueueCountsTime : Prop :=
  ∀ s : State, s.pending = [] → step s = .next (if fabricRuns s.hw then s.onHw fun h => { h with time := tickTime h.clk.loss h.time } else s)

/-- Every command answers a next state, in every state. -/
def Obligations.EveryCommandTakesEffect : Prop :=
  ∀ (c : Instr) (s : State), ∃ t, exec c s = .next t

/-- No command changes the commands that wait. -/
def Obligations.CommandsLeaveTheQueue : Prop :=
  ∀ (c : Instr) (s t : State), exec c s = .next t → t.pending = s.pending

/-- Pool memory is in its canonical form after reset. -/
def Obligations.ResetMemoryIsCanonical : Prop :=
  PoolCanonical State.reset

/-- Every step keeps pool memory in its canonical form: addresses rising, and no byte listed that reads as an unlisted one. -/
def Obligations.StepsKeepMemoryCanonical : Prop :=
  ∀ s t : State, PoolCanonical s → step s = .next t → PoolCanonical t

/-- A command outside those that `touchesMemory` names leaves every byte and every poison flag of pool memory as it is. -/
def Obligations.OtherCommandsSpareMemory : Prop :=
  ∀ (c : Instr) (s t : State), touchesMemory c = false → exec c s = .next t → t.pool = s.pool

/-- Tile, pseudo-channel, row, bank and column tell any two bytes of the pool apart. -/
def Obligations.PoolBytesLieApart : Prop :=
  ∀ a b : Nat, tileOf a = tileOf b → pcOf a = pcOf b → rowOf a = rowOf b → bankOf a = bankOf b → pcOffset a % 1024 = pcOffset b % 1024 → a < poolSize → b < poolSize → a = b

/-- A whole clean word reads back as stored, and a store to a word without stored-bit errors leaves every other word as it was. -/
def Obligations.WordsReadAsStored : Prop :=
  ∀ (s : State) (w off : Nat) (bs : List Byte) (pz : Bool), off + bs.length ≤ 8 →
    (bs.length = 8 → pz = false → (loadWord (storeWord s w off bs pz) w).1 = bs ∧ (loadWord (storeWord s w off bs pz) w).2.1 = false) ∧
    (KMap.find? s.pool.errs w = none →
    (pz = true → (storeWord s w off bs pz).pool.poisoned w = true ∧ (storeWord s w off bs pz).pool.mem = s.pool.mem) ∧
    (bs.length < 8 → pz = false → s.pool.poisoned w = false → ∀ i, i < bs.length →
      Memory.read (storeWord s w off bs pz).pool.mem (8 * w + off + i) = bs.getD i 0) ∧
    (∀ a, a < 8 * w + off ∨ 8 * w + off + bs.length ≤ a → Memory.read (storeWord s w off bs pz).pool.mem a = Memory.read s.pool.mem a) ∧
    (∀ v, v ≠ w → (storeWord s w off bs pz).pool.poisoned v = s.pool.poisoned v))

/-- Every field of a link control word reads back from its 64 bits. -/
def Obligations.ControlWordKeepsItsFields : Prop :=
  ∀ c : LinkControl, c.ftype < 8 → c.nakId < 4 → c.ack < 4096 → c.crvc < 8 → c.crcum < 4096 → c.first < 64 → c.rseq < 4096 → c.rsv < 8192 →
    LinkControl.ofNat c.toNat = c ∧ c.toNat < 2 ^ 64

/-- EVC_INSERV n, at offset 0x002_3080 + 8 × n, shows in its bit b the IN_SERVICE bit of source 64n + b, reads zero after reset, and is read-only. -/
def Obligations.InServiceReads : Prop :=
  ∀ (h : Hw) (n b : Nat), n < 16 → b < 64 → h.sys.phase ≠ 2 →
    tbit (readReg h (0x23080 + 8 * n) 8).1 b = (h.source (64 * n + b)).inService.isSome ∧
    (readReg h (0x23080 + 8 * n) 8).1 < 2 ^ 64 ∧
    (readReg State.reset.hw (0x23080 + 8 * n) 8).1 = 0 ∧
    ∀ (who : Requester) (size value : Nat), writeReg h who (0x23080 + 8 * n) size value = h

/-- PWR.LIMIT returns DENIED, with REASON RANGE or RESERVED, if LIMIT_W (300 to 1,200) is out of range or a reserved field is non-zero, and otherwise OK with the limit taken. -/
def Obligations.PwrLimitAnswers : Prop :=
  ∀ (s : State) (m : Fin 16), mayRun s.hw m 0xF02 = true → s.hw.tap.unlock ≠ 1 → (s.hw.mailbox m).len = 8 → (s.hw.mailbox m).part = 0 →
    exec (.pwrLimit m) s = .next (
      if 2 ^ 12 ≤ (s.hw.mailbox m).body ∨ (s.hw.mailbox m).reserved ≠ 0 then served s m id (Reply.denied rReserved)
      else if (s.hw.mailbox m).body < 300 ∨ 1200 < (s.hw.mailbox m).body then served s m id (Reply.denied rRange)
      else served s m fun h => { h with pwr := { h.pwr with limitNext := (s.hw.mailbox m).body } })

/-- CTX.MODIFY changes FAULT_NOTIFY and FAULT_TIMEOUT of a bound context and no other parameter, and returns DENIED if the context is unbound. -/
def Obligations.ContextModifyChangesTwoFields : Prop :=
  ∀ (s : State) (m : Fin 16) (c n t : Nat), Asks s m 0x202 [.f 16, .f 60, .f 32] false [c, n, t] →
    ((s.hw.ctx c).bound = true → badTimeout t = false →
      exec (.ctxModify m) s = .next (mirrored s (served s m fun h => h.setCtx c { h.ctx c with notify := n, timeout := t }))) ∧
    ((s.hw.ctx c).bound = false → exec (.ctxModify m) s = .next (mirrored s (served s m id (Reply.denied rState))))

/-- A requester's rights in a region are the OR of R, W and AT over every entry that names it, directly or through a group it belongs to; with no such entry it has none. -/
def Obligations.RightsAreTheOrOfEntries : Prop :=
  ∀ (h : Hw) (r : Region) (n : Nat),
    (∀ e : AclEntry, e.names h n = true ↔ (e.group = false ∧ e.id = n) ∨ (e.group = true ∧ inGroup h e.id n = true)) ∧
    (hasRight h r n .read = true ↔ ∃ e ∈ r.acl, e.names h n = true ∧ e.r = true) ∧
    (hasRight h r n .write = true ↔ ∃ e ∈ r.acl, e.names h n = true ∧ e.w = true) ∧
    (hasRight h r n .atomic = true ↔ ∃ e ∈ r.acl, e.names h n = true ∧ e.atomic = true) ∧
    ((∀ e ∈ r.acl, e.names h n = false) → hasRight h r n .read = false ∧ hasRight h r n .write = false ∧ hasRight h r n .atomic = false)

/-- A receiver undoes precoding, Gray mapping and scrambling, whatever the symbols, the bytes and the register, and the register after a flit depends on the number of its bytes alone. -/
def Obligations.LaneCodingReverses : Prop :=
  (∀ (g : List Nat) (last : Nat), last < 4 → (∀ x ∈ g, x < 4) → unprecode (precodeSymbols g last) last = g) ∧
  (∀ p : Nat, p < 4 → grayBits (grayOf p) = p ∧ grayOf p < 4) ∧
  (∀ (b : List Nat) (x : Nat), (scrambleBytes (scrambleBytes b x).1 x).1 = b) ∧
  (∀ (b c : List Nat) (x : Nat), b.length = c.length → (scrambleBytes b x).2 = (scrambleBytes c x).2)

/-- An E8M0 code c of 0 to 254 has value 2^(c − 127), exactly; code 0xFF is NaN; and none has a sign, is zero or is infinite. -/
def Obligations.ScaleCodesAreExact : Prop :=
  ∀ (f c : Nat) (cb : List Nat), fElem f = 14 → c < 256 →
    (c ≤ 254 → decodeElem f cb c = .fin false { m := 1, e := (c : Int) - 127 }) ∧ (c = 255 → decodeElem f cb c = .nan) ∧
    (∀ n, decodeElem f cb c ≠ .inf n) ∧ (∀ n v, decodeElem f cb c = .fin n v → n = false ∧ v.m ≠ 0)

/-- An instance has NSEG = ⌈COUNT ÷ SEG_ELEMS⌉ segments; segment s covers elements s × SEG_ELEMS up to the lesser of (s + 1) × SEG_ELEMS and COUNT, NELEM(s) of them; every segment but the last holds SEG_ELEMS, and the last holds COUNT − (NSEG − 1) × SEG_ELEMS, a multiple of 32. -/
def Obligations.SegmentsCoverAnInstance : Prop :=
  ∀ g : Group, 8 ≤ g.segLog2 → 32 ≤ g.count → g.count % 32 = 0 →
    (∀ k, g.nseg ≤ k ↔ g.count ≤ k * g.segElems) ∧
    (∀ k, k < g.nseg → k * g.segElems + g.nelem k = Nat.min ((k + 1) * g.segElems) g.count ∧ 0 < g.nelem k) ∧
    (∀ k, k + 1 < g.nseg → g.nelem k = g.segElems) ∧
    g.nelem (g.nseg - 1) = g.count - (g.nseg - 1) * g.segElems ∧ g.nelem (g.nseg - 1) % 32 = 0

/-- While a mailbox is BUSY a write of its request half, MBX_RING apart, changes IGNORED alone, and a write of its response half never changes anything. -/
def Obligations.BusyMailboxesKeepTheirRequest : Prop :=
  ∀ (h : Hw) (who : Requester) (m : Fin 16) (o value : Nat), o % 8 = 0 →
    (o < 0x800 → o ≠ 0x18 → (h.mailbox m).state = 1 →
      writeReg h who (0x10000 + 0x1000 * m + o) 8 value = h.setMailbox m { h.mailbox m with ignored := satInc 16 (h.mailbox m).ignored }) ∧
    (0x800 ≤ o → o < 0x1000 → writeReg h who (0x10000 + 0x1000 * m + o) 8 value = h)

/-- A ring is accepted and waits, MBX.INFO answers its record, MBX.NOP answers its own body. -/
def Obligations.MailboxServiceCompletes : Prop :=
  (∀ (s : State) (m : Fin 16) (who : Requester) (value : Word),
    tbit value.toNat 0 = true →
    mayManage s.hw who = true →
    s.hw.sys.phase = 1 →
    (s.hw.mailbox m).state ≠ 1 →
    opcodeKnown (s.hw.mailbox m).opcode = true →
    exec (.mbxRing who m value) s = .next (s.onHw fun h =>
      let x := h.mailbox m
      raise { h.setMailbox m { x with
          state := 1, rtag := x.tag, work := none, ringer := match who with | .pcie => 0 | .fabric n => n
          pcie := match who with | .pcie => true | .fabric _ => false } with mbxOrder := h.mbxOrder ++ [m.val] } (0x380 + m) 0)) ∧
  (∀ (s : State) (m : Fin 16),
    Asks s m 0x101 [] false [] →
    exec (.mbxInfo m) s = .next (served s m id (Reply.ok (infoRecord s.hw)))) ∧
  (∀ (s : State) (m : Fin 16),
    mayRun s.hw m 0x102 = true →
    s.hw.tap.unlock ≠ 1 →
    (s.hw.mailbox m).len % 8 = 0 →
    (s.hw.mailbox m).len ≤ 2016 →
    (s.hw.mailbox m).reserved = 0 →
    (s.hw.mailbox m).part = 0 →
    exec (.mbxNop m) s = .next (served s m id (Reply.ok (leBytes (s.hw.mailbox m).len (s.hw.mailbox m).body))))

/-- The GPIO commands and a filtered level change the pins they name and answer. -/
def Obligations.GpioCommandsComplete : Prop :=
  (∀ (s : State) (pin : Fin 8) (high : Bool),
    exec (.gpioFilterExpiry pin high) s = .next (s.onHw fun h => settlePin (h.setPin pin { h.pin pin with level := high }) pin)) ∧
  (∀ (s : State) (m : Fin 16) (mask d od pull pol us : Nat),
    Asks s m 0x1001 [.f 8, .f 1, .f 1, .f 2, .f 1, .f 10] false [mask, d, od, pull, pol, us] →
    pull ≠ 3 →
    us ≤ 1000 →
    exec (.gpioConfig m) s = .next (served s m fun h => forAll (bitsOf 8 mask) (fun p h => settlePin (h.setPin p
        { h.pin p with dir := d == 1, od := od == 1, pull := pull, polarity := pol == 1, filterUs := us }) p) h)) ∧
  (∀ (s : State) (m : Fin 16) (mask x : Nat),
    Asks s m 0x1002 [.f 8, .f 8] false [mask, x] →
    exec (.gpioSet m) s = .next (served s m fun h => forAll (bitsOf 8 mask) (fun p h => h.setPin p { h.pin p with latch := tbit x p }) h)) ∧
  (∀ (s : State) (m : Fin 16),
    Asks s m 0x1003 [] false [] →
    exec (.gpioQuery m) s = .next (served s m id (Reply.ok (gpioItems s.hw))))

/-- Claims, completions, messages, timers and slot clears change the event controller as the rules say. -/
def Obligations.EventCommandsComplete : Prop :=
  (∀ (s : State) (v : Fin 68) (n : Nat),
    (s.hw.vector v).outstanding < 16 →
    claimPick s.hw v = some n →
    exec (.evcClaim v) s = .next (s.onHw fun h =>
      (h.setSource n { h.source n with count := 0, inService := some v.val }).setVector v { h.vector v with
        unanswered := false, attempted := false, outstanding := (h.vector v).outstanding + 1, lastClaimed := n
        claimResult := claimWord n (h.source n) })) ∧
  (∀ (s : State) (v : Fin 68) (value : Word),
    (s.hw.source (value.toNat % 1024)).inService = some v.val →
    exec (.evcComplete v value) s = .next (s.onHw fun h => (settleTarget (h.setSource (value.toNat % 1024) { h.source (value.toNat % 1024) with inService := none })
      (value.toNat % 1024)).setVector v { h.vector v with outstanding := (h.vector v).outstanding - 1, attempted := false })) ∧
  (∀ (s : State) (v : Fin 68) (value : Word),
    (s.hw.source (value.toNat % 1024)).inService ≠ some v.val →
    exec (.evcComplete v value) s = .next (s.onHw fun h => h.setVector v { h.vector v with badComplete := satInc 16 (h.vector v).badComplete })) ∧
  (∀ (s : State) (v : Fin 68),
    mayMessage s.hw v = true →
    (s.hw.vector v).attempted = false →
    v.val < 64 →
    messageHeld s.hw v = false →
    (s.hw.vector v).delivery = false →
    exec (.vectorMessageSend v) s = .next (s.onHw fun h => messageSent { h with pcie := { h.pcie with mastered := some ((h.vector v).msixAddr, (h.vector v).msixData) } } v)) ∧
  (∀ (s : State) (v : Fin 68),
    (s.hw.vector v).unanswered = true →
    exec (.unansweredTimeout v) s = .next (s.onHw fun h => h.setVector v { h.vector v with unanswered := false, attempted := false })) ∧
  (∀ (s : State) (v : Fin 68),
    exec (.moderationExpiry v) s = .next (s.onHw fun h => h.setVector v { h.vector v with modPassed := true })) ∧
  (∀ (s : State) (v : Fin 64) (value : Word),
    (s.hw.vector v).held = false →
    exec (.evcMsixCtlWrite v value) s = .next (s.onHw fun h => h.setVector v { h.vector v with
      msixData := fld value.toNat 0 32, msixMask := tbit value.toNat 32, attempted := false, held := false })) ∧
  (∀ (s : State) (log : Fin 165) (value : Word),
    value.toNat % 2 = 1 →
    exec (.errSlotClear log 0 value) s = .next (s.onHw fun h => settleFatal (h.setLog log { h.log log with first := { (h.log log).first with valid := false } }) log)) ∧
  (∀ (s : State) (log : Fin 165) (value : Word),
    value.toNat % 2 = 1 →
    exec (.errSlotClear log 1 value) s = .next (s.onHw fun h => settleFatal (h.setLog log { h.log log with latest := { (h.log log).latest with valid := false } }) log)) ∧
  (∀ (s : State) (log : Fin 165) (value : Word),
    value.toNat % 2 = 1 →
    exec (.errSlotClear log 2 value) s = .next (s.onHw fun h => settleFatal (h.setLog log { h.log log with fatal := { (h.log log).fatal with valid := false } }) log))

/-- A child follows SYNC, DELAY_RESP and ANNOUNCE, every module answers DELAY_REQ, and the timers send. -/
def Obligations.TimeMessagesComplete : Prop :=
  (∀ (s : State) (port : Fin 64) (p : Packet) (arrival : Nat),
    timeLegal p 0x70 = true →
    s.hw.time.role = 2 →
    port.val = s.hw.time.parent →
    s.hw.clk.loss = false →
    timeHere s.hw s.hw.time.parent p = true →
    exec (.sync port p arrival) s = .next (s.onHw fun h => (dropTime h port p).modTime fun t => takeSync t p arrival)) ∧
  (∀ (s : State) (port : Fin 64) (p : Packet) (arrival : Nat),
    timeLegal p 0x71 = true →
    ((dropTime s.hw port p).link port).state = 3 →
    timeHere s.hw port p = true →
    exec (.delayReq port p arrival) s = .next (s.onHw fun h => sendOn (dropTime h port p) port
      (timePacket (dropTime h port p) 0x72 port (tf p 0 64) arrival 0 (tf p 192 16) 0 0))) ∧
  (∀ (s : State) (port : Fin 64) (p : Packet) (arrival t1 : Nat),
    timeLegal p 0x72 = true →
    s.hw.time.request = some (tf p 192 16, t1) →
    s.hw.time.role = 2 →
    port.val = s.hw.time.parent →
    timeHere s.hw s.hw.time.parent p = true →
    exec (.delayResp port p arrival) s = .next (s.onHw fun h => (dropTime h port p).modTime fun t => { t with
      delay := (((arrival : Int) - t1) - ((tf p 128 64 : Int) - tf p 64 64)) / 2, request := none })) ∧
  (∀ (s : State) (port : Fin 64) (p : Packet) (arrival : Nat),
    timeLegal p 0x73 = true →
    s.hw.time.role = 2 →
    port.val = s.hw.time.parent →
    timeHere s.hw s.hw.time.parent p = true →
    exec (.announce port p arrival) s = .next (s.onHw fun h => (dropTime h port p).modTime fun t => { t with root := tf p 208 12, steps := (tf p 220 8 + 1) % 256 })) ∧
  (∀ (s : State),
    s.hw.time.state = 4 →
    (bitsOf 64 s.hw.time.syncOut).filter (fun k => liveLink s.hw k) = [] →
    exec (.syncIntervalTimer) s = .next (s.onHw fun h => { h with time := { h.time with seq := (h.time.seq + 1) % 2 ^ 16, syncInterval := h.time.syncNext } })) ∧
  (∀ (s : State) (n : Nat),
    s.hw.time.state = 4 →
    (bitsOf 64 s.hw.time.syncOut).filter (fun k => liveLink s.hw k) = [n] →
    exec (.syncIntervalTimer) s = .next (s.onHw fun h =>
      let t := h.time
      let h := sendOn h n (timePacket h 0x70 n 0 0 0 t.seq t.root t.steps)
      let h := sendOn h n (timePacket h 0x73 n 0 0 0 t.seq t.root t.steps)
      { h with time := { h.time with seq := (t.seq + 1) % 2 ^ 16, syncInterval := t.syncNext } })) ∧
  (∀ (s : State),
    s.hw.time.role = 2 →
    liveLink s.hw s.hw.time.parent = true →
    exec (.delayIntervalTimer) s = .next (s.onHw fun h =>
      let t := h.time
      let h := sendOn h t.parent (timePacket h 0x71 t.parent 0 0 0 t.seq 0 0)
      { h with time := { h.time with seq := (t.seq + 1) % 2 ^ 16, delayInterval := t.delayNext } }))

/-- Losing SYNC enters HOLDOVER, its limit FREE, and TIME.CONFIG, LINK, SET and QUERY have their effect. -/
def Obligations.TimeCommandsComplete : Prop :=
  (∀ (s : State),
    s.hw.time.role = 2 →
    s.hw.time.state = 2 →
    exec (.syncLoss) s = .next (s.onHw fun h => h.modTime fun t => { t with state := 3, good := 0, bad := 0 })) ∧
  (∀ (s : State),
    s.hw.time.state = 3 →
    exec (.holdoverLimitExpiry) s = .next (s.onHw fun h => raise (h.modTime fun t => { t with state := 0, root := 0, steps := 0, slew := 0, good := 0, bad := 0 }) 0x317 0)) ∧
  (∀ (s : State) (m : Fin 16) (role port si di hl : Nat),
    Asks s m 0xB09 [.f 2, .f 6, .f 16, .f 16, .f 32] false [role, port, si, di, hl] →
    role < 3 →
    (0 < si ∧ si ≤ 1000) →
    (10 ≤ di ∧ di ≤ 60000) →
    (100 ≤ hl ∧ hl ≤ 10000000) →
    (role = 2 → (s.hw.link port).state = 3) →
    exec (.timeConfig m) s = .next (served s m fun h => h.modTime fun t => { applyRole h role port t with syncNext := si, delayNext := di, holdoverLimit := hl })) ∧
  (∀ (s : State) (m : Fin 16) (n x on : Nat),
    Asks s m 0xB0A [.f 6, .f 32, .f 1] false [n, x, on] →
    exec (.timeLink m) s = .next (served s m fun h => { h with time := { h.time with
      asym := KMap.setD h.time.asym n (toInt 32 x) 0
      syncOut := if on = 1 then Nat.lor h.time.syncOut (2 ^ n) else h.time.syncOut - Nat.land h.time.syncOut (2 ^ n) } })) ∧
  (∀ (s : State) (m : Fin 16) (x : Nat),
    Asks s m 0xB0B [.f 64] false [x] →
    s.hw.time.role = 1 →
    exec (.timeSet m) s = .next (served s m fun h => { h with time := { h.time with now := x, slew := 0, frac := 0 } })) ∧
  (∀ (s : State) (m : Fin 16),
    Asks s m 0xB0C [] false [] →
    exec (.timeQuery m) s = .next (served s m id (Reply.ok (timeItems s.hw.time))))

/-- DATA, IDLE and REPLAY_START flits are taken, one that cannot be corrected starts the receiver's recovery, and a full elastic buffer discards one. -/
def Obligations.LinkFlitsComplete : Prop :=
  (∀ (s : State) (n : Fin 64) (flit b : List Byte) (k : Nat),
    flit.length = 192 →
    (s.hw.link n).state = 3 →
    (s.hw.link n).rx.fill < 16 →
    flitFec flit = some (b, k) →
    (LinkControl.ofNat (leNat (b.take 8))).ftype = 1 →
    (s.hw.link n).rx.recover = false →
    crcMatches b (s.hw.link n).rx.number = true →
    exec (.dataFlit n flit) s = .next (s.onHw fun h => takeSequenced (corrected h n flit k) n (LinkControl.ofNat (leNat (b.take 8))) b)) ∧
  (∀ (s : State) (n : Fin 64) (flit b : List Byte) (k : Nat),
    flit.length = 192 →
    (s.hw.link n).state = 3 →
    (s.hw.link n).rx.fill < 16 →
    flitFec flit = some (b, k) →
    (LinkControl.ofNat (leNat (b.take 8))).ftype = 0 →
    (s.hw.link n).rx.recover = false →
    crcMatches b (s.hw.link n).rx.number = true →
    exec (.idleFlit n flit) s = .next (s.onHw fun h => controlTaken h n flit k (LinkControl.ofNat (leNat (b.take 8))))) ∧
  (∀ (s : State) (n : Fin 64) (flit b : List Byte) (k : Nat),
    flit.length = 192 →
    (s.hw.link n).state = 3 →
    (s.hw.link n).rx.fill < 16 →
    flitFec flit = some (b, k) →
    (LinkControl.ofNat (leNat (b.take 8))).ftype = 2 →
    crcMatches b (LinkControl.ofNat (leNat (b.take 8))).rseq = true →
    ((s.hw.link n).rx.expected + 4096 - (LinkControl.ofNat (leNat (b.take 8))).rseq) % 4096 ≤ 512 →
    exec (.replayStart n flit) s = .next (s.onHw fun h => takeSequenced (modLink (corrected h n flit k) n fun l =>
      { l with rx := { l.rx with recover := false, number := (LinkControl.ofNat (leNat (b.take 8))).rseq } }) n (LinkControl.ofNat (leNat (b.take 8))) b)) ∧
  (∀ (s : State) (n : Fin 64) (flit : List Byte),
    flit.length = 192 →
    (s.hw.link n).state = 3 →
    (s.hw.link n).rx.fill < 16 →
    flitFec flit = none →
    exec (.flitFail n flit) s = .next (s.onHw fun h => flitFailed (handedOn h n flit) n)) ∧
  (∀ (s : State) (n : Fin 64) (flit : List Byte),
    flit.length = 192 →
    (s.hw.link n).state = 3 →
    16 ≤ (s.hw.link n).rx.fill - (freshBits 8 s.hw).1 →
    exec (.dataFlit n flit) s = .next (s.onHw fun h =>
      let g := (freshBits 8 (modLink h n fun l => { l with rx := heard l flit })).2
      raise (modLink g n fun l => { l.count 16 with rx := { l.rx with fill := (h.link n).rx.fill - (freshBits 8 h).1 } }) 0x31B
        (4 * n + (bitsOf 4 (g.link n).rxLanes).headD 0)))

/-- Each CTRL flit is taken and has the effect of its command. -/
def Obligations.LinkControlFlitsComplete : Prop :=
  (∀ (s : State) (n : Fin 64) (flit b : List Byte) (k : Nat) (w : Nat),
    flit.length = 192 →
    (s.hw.link n).state = 3 →
    (s.hw.link n).rx.fill < 16 →
    flitFec flit = some (b, k) →
    (LinkControl.ofNat (leNat (b.take 8))).ftype = 6 →
    (s.hw.link n).rx.recover = false →
    crcMatches b (s.hw.link n).rx.number = true →
    leNat ((b.drop 8).take 8) = w →
    fld w 0 8 = 1 →
    exec (.widthReq n flit) s = .next (s.onHw fun h => onWidthReq (controlTaken h n flit k (LinkControl.ofNat (leNat (b.take 8)))) n (fld w 8 8) (fld w 16 4) (fld w 32 12))) ∧
  (∀ (s : State) (n : Fin 64) (flit b : List Byte) (k : Nat) (w : Nat),
    flit.length = 192 →
    (s.hw.link n).state = 3 →
    (s.hw.link n).rx.fill < 16 →
    flitFec flit = some (b, k) →
    (LinkControl.ofNat (leNat (b.take 8))).ftype = 6 →
    (s.hw.link n).rx.recover = false →
    crcMatches b (s.hw.link n).rx.number = true →
    leNat ((b.drop 8).take 8) = w →
    fld w 0 8 = 2 →
    exec (.widthAck n flit) s = .next (s.onHw fun h => onWidthAck (controlTaken h n flit k (LinkControl.ofNat (leNat (b.take 8)))) n (fld w 8 8))) ∧
  (∀ (s : State) (n : Fin 64) (flit b : List Byte) (k : Nat) (w : Nat),
    flit.length = 192 →
    (s.hw.link n).state = 3 →
    (s.hw.link n).rx.fill < 16 →
    flitFec flit = some (b, k) →
    (LinkControl.ofNat (leNat (b.take 8))).ftype = 6 →
    (s.hw.link n).rx.recover = false →
    crcMatches b (s.hw.link n).rx.number = true →
    leNat ((b.drop 8).take 8) = w →
    fld w 0 8 = 3 →
    exec (.widthGo n flit) s = .next (s.onHw fun h => onWidthGo (controlTaken h n flit k (LinkControl.ofNat (leNat (b.take 8)))) n (fld w 8 8))) ∧
  (∀ (s : State) (n : Fin 64) (flit b : List Byte) (k : Nat) (w : Nat),
    flit.length = 192 →
    (s.hw.link n).state = 3 →
    (s.hw.link n).rx.fill < 16 →
    flitFec flit = some (b, k) →
    (LinkControl.ofNat (leNat (b.take 8))).ftype = 6 →
    (s.hw.link n).rx.recover = false →
    crcMatches b (s.hw.link n).rx.number = true →
    leNat ((b.drop 8).take 8) = w →
    fld w 0 8 = 4 →
    exec (.retrainReq n flit) s = .next (s.onHw fun h => enterRetrain (controlTaken h n flit k (LinkControl.ofNat (leNat (b.take 8)))) n)) ∧
  (∀ (s : State) (n : Fin 64) (flit b : List Byte) (k : Nat) (w : Nat),
    flit.length = 192 →
    (s.hw.link n).state = 3 →
    (s.hw.link n).rx.fill < 16 →
    flitFec flit = some (b, k) →
    (LinkControl.ofNat (leNat (b.take 8))).ftype = 6 →
    (s.hw.link n).rx.recover = false →
    crcMatches b (s.hw.link n).rx.number = true →
    leNat ((b.drop 8).take 8) = w →
    fld w 0 8 = 5 →
    exec (.rateReq n flit) s = .next (s.onHw fun h => enterRateTrain (controlTaken h n flit k (LinkControl.ofNat (leNat (b.take 8)))) n)) ∧
  (∀ (s : State) (n : Fin 64) (flit b : List Byte) (k : Nat) (w : Nat),
    flit.length = 192 →
    (s.hw.link n).state = 3 →
    (s.hw.link n).rx.fill < 16 →
    flitFec flit = some (b, k) →
    (LinkControl.ofNat (leNat (b.take 8))).ftype = 6 →
    (s.hw.link n).rx.recover = false →
    crcMatches b (s.hw.link n).rx.number = true →
    leNat ((b.drop 8).take 8) = w →
    fld w 0 8 = 6 →
    exec (.widthAbandon n flit) s = .next (s.onHw fun h => onWidthAbandon (controlTaken h n flit k (LinkControl.ofNat (leNat (b.take 8)))) n))

/-- Fillers and sleep markers are sent and taken, and each direction sleeps and wakes as its rules say. -/
def Obligations.LinkSleepComplete : Prop :=
  (∀ (s : State) (n : Fin 64) (b : List Byte),
    (s.hw.link n).state = 3 →
    blockIs 0xF3 b = true →
    exec (.filler n b) s = .next (s)) ∧
  (∀ (s : State) (n : Fin 64) (b : List Byte),
    (s.hw.link n).state = 3 →
    blockIs 0xF4 b = true →
    exec (.drowseMarker n b) s = .next (s.onHw fun h => modLink h n fun l => { l with rx := { l.rx with sleep := 2 } })) ∧
  (∀ (s : State) (n : Fin 64) (b : List Byte),
    (s.hw.link n).state = 3 →
    blockIs 0xF5 b = true →
    exec (.slumberMarker n b) s = .next (s.onHw fun h => modLink h n fun l => { l with rx := { l.rx with sleep := 3 } })) ∧
  (∀ (s : State) (n : Fin 64),
    (s.hw.link n).state = 3 →
    (s.hw.link n).tx.sleep = 1 →
    4096 ≤ (s.hw.link n).tx.sinceFiller →
    exec (.fillerSend n) s = .next (s.onHw fun h => modLink h n putFiller)) ∧
  (∀ (s : State) (n : Fin 64),
    (s.hw.link n).state = 3 →
    (s.hw.link n).tx.sleep = 1 →
    (s.hw.link n).drowse ≠ 0 →
    (s.hw.link n).tr.phase = 0 →
    hasToSend s.hw n = false →
    exec (.drowseIdleTimer n) s = .next (s.onHw fun h => modLink h n fun l => { l.putBlock 0xF4 with slumber := l.slumberNext, tx := { (l.putBlock 0xF4).tx with sleep := 2 } })) ∧
  (∀ (s : State) (n : Fin 64),
    (s.hw.link n).state = 3 →
    (s.hw.link n).tx.sleep = 2 →
    (s.hw.link n).slumber ≠ 0 →
    exec (.slumberIdleTimer n) s = .next (s.onHw fun h => modLink h n fun l => { l.putBlock 0xF5 with tx := { (l.putBlock 0xF5).tx with sleep := 3 } })) ∧
  (∀ (s : State) (n : Fin 64),
    (s.hw.link n).state = 3 →
    2 ≤ (s.hw.link n).tx.sleep →
    hasToSend s.hw n = true →
    exec (.transmitWake n) s = .next (s.onHw fun h => modLink (countWakes h n) n fun l => { l.putBlock 0x88 with drowse := l.drowseNext, tx := { (l.putBlock 0x88).tx with sleep := 1 } })) ∧
  (∀ (s : State) (n : Fin 64),
    (s.hw.link n).state = 3 →
    2 ≤ (s.hw.link n).rx.sleep →
    (s.hw.link n).tx.sleep < 2 →
    exec (.wakePattern n) s = .next (s.onHw fun h => modLink (countWakes h n) n fun l => { l with rx := { l.rx with sleep := 1 } })) ∧
  (∀ (s : State) (n : Fin 64),
    (s.hw.link n).state = 3 →
    exec (.wakeLate n) s = .next (s.onHw fun h => enterRetrain (forAll (lanesInUse h n) (fun k h => raise (h.setLane k { h.lane k with wakeLate := satInc 32 (h.lane k).wakeLate }) 0x31C k) h) n))

/-- Training blocks lead through DETECT, CONFIG and ACTIVE, and rate training and retraining end at what passed. -/
def Obligations.LinkTrainingComplete : Prop :=
  (∀ (s : State) (n : Fin 64) (b : List Byte) (t : TsBlock),
    tsTake b = some t →
    (s.hw.link n).state = 1 →
    7 ≤ (s.hw.link n).tr.tsRun →
    exec (.tsCap n b) s = .next (s.onHw fun h => modLink (partnerSeen h n t) n fun l => { l with state := 2, tr := { l.tr with tsRun := 0, ready := 0 } })) ∧
  (∀ (s : State) (n : Fin 64) (b : List Byte) (t : TsBlock),
    tsTake b = some t →
    (s.hw.link n).state = 1 →
    (s.hw.link n).tr.tsRun < 7 →
    exec (.tsCap n b) s = .next (s.onHw fun h => modLink (partnerSeen h n t) n fun l => { l with tr := { l.tr with tsRun := l.tr.tsRun + 1 } })) ∧
  (∀ (s : State) (n : Fin 64) (b : List Byte) (t : TsBlock),
    tsTake b = some t →
    (s.hw.link n).state = 2 →
    t.type = 2 →
    7 ≤ (s.hw.link n).tr.ready →
    exec (.tsReady n b) s = .next (s.onHw fun h => enterActive (sendTs (partnerSeen h n t) n 1 2 3) n)) ∧
  (∀ (s : State) (n : Fin 64) (b : List Byte) (t : TsBlock),
    tsTake b = some t →
    (s.hw.link n).state = 4 →
    t.type = 3 →
    exec (.tsEq n b) s = .next (s.onHw fun h =>
      let g := answerEq (partnerSeen h n t) n t
      let p := (g.link n).tr.passing
      let k := 2 ^ (4 * (t.rate % 4) + t.lane)
      let q := if t.pass then Nat.lor p k else p - Nat.land p k
      modLink g n fun l => { l with tr := { l.tr with passing := q } })) ∧
  (∀ (s : State) (n : Fin 64) (ts : List Trial) (r : Nat),
    (s.hw.link n).state = 4 →
    ((List.range 3).find? fun x => decide ((s.hw.link n).rateMax ≤ x) && tbit (s.hw.link n).tr.rates x && laneSubset (wantedLanes (s.hw.link n)) (passesBoth (s.hw.link n) ts x)) = some r →
    exec (.rateTrainEnd n ts) s = .next (s.onHw fun h => autoNarrow (reenterActive (setPrecode (trainLanes h n r (wantedLanes (h.link n)) ts) n r) n r (wantedLanes (h.link n))) n)) ∧
  (∀ (s : State) (n : Fin 64) (ts : List Trial),
    (s.hw.link n).state = 4 →
    ((List.range 3).find? fun x => decide ((s.hw.link n).rateMax ≤ x) && tbit (s.hw.link n).tr.rates x && laneSubset (wantedLanes (s.hw.link n)) (passesBoth (s.hw.link n) ts x)) = none →
    exec (.rateTrainEnd n ts) s = .next (s.onHw fun h => reenterActive (setPrecode (trainLanes h n 3 1 ts) n 3) n 3 1)) ∧
  (∀ (s : State) (n : Fin 64) (ts : List Trial) (w : Nat),
    (s.hw.link n).state = 5 →
    widestSet (Nat.land (s.hw.link n).lanes (passesBoth (s.hw.link n) ts (s.hw.link n).rate)) 4 = some w →
    exec (.retrainEnd n ts) s = .next (s.onHw fun h => autoNarrow (reenterActive (setPrecode (trainLanes h n (h.link n).rate w ts) n (h.link n).rate) n (h.link n).rate w) n)) ∧
  (∀ (s : State) (n : Fin 64) (ts : List Trial),
    (s.hw.link n).state = 5 →
    widestSet (Nat.land (s.hw.link n).lanes (passesBoth (s.hw.link n) ts (s.hw.link n).rate)) 4 = none →
    exec (.retrainEnd n ts) s = .next (s.onHw fun h => linkDown h n)) ∧
  (∀ (s : State) (n : Fin 64),
    (s.hw.link n).state = 2 →
    exec (.configTimeout n) s = .next (s.onHw fun h => enterDetect h n)) ∧
  (∀ (s : State) (n : Fin 64),
    (s.hw.link n).state = 6 →
    (s.hw.link n).held = false →
    s.hw.clk.loss = false →
    exec (.downTimeout n) s = .next (s.onHw fun h => enterDetect h n)) ∧
  (∀ (s : State) (n : Fin 64),
    (s.hw.link n).state = 3 →
    (s.hw.link n).rate = 3 →
    (s.hw.link n).tr.rateDue = true →
    tbit s.hw.sys.holdDawn n = false →
    exec (.dawnLinkRateReq n) s = .next (s.onHw fun h => enterRateTrain (sendCtrl h n 5 0 0) n))

/-- The replay timer, the CTRL timers and the widening timers act as their rules say. -/
def Obligations.LinkTimersComplete : Prop :=
  (∀ (s : State) (n : Fin 64),
    (s.hw.link n).state = 3 →
    (s.hw.link n).rx.sleep = 1 →
    (s.hw.link n).tx.buffer ≠ [] →
    exec (.replayTimerExpiry n) s = .next (s.onHw fun h => replayTrigger h n true)) ∧
  (∀ (s : State) (n : Fin 64) (c i w : Nat),
    (s.hw.link n).state = 3 →
    (s.hw.link n).tx.ctrl = some (c, i, w) →
    exec (.ctrlResendTimer n) s = .next (s.onHw fun h => sendCtrl h n c i w)) ∧
  (∀ (s : State) (n : Fin 64) (i w : Nat),
    (s.hw.link n).state = 3 →
    (s.hw.link n).tx.ctrl = some (1, i, w) →
    exec (.ctrlAnswerTimeout n) s = .next (s.onHw fun h => dropChange h n)) ∧
  (∀ (s : State) (n : Fin 64) (i w : Nat),
    (s.hw.link n).tx.ctrl = some (4, i, w) →
    exec (.ctrlAnswerTimeout n) s = .next (s.onHw fun h => enterRetrain h n)) ∧
  (∀ (s : State) (n : Fin 64) (ts : List Trial),
    (s.hw.link n).state = 3 →
    (s.hw.link n).tr.mine = false →
    (s.hw.link n).tr.phase = 2 →
    laneSubset ((s.hw.link n).tr.lanes - Nat.land (s.hw.link n).tr.lanes (s.hw.link n).lanes) (passingLanes ts (s.hw.link n).rate) = true →
    exec (.widenLanesPass ⟨n, ts⟩) s = .next (s.onHw fun h => ackWidth (trainLanes h n (h.link n).rate ((h.link n).tr.lanes - Nat.land (h.link n).tr.lanes (h.link n).lanes) ts) n)) ∧
  (∀ (s : State) (n : Fin 64) (ts : List Trial),
    (s.hw.link n).state = 3 →
    (s.hw.link n).tr.mine = true →
    (s.hw.link n).tr.phase = 4 →
    laneSubset ((s.hw.link n).tr.lanes - Nat.land (s.hw.link n).tr.lanes (s.hw.link n).lanes) (passingLanes ts (s.hw.link n).rate) = true →
    exec (.widenLanesPass ⟨n, ts⟩) s = .next (s.onHw fun h => goWidth (trainLanes h n (h.link n).rate ((h.link n).tr.lanes - Nat.land (h.link n).tr.lanes (h.link n).lanes) ts) n)) ∧
  (∀ (s : State) (n : Fin 64),
    (s.hw.link n).state = 3 →
    (s.hw.link n).tr.mine = false →
    (s.hw.link n).tr.phase = 2 →
    exec (.widenTimeout n) s = .next (s.onHw fun h => onWidthAbandon (sendCtrl h n 6 (h.link n).tr.reqId (h.link n).tr.lanes) n))

/-- LINK.ENABLE, CONFIG, TUNE, RETRAIN, WIDTH and QUERY have their effect and answer, or answer when it ends. -/
def Obligations.LinkCommandsComplete : Prop :=
  (∀ (s : State) (m : Fin 16) (ls : Nat),
    Asks s m 0xA01 [.f 64, .f 1] false [ls, 1] →
    (bitsOf 64 ls).any (fun k => bistHolds s.hw (5 * 64 + k)) = false →
    s.hw.pwr.state = 0 →
    exec (.linkEnable m) s = .next (served s m fun h => forAll (bitsOf 64 ls) (fun k h => if h.pwr.state == 2 then h else linkEnable h k) h)) ∧
  (∀ (s : State) (m : Fin 16) (ls : Nat),
    Asks s m 0xA01 [.f 64, .f 1] false [ls, 0] →
    exec (.linkEnable m) s = .next (served s m fun h => forAll (bitsOf 64 ls) (fun k h => linkDisable h k) h)) ∧
  (∀ (s : State) (m : Fin 16) (n w : Nat),
    Asks s m 0xA02 [.f 6, .f 3] false [n, w] →
    (w = 1 ∨ w = 2 ∨ w = 4) →
    (s.hw.link n).state = 0 →
    exec (.linkConfig m) s = .next (served s m fun h => modLink h n fun l => { l with widthMax := w })) ∧
  (∀ (s : State) (m : Fin 16) (ls lim tim auto : Nat),
    Asks s m 0xA03 [.f 64, .f 4, .f 32, .f 1] false [ls, lim, tim, auto] →
    lim ≠ 0 →
    (500 ≤ tim ∧ tim ≤ 100000) →
    exec (.linkTune m) s = .next (served s m fun h => forAll (bitsOf 64 ls) (fun k h => modLink h k fun l =>
      { l with replayLimit := lim, replayTimerNext := tim, widthAuto := auto == 1
               replayTimer := if l.state == 3 then l.replayTimer else tim }) h)) ∧
  (∀ (s : State) (m : Fin 16) (n : Nat),
    Asks s m 0xA04 [.f 6, .f 2] false [n, 0] →
    (s.hw.link n).state = 3 →
    (s.hw.link n).tr.phase = 0 →
    (s.hw.link n).tx.ctrl = none →
    exec (.linkRetrain m) s = .next (s.onHw fun h => requestRetrain (setWork h m 0xA04 [] [n]) n)) ∧
  (∀ (s : State) (m : Fin 16) (n w : Nat),
    Asks s m 0xA05 [.f 6, .f 4] false [n, w] →
    permittedSets.contains w = true →
    laneCount w ≤ (s.hw.link n).widthMax →
    (s.hw.link n).state = 3 →
    (s.hw.link n).rate ≠ 3 →
    (s.hw.link n).tr.phase = 0 →
    w ≠ (s.hw.link n).lanes →
    (s.hw.link n).tx.ctrl = none →
    exec (.linkWidth m) s = .next (s.onHw fun h => requestWidth (setWork h m 0xA05 [] [n]) n w)) ∧
  (∀ (s : State) (m : Fin 16) (n c : Nat),
    Asks s m 0xA06 [.f 8, .f 1] false [n, c] →
    n ≤ 63 →
    exec (.linkQuery m) s = .next (served s m (fun h => if c = 1 then modLink h n fun l => { l with counts := l.counts.filter (fun p => 11 ≤ p.1) } else h) (Reply.ok (linkRecord (s.hw.link n)))))

/-- Eye windows, loss and return of light, probes, heat and laser power change gates, lanes and events as stated. -/
def Obligations.LaneEventsComplete : Prop :=
  (∀ (s : State) (k : Fin 256) (eyes : List (Int × Int)) (swing : Nat),
    (s.hw.link (k / 4)).state = 3 →
    tbit (s.hw.link (k / 4)).lanes (k % 4) = true →
    (s.hw.link (k / 4)).rx.sleep = 1 →
    swing ≠ 0 →
    (s.hw.lane k).degraded = false →
    efmOf eyes swing < efmLow (s.hw.link (k / 4)) →
    3 ≤ (s.hw.lane k).low →
    exec (.efmWindowEnd k eyes swing) s = .next (s.onHw fun h =>
      let g := adapt h k
      let x := g.lane k
      autoNarrow (raise (g.setLane k { x with
        efm := efmOf eyes swing, efmMin := Nat.min x.efmMin (efmOf eyes swing), low := x.low + 1, high := 0, degraded := true
        degrades := satInc 32 x.degrades }) 0x31A k) (k / 4))) ∧
  (∀ (s : State) (n : Fin 64) (power : List Int),
    16 ≤ n.val →
    (senseLight s.hw n power).link n = s.hw.link n →
    (s.hw.link n).gate = 1 →
    (s.hw.link n).autoShut = true →
    allDark (senseLight s.hw n power) n = true →
    exec (.losTimeout n power) s = .next (s.onHw fun h =>
      let g := setGate (senseLight h n power) n 2
      linkDown (raise (g.setEngine (engineOf n) { g.engine (engineOf n) with shuts := satInc 32 (g.engine (engineOf n)).shuts }) 0x31E n) n)) ∧
  (∀ (s : State) (n : Fin 64) (power : List Int),
    16 ≤ n.val →
    (senseLight s.hw n power).link n = s.hw.link n →
    (s.hw.link n).gate = 2 →
    allLight (senseLight s.hw n power) n = true →
    exec (.losEndInShut n power) s = .next (s.onHw fun h => setGate (senseLight h n power) n 1)) ∧
  (∀ (s : State) (n : Fin 64),
    16 ≤ n.val →
    (s.hw.link n).gate = 2 →
    exec (.shutProbeTimer n) s = .next (s.onHw fun h => setGate (h.setEngine (engineOf n) { h.engine (engineOf n) with probes := satInc 32 (h.engine (engineOf n)).probes }) n 3)) ∧
  (∀ (s : State) (n : Fin 64) (power : List Int),
    16 ≤ n.val →
    (s.hw.link n).gate = 3 →
    exec (.probeEnd n power) s = .next (s.onHw fun h => setGate (senseLight h n power) n (if allLight (senseLight h n power) n then 1 else 2))) ∧
  (∀ (s : State) (e : Fin 12) (temp : Nat),
    85 < temp →
    exec (.optOvertemp e temp) s = .next (s.onHw fun h => forAll (portsOf e) (fun n h => if (h.link n).gate == 4 then h
      else logOpen (linkDown (raise (setGate h n 4) 0x31F n) n) (96 + n) 2 0x43 none (some 0)) (h.setEngine e { h.engine e with temp := temp }))) ∧
  (∀ (s : State) (n : Fin 64) (power : Int),
    16 ≤ n.val →
    power < 1600 →
    (s.hw.link n).laserLow = false →
    exec (.optLaserLow n power) s = .next (s.onHw fun h => raise (h.setLink n { h.link n with laserLow := true }) 0x31D n)) ∧
  (∀ (s : State) (n : Fin 64) (power : Int),
    16 ≤ n.val →
    1700 ≤ power →
    exec (.optLaserLow n power) s = .next (s.onHw fun h => h.setLink n { h.link n with laserLow := false }))

/-- LANE and OPT commands have their effect and answer; an engine turned on answers at temperature. -/
def Obligations.LaneCommandsComplete : Prop :=
  (∀ (s : State) (m : Fin 16) (n rate pre : Nat),
    Asks s m 0x901 [.f 6, .f 2, .f 2] false [n, rate, pre] →
    (s.hw.link n).state = 0 →
    rate ≠ 3 →
    pre ≠ 3 →
    exec (.laneConfig m) s = .next (served s m fun h => h.setLink n { h.link n with rateMax := rate, precode := pre })) ∧
  (∀ (s : State) (m : Fin 16) (ls d u low : Nat),
    Asks s m 0x902 [.f 64, .f 16, .f 32, .f 8] false [ls, d, u, low] →
    ls ≠ 0 →
    (d = 0 ∨ 100 ≤ d ∧ d ≤ 65000) →
    (u = 0 ∨ 10 ≤ u ∧ u ≤ 1000000) →
    exec (.lanePower m) s = .next (served s m fun h => forAll (bitsOf 64 ls) (fun k h =>
      let off := (h.link k).state == 0
      h.setLink k { h.link k with
        drowseNext := d, slumberNext := u, efmLow := low, drowse := if off then d else (h.link k).drowse
        slumber := if off then u else (h.link k).slumber }) h)) ∧
  (∀ (s : State) (m : Fin 16) (n : Nat),
    Asks s m 0x903 [.f 8, .f 1] false [n, 0] →
    n ≤ 63 →
    exec (.laneQuery m) s = .next (served s m id (Reply.ok (recordBytes 8
      [(6, n), (1, b2n (16 ≤ n)), (4, if 16 ≤ n then engineOf n else 0), (2, (s.hw.link n).rate),
        (3, if (s.hw.link n).state != 0 && (s.hw.link n).state != 6 then laneCount (s.hw.link n).lanes else 0)
        , (32, KMap.get (s.hw.link n).counts 16), (16, 0)] ++ ((List.range 4).map (laneRecord s.hw n)).flatten)))) ∧
  (∀ (s : State) (m : Fin 16) (e : Nat),
    Asks s m 0x904 [.f 4, .f 1] false [e, 1] →
    e ≤ 11 →
    (s.hw.engine e).on = false →
    exec (.optEngine m) s = .next (s.onHw fun h => setWork (h.setEngine e { h.engine e with on := true, heating := some m.val }) m 0x904 [] [e])) ∧
  (∀ (s : State) (e : Fin 12) (m : Nat),
    (s.hw.engine e).on = true →
    (s.hw.engine e).heating = some m →
    (workOf s.hw m 0x904).map (·.args) = some [e.val] →
    exec (.modulatorsAtTemperature e) s = .next (s.onHw fun h => answer (h.setEngine e { h.engine e with heating := none }) m Reply.ok)) ∧
  (∀ (s : State) (m : Fin 16) (gs auto : Nat),
    Asks s m 0x905 [.f 48, .f 1, .f 1] false [gs, 1, auto] →
    gs ≠ 0 →
    (bitsOf 48 gs).any (fun i => !(s.hw.engine (i / 4)).on) = false →
    (bitsOf 48 gs).any (fun i => (s.hw.link (16 + i)).gate == 4 && 80 < (s.hw.engine (i / 4)).temp) = false →
    exec (.optGate m) s = .next (served s m fun h => forAll (bitsOf 48 gs) (fun i h => h.setLink (16 + i) { h.link (16 + i) with gate := 1, autoShut := auto == 1 }) h)) ∧
  (∀ (s : State) (m : Fin 16) (gs auto : Nat),
    Asks s m 0x905 [.f 48, .f 1, .f 1] false [gs, 0, auto] →
    gs ≠ 0 →
    (bitsOf 48 gs).any (fun i => !(s.hw.engine (i / 4)).on) = false →
    exec (.optGate m) s = .next (served s m fun h => forAll (bitsOf 48 gs) (fun i h => setGate h (16 + i) 0) h)) ∧
  (∀ (s : State) (m : Fin 16) (e : Nat),
    Asks s m 0x906 [.f 8] false [e] →
    e ≤ 11 →
    exec (.optQuery m) s = .next (served s m (fun h => (freshList 20 h).2) (Reply.ok (recordBytes 128
      ([(4, e), (1, b2n (s.hw.engine e).on), (3, 0), (8, (s.hw.engine e).temp)]
        ++ (portsOf e).map (fun k => (3, (s.hw.link k).gate)) ++ (portsOf e).map (fun k => (1, b2n (s.hw.link k).autoShut))
        ++ ((freshList 20 s.hw).1.take 4).map (fun v => (16, v))
        ++ (List.range 16).map (fun j => (1, b2n (s.hw.lane (64 + 16 * e + j)).los)) ++ [(16, 0)]
        ++ ((freshList 20 s.hw).1.drop 4).map (fun v => (16, v)) ++ [(32, (s.hw.engine e).shuts), (32, (s.hw.engine e).probes)])))))

/-- Packets are delivered or forwarded, start on their ports, and the router's timers and gates act as stated. -/
def Obligations.RouterEventsComplete : Prop :=
  (∀ (s : State) (port : Fin 98) (p : Packet),
    s.hw.sys.routerOn = true →
    64 ≤ port.val →
    police s.hw port p = (false, s.hw) →
    malformed p = false →
    heldService s.hw p.dst = false →
    isOwn s.hw p.dst = true →
    exec (.packetRoute port p) s = .next (s.onHw fun h => queueAt h (destPort p) false p)) ∧
  (∀ (s : State) (port : Fin 98) (p : Packet),
    s.hw.sys.routerOn = true →
    64 ≤ port.val →
    police s.hw port p = (false, s.hw) →
    malformed p = false →
    heldService s.hw p.dst = false →
    isOwn s.hw p.dst = false →
    p.vc ≠ 7 →
    p.ttl ≠ 0 →
    exec (.packetRoute port p) s = .next (s.onHw fun h => routeBy h (epochOf h port p).1 { (epochOf h port p).2 with ttl := (epochOf h port p).2.ttl - 1 })) ∧
  (∀ (s : State) (port : Fin 98) (q : Queued),
    nextStart (forBelow 7 (fun v h => tagHead h port v) s.hw) port = some q →
    64 ≤ port.val →
    isStray q.packet.opcode = false →
    exec (.egressPacketStart port) s = .next (s.onHw fun h =>
      let g := leaveQueue (forBelow 7 (fun v h => tagHead h port v) h) port q
      { g with router := { g.router with inbox := g.router.inbox ++ [{ port := port, packet := q.packet }] } })) ∧
  (∀ (s : State) (port : Fin 98) (q : Queued),
    nextStart (forBelow 7 (fun v h => tagHead h port v) s.hw) port = some q →
    port.val < 64 →
    exec (.egressPacketStart port) s = .next (s.onHw fun h =>
      let g := leaveQueue (forBelow 7 (fun v h => tagHead h port v) h) port q
      modLink (stampTime g q.packet).2 port fun l => sendPacket l (stampTime g q.packet).1)) ∧
  (∀ (s : State) (port : Fin 98),
    nextStart (forBelow 7 (fun v h => tagHead h port v) s.hw) port = none →
    port.val < 64 →
    ((forBelow 7 (fun v h => tagHead h port v) s.hw).link port).state = 3 →
    ((forBelow 7 (fun v h => tagHead h port v) s.hw).link port).tx.sleep = 1 →
    exec (.egressPacketStart port) s = .next (s.onHw fun h => modLink (countStall (forBelow 7 (fun v h => tagHead h port v) h) port) port sendIdle)) ∧
  (∀ (s : State),
    exec (.shaperRefill) s = .next (s.onHw fun h => { h with router := { h.router with qos := h.router.qos.map fun p =>
      (p.1, { p.2 with shapers := p.2.shapers.map (fun q => (q.1, q.2.refill)), policer := p.2.policer.refill }) } })) ∧
  (∀ (s : State),
    exec (.flipHoldExpiry) s = .next (s.onHw fun h => { h with router := { h.router with holding := false } })) ∧
  (∀ (s : State) (p : Packet) (r : List Packet),
    s.hw.router.salvage = p :: r →
    exec (.salvageHoldExpiry) s = .next (s.onHw fun h => routerCount { h with router := { h.router with salvage := r } } 2)) ∧
  (∀ (s : State) (port : Fin 64) (b : Nat) (es : List (Nat × Nat)),
    (s.hw.horizon port).next = some (b, es) →
    (s.hw.horizon port).due ≤ s.hw.time.now →
    exec (.horizonCycleStart port) s = .next (s.onHw fun h => settleHorizon (h.setHorizon port { base := b, entries := es, next := none, entry := 0, running := timeGates h && !es.isEmpty }))) ∧
  (∀ (s : State) (port : Fin 64),
    (s.hw.horizon port).running = true →
    (s.hw.horizon port).entry + 1 < (s.hw.horizon port).entries.length →
    exec (.horizonEntryBoundary port) s = .next (s.onHw fun h => h.setHorizon port { h.horizon port with entry := (h.horizon port).entry + 1 }))

/-- ROUTE, QOS and HORIZON commands set the tables, modes, weights, policers and gate lists that they name. -/
def Obligations.RouterCommandsComplete : Prop :=
  (∀ (s : State) (m : Fin 16) (ttl fh sh roles : Nat),
    Asks s m 0xB01 [.f 8, .f 32, .f 32, .f 64] false [ttl, fh, sh, roles] →
    ttl ≠ 0 →
    (10 ≤ fh ∧ fh ≤ 100000) →
    (100 ≤ sh ∧ sh ≤ 1000000) →
    (bitsOf 64 (nxor roles s.hw.router.roles)).any (fun k => (s.hw.link k).state != 0) = false →
    exec (.routeConfig m) s = .next (served s m fun h => { h with router := { h.router with ttlInit := ttl, flipHold := fh, salvageHold := sh, roles := roles } })) ∧
  (∀ (s : State) (m : Fin 16) (first n ws : Nat) (es : List Nat),
    Asks s m 0xB02 [.f 12, .f 8, .arr 1 8] false [first, n, ws] →
    (List.range n).map (fun i => fld ws (64 * i) 64) = es →
    (0 < n ∧ n ≤ 128) →
    first + n ≤ 4096 →
    es.all entryLegal = true →
    s.hw.router.holding = false →
    s.hw.router.epoch = 0 →
    exec (.routeLoad m) s = .next (served s m fun h => { h with router := { h.router with tableB := es.zipIdx.foldl (fun t e => KMap.set t (first + e.2) e.1) h.router.tableB } })) ∧
  (∀ (s : State) (m : Fin 16),
    Asks s m 0xB03 [] false [] →
    exec (.routeFlip m) s = .next (served s m routeFlip)) ∧
  (∀ (s : State) (m : Fin 16),
    Asks s m 0xB04 [] false [] →
    s.hw.router.holding = false →
    exec (.routeQuery m) s = .next (served s m id (Reply.ok (items ([.f 1 s.hw.router.epoch, .f 32 0, .f 32 (salvageBytes s.hw)]
      ++ (List.range 5).map (fun i => .f 32 (KMap.get s.hw.router.counts i))
      ++ (List.range 96).map (fun i => .f 32 (KMap.get s.hw.router.counts (16 + i)))))))) ∧
  (∀ (s : State) (m : Fin 16) (modes hi lo : Nat),
    Asks s m 0xB05 [.f 4, .f 20, .f 20] false [modes, hi, lo] →
    lo < hi →
    hi ≤ 16384 →
    exec (.qosMode m) s = .next (served s m fun h => resumeQueues { h with router := { h.router with modes := modes, thrHigh := hi, thrLow := lo } })) ∧
  (∀ (s : State) (m : Fin 16) (port ws sh : Nat),
    Asks s m 0xB06 [.f 7, .blk 7, .blk 28] false [port, ws, sh] →
    64 ≤ port →
    port ≤ 97 →
    ((List.range 7).map (fun v => fld ws (8 * v) 8)).any (fun w => w == 0) = false →
    sh = 0 →
    exec (.qosPort m) s = .next (served s m fun h =>
      let w := (List.range 7).map fun v => fld ws (8 * v) 8
      h.setQos port { h.qos port with
        weightsNext := w, weights := if !h.router.egress.any (fun x => x.port == port) then w else (h.qos port).weights })) ∧
  (∀ (s : State) (m : Fin 16) (port r b : Nat),
    Asks s m 0xB07 [.f 6, .f 16, .f 16] false [port, r, b] →
    exec (.qosPolice m) s = .next (served s m fun h => h.setQos port { h.qos port with policer := { (h.qos port).policer with rateNext := r, burstNext := b } })) ∧
  (∀ (s : State) (m : Fin 16) (port base ws : Nat),
    Asks s m 0xB08 [.f 6, .f 64, .f 9, .arr 2 4] false [port, base, 0, ws] →
    (s.hw.horizon port).entries ≠ [] →
    exec (.horizonLoad m) s = .next (served s m fun h => h.setHorizon port { h.horizon port with next := some (base, []), due := takesForce h.time.now (h.horizon port) base [] }))

/-- The memory-controller slices issue slots, refresh, close rows, sleep and train, and MEM.CONFIG, MEM.QUERY and MEM.RETRAIN act as their rules say. -/
def Obligations.MemoryControllersComplete : Prop :=
  (∀ (s : State) (m : Fin 16) (mask age idle pp : Nat),
    Asks s m 0x801 [.f 32, .f 16, .f 20, .f 4] false [mask, age, idle, pp] →
    mask ≠ 0 →
    (250 ≤ age ∧ age ≤ 65000) →
    (idle = 0 ∨ 100 ≤ idle ∧ idle ≤ 1000000) →
    pp ≤ 8 →
    exec (.memConfig m) s = .next (served s m fun h => forAll (bitsOf 32 mask) (fun t h => h.setSlice t { h.slice t with ageLimit := age, pdIdle := idle, postpone := pp }) h)) ∧
  (∀ (s : State) (m : Fin 16) (t : Nat),
    Asks s m 0x802 [.f 8] false [t] →
    t < 32 →
    exec (.memQuery m) s = .next (served s m id (Reply.ok (memRecord s.hw t)))) ∧
  (∀ (s : State) (m : Fin 16) (st mask mode : Nat) (ids : List Nat),
    Asks s m 0x803 [.f 3, .f 64, .f 1] false [st, mask, mode] →
    (bitsOf 64 mask).map (fun i => 16 * (4 * st + i / 16) + i % 16) = ids →
    ids ≠ [] →
    ids.all (fun i => ((s.hw.slice (i / 16)).pc (i % 16)).state == 2 || ((s.hw.slice (i / 16)).pc (i % 16)).state == 3) = true →
    (mode = 1 → ids.any (fun i => (s.hw.slice (i / 16)).enabled) = false) →
    exec (.memRetrain m) s = .next (s.onHw fun h => setWork (forAll ids (fun i h => modPc h (i / 16) (i % 16) startRetrain) h) m 0x803 ids (mode :: ids))) ∧
  (∀ (s : State) (t : Fin 32) (k : Fin 16) (r : McsReq),
    ((s.hw.slice t).pc k).serves = true →
    s.hw.clk.loss = false →
    ((s.hw.slice t).pc k).due = [] →
    ((s.hw.slice t).pc k).queue = [r] →
    r.bursts ≤ 1 →
    chooseBurst ((s.hw.slice t).pc k) (s.hw.slice t).ageLimit = some (0, 3) →
    ((s.hw.slice t).pc k).wipes = [] →
    (s.hw.slice t).upstream = [] →
    r.wipes = none →
    exec (.mcsSlotIssue t k) s = .next (s.onHw fun h => modPc h t k fun p => lastBurst p r (h.slice t).pdIdle)) ∧
  (∀ (s : State) (t : Fin 32) (k : Fin 16) (r : McsReq) (b : Nat),
    ((s.hw.slice t).pc k).serves = true →
    s.hw.clk.loss = false →
    ((s.hw.slice t).pc k).due = [] →
    ((s.hw.slice t).pc k).queue = [r] →
    r.bursts ≤ 1 →
    chooseBurst ((s.hw.slice t).pc k) (s.hw.slice t).ageLimit = some (0, 3) →
    ((s.hw.slice t).pc k).wipes = [] →
    (s.hw.slice t).upstream = [] →
    r.wipes = some b →
    exec (.mcsSlotIssue t k) s = .next ((s.onHw fun h => modPc h t k fun p => lastBurst p r (h.slice t).pdIdle).onPool fun p => p.wipe (blockAt t k b) (blockAt t k b + 256))) ∧
  (∀ (s : State) (t : Fin 32) (k : Fin 16),
    ((s.hw.slice t).pc k).state = 4 →
    exec (.mcsSlotIssue t k) s = .next (s.onHw fun h => modPc h t k fun p => slotPasses p (if p.back = 3 then 1 else 2))) ∧
  (∀ (s : State) (t : Fin 32) (k : Fin 16) (b : Fin 64),
    ((s.hw.slice t).pc k).serves = true →
    ((s.hw.slice t).pc k).queue.any (fun r => r.bank == b.val) = true →
    (((s.hw.slice t).pc k).bank b).debt + 1 < (((s.hw.slice t).pc k).bank b).postpone →
    ((s.hw.slice t).pc k).pd = false →
    exec (.refreshDue t k b) s = .next (s.onHw fun h => modPc h t k fun p =>
      { p with debtHigh := Nat.max p.debtHigh (Nat.min ((p.bank b).debt + 1) 8) }.setBank b
        { p.bank b with debt := (p.bank b).debt + 1, trefi := trefiAt h t, postpone := (h.slice t).postpone })) ∧
  (∀ (s : State) (t : Fin 32) (k : Fin 16) (b : Fin 64),
    exec (.rfmRequest t k b) s = .next (s.onHw fun h => modPc h t k fun p => { p with rfms := satInc 32 p.rfms })) ∧
  (∀ (s : State) (t : Fin 32) (k : Fin 16) (b : Fin 64),
    exec (.rowCloseTimer t k b) s = .next (s.onHw fun h => modPc h t k fun p => p.setBank b { p.bank b with row := none, run := 0 })) ∧
  (∀ (s : State) (x : Fin 8) (c : Nat),
    c ≤ 255 →
    exec (.stackTemperatureChange x c) s = .next (s.onHw fun h => { h with mems := { h.mems with temps := KMap.set h.mems.temps x c } })) ∧
  (∀ (s : State) (t : Fin 32) (k : Fin 16),
    ((s.hw.slice t).pc k).serves = true →
    ((s.hw.slice t).pc k).pdIdle ≠ 0 →
    ((s.hw.slice t).pc k).queue = [] →
    ((s.hw.slice t).pc k).pd = false →
    exec (.powerDownEntry t k) s = .next (s.onHw fun h => modPc h t k fun p => { p with pd := true, pdEntries := satInc 32 p.pdEntries })) ∧
  (∀ (s : State) (t : Fin 32) (w : Nat),
    w ∈ (s.hw.slice t).hot →
    tileOf (16 * w) = t →
    exec (.hotWordWriteBack t w) s = .next (s.onHw fun h => enqueueWords (h.setSlice t { h.slice t with hot := (h.slice t).hot.filter (fun u => u != w) })
      true false 0 [2 * w, 2 * w + 1])) ∧
  (∀ (s : State) (t : Fin 32) (k : Fin 16) (ws : List Sweep) (q : PseudoChannel),
    ((s.hw.slice t).pc k).state = 4 →
    retrainsFully s.hw t k = false →
    sweepAll quickLane ((s.hw.slice t).pc k) ws = (q, true) →
    exec (.pseudoChannelRetrainEnd t k ws) s = .next (mirrored s (resumeParked (s.onHw fun h =>
      let g := modPc h t k fun p => { q with state := p.back, lastFail := false, retrains := satInc 32 p.retrains }
      settleRetrain (retrainLeft g t k)))))

/-- The MEM.ECC, MEM.REMAP and MEM.PPR commands and TRACK_WINDOW act on the tracker, the remap table and the repair record. -/
def Obligations.MemoryErrorsComplete : Prop :=
  (∀ (s : State) (m : Fin 16) (mask lim win : Nat),
    Asks s m 0x804 [.f 32, .f 8, .f 16] false [mask, lim, win] →
    mask ≠ 0 →
    (1 ≤ win ∧ win ≤ 60000) →
    exec (.memEccConfig m) s = .next (served s m fun h => forAll (bitsOf 32 mask) (fun t h => h.setSlice t { h.slice t with rowCeLimit := lim, trackWindow := win }) h)) ∧
  (∀ (s : State) (m : Fin 16) (t : Nat),
    Asks s m 0x805 [.f 8] false [t] →
    t < 32 →
    exec (.memEccQuery m) s = .next (served s m id (Reply.ok (eccItems (s.hw.slice t))))) ∧
  (∀ (s : State) (m : Fin 16) (t k bank row i sp : Nat),
    Asks s m 0x806 [.f 5, .f 1, .f 4, .f 6, .f 14] false [t, 0, k, bank, row] →
    remapAt (s.hw.slice t) k bank row = none →
    freeRemap (s.hw.slice t) k = some (i, sp) →
    exec (.memRemap m) s = .next ((remapInto s t k bank row i sp false).onHw fun h => answer h m Reply.ok)) ∧
  (∀ (s : State) (m : Fin 16) (t k bank row i : Nat),
    Asks s m 0x806 [.f 5, .f 1, .f 4, .f 6, .f 14] false [t, 1, k, bank, row] →
    remapAt (s.hw.slice t) k bank row = some i →
    exec (.memRemap m) s = .next ((freeRow s t k bank row).onHw fun h => answer h m Reply.ok)) ∧
  (∀ (s : State) (m : Fin 16) (t k bank row i : Nat),
    Asks s m 0x807 [.f 5, .f 4, .f 6, .f 14, .f 1] false [t, k, bank, row, 0] →
    remapAt (s.hw.slice t) k bank row = some i →
    exec (.memPpr m) s = .next (let e := rowRepair 3 t k bank row (KMap.get (s.hw.slice t).remaps i).spare
      let told := (freshBits 2 s.hw).1
      let u := s.onHw fun h => (freshBits 2 h).2
      if told = 0 then
        (freeRow u t k bank row).onHw fun h =>
          let h := modPc h t k fun p => eccCount p 7
          answer (recordRepairs { h with bist := { h.bist with repairs := h.bist.repairs ++ [e] } }) m Reply.ok
      else u.onHw fun h => answer h m (Reply.denied rResource))) ∧
  (∀ (s : State) (t : Fin 32) (k : Fin 16) (bank : Fin 64) (row : Fin 16384),
    exec (.trackWindowExpiry t k bank row) s = .next (s.onHw fun h => h.setSlice t { h.slice t with
      tracker := (h.slice t).tracker.filter (fun e => !(e.pc == k && e.bank == bank && e.row == row)) }))

/-- Domains switch and ramp, the monitor and the PLL report loss, gates close and open, crossings open and CLK_OBS takes what it may. -/
def Obligations.ClocksComplete : Prop :=
  (∀ (s : State) (m : Fin 16) (i : Nat),
    Asks s m 0xE01 [.f 2, .f 6, .f 1] false [0, i, 1] →
    i < 32 →
    s.hw.pwr.state = 0 →
    groupActive s.hw = false →
    tbit s.hw.clk.gateTile i = false →
    exec (.clkGate m) s = .next (s.onHw fun h => setWork (h.onClk fun c => { c with gateRequests := c.gateRequests ++ [{ unit := 0, index := i, mailbox := m.val }] }) m 0xE01 [0, i] [])) ∧
  (∀ (s : State) (m : Fin 16) (i : Nat),
    Asks s m 0xE01 [.f 2, .f 6, .f 1] false [1, i, 0] →
    isolated s.hw (5 * 64 + i) = false →
    tbit s.hw.clk.gateLink i = true →
    exec (.clkGate m) s = .next (served s m fun h => startDomain (moveGate h 1 i false) 1)) ∧
  (∀ (s : State) (m : Fin 16) (d src div : Nat),
    Asks s m 0xE02 [.f 3, .f 2, .f 8] false [d, src, div] →
    (1 ≤ d ∧ d ≤ 4) →
    src < 3 →
    div ≠ 0 →
    sourceKhz s.hw src ≤ 6000000 / fullDivider d * div →
    (d = 4 → sourceKhz s.hw src = 100000 * div) →
    domainInUse s.hw d = false →
    (s.hw.clk.loss = false ∧ s.hw.clk.returning = false) →
    sourceReady s.hw src = true →
    ((switchDomain s.hw d src div).domain d).ramping = false →
    exec (.clkSwitch m) s = .next (served s m fun h => switchDomain h d src div)) ∧
  (∀ (s : State) (m : Fin 16),
    Asks s m 0xE03 [] false [] →
    exec (.clkQuery m) s = .next (served s m id (Reply.ok (clkItems s.hw)))) ∧
  (∀ (s : State) (v : Word),
    s.hw.clk.obsEnable = false →
    exec (.clkObsWrite v) s = .next (s.onHw fun h => h.onClk fun c => { c with
      obsEnable := tbit v.toNat 0, obsSel := fld v.toNat 1 4, obsDiv := fld v.toNat 5 4, obsIgnored := c.obsIgnored && !tbit v.toNat 9 })) ∧
  (∀ (s : State) (v : Word),
    s.hw.clk.obsEnable = true →
    exec (.clkObsWrite v) s = .next (s.onHw fun h => h.onClk fun c => { c with
      obsEnable := tbit v.toNat 0
      obsIgnored := c.obsIgnored && !tbit v.toNat 9 || fld v.toNat 1 4 != c.obsSel || fld v.toNat 5 4 != c.obsDiv })) ∧
  (∀ (s : State) (e : Nat),
    (80 ≤ e ∧ e ≤ 120) →
    s.hw.clk.refOk = true →
    exec (.clkMonitorWindow e) s = .next (s.onHw fun h =>
      { h with always := { h.always with badRun := 0, goodRun := Nat.min (h.always.goodRun + 1) 1000 }, clk := { h.clk with ringReady := true } })) ∧
  (∀ (s : State) (e : Nat),
    (e < 80 ∨ 120 < e) →
    s.hw.clk.refOk = true →
    1 ≤ s.hw.always.badRun →
    s.hw.clk.pllState = 2 →
    exec (.clkMonitorWindow e) s = .next (s.onHw fun h => clockLoss
      { h with always := { h.always with badRun := 2, goodRun := 0 }
               clk := { h.clk with ringReady := true, refOk := false, pllState := 3, returning := false } })) ∧
  (∀ (s : State),
    s.hw.clk.pllState = 1 →
    s.hw.clk.returning = true →
    s.hw.clk.refOk = true →
    exec (.pllLockDone) s = .next (s.onHw fun h => returnDone (forBelow 5 (fun d h =>
      if (h.domain d).source == 2 then moveDomain h d 0 (pllStart d) (pllEnd h d) else h) (h.onClk fun c => { c with pllState := 2 })))) ∧
  (∀ (s : State),
    s.hw.clk.pllState = 1 →
    s.hw.clk.refOk = true →
    exec (.pllLockTimeout) s = .next (s.onHw fun h => countClk (logOpen h 163 2 0x63 (some 1) (some 0)) 2)) ∧
  (∀ (s : State),
    s.hw.clk.pllState = 2 →
    s.hw.clk.refOk = true →
    exec (.pllLossOfLock) s = .next (s.onHw fun h => toRing ((clockLoss ((countClk (logOpen h 163 2 0x63 (some 2) (some 0)) 2).onClk fun c => { c with pllState := 1 })).onClk fun c => { c with returning := true }))) ∧
  (∀ (s : State) (d : Fin 5),
    (s.hw.domain d).ramping = true →
    (s.hw.domain d).target + 1 < (s.hw.domain d).divider →
    ((s.hw.domain d).source == 0 && s.hw.clk.pllState != 2) = false →
    exec (.rampStep d) s = .next (s.onHw fun h => h.setDomain d { h.domain d with divider := (h.domain d).divider - 1 })) ∧
  (∀ (s : State) (d : Fin 5),
    (s.hw.domain d).source = 0 →
    s.hw.clk.pllState ≠ 2 →
    exec (.rampStep d) s = .next (s)) ∧
  (∀ (s : State) (d : Fin 5),
    (s.hw.domain d).ramping = true →
    (s.hw.domain d).divider ≤ (s.hw.domain d).target + 1 →
    ((s.hw.domain d).source == 0 && s.hw.clk.pllState != 2) = false →
    exec (.rampStep d) s = .next (s.onHw fun h =>
      returnDone (settleSwitch (switchEnded (h.setDomain d { h.domain d with divider := (h.domain d).target, ramping := false }) d) d))) ∧
  (∀ (s : State) (u : Fin 3) (i : Nat) (r : GateRequest),
    s.hw.clk.gateRequests.find? (fun x => x.unit == u.val && x.index == i) = some r →
    quiescent (s.hw.onClk fun c => { c with gateRequests := c.gateRequests.filter (fun x => x != r) }) u i = true →
    workOf s.hw r.mailbox 0xE01 = none →
    exec (.gateQuiesceWindowEnd u i) s = .next (s.onHw fun h => moveGate (h.onClk fun c => { c with gateRequests := c.gateRequests.filter (fun x => x != r) }) u i true)) ∧
  (∀ (s : State) (u : Fin 3) (i : Nat) (r : GateRequest) (w : Work),
    s.hw.clk.gateRequests.find? (fun x => x.unit == u.val && x.index == i) = some r →
    quiescent (s.hw.onClk fun c => { c with gateRequests := c.gateRequests.filter (fun x => x != r) }) u i = true →
    workOf s.hw r.mailbox 0xE01 = some w →
    exec (.gateQuiesceWindowEnd u i) s = .next (s.onHw fun h => answer (moveGate (h.onClk fun c => { c with gateRequests := c.gateRequests.filter (fun x => x != r) }) u i true) r.mailbox Reply.ok)) ∧
  (∀ (s : State) (i : Fin 5),
    s.hw.sys.fusesSensed = true →
    (i.val = 0 → s.hw.pcie.perstLow = false) →
    exec (.crossingOpen i) s = .next (s.onHw fun h => { h with always := { h.always with crossings := KMap.mod h.always.crossings i fun x =>
      { x with isOpen := true, peerInReset := false } } }))

/-- RESET_N, its release, the restart of the Zenith core and the TAP's own reset leave what their rules say; a release of a pin that is high,
and a restart that nothing asks for, change nothing. -/
def Obligations.ResetsComplete : Prop :=
  (∀ (s : State),
    exec (.resetN) s = .next (s.onHw fun h => fullReset
      { h with always := { h.always with pin := true, pinCount := satInc 16 h.always.pinCount }
               sys := { h.sys with resetLow := true, heldInReset := false }
               pwr := { h.pwr with tripResetSeen := h.pwr.thermTrip } })) ∧
  (∀ (s : State),
    s.hw.sys.resetLow = true →
    extInstruction s.hw.tap.instruction = false →
    exec (.resetNRelease) s = .next (s.onHw fun h => tryStart { h with sys := { h.sys with resetLow := false } })) ∧
  (∀ (s : State),
    s.hw.sys.resetLow = true →
    extInstruction s.hw.tap.instruction = true →
    exec (.resetNRelease) s = .next (s.onHw fun h => tryStart { h with sys := { h.sys with resetLow := false }, tap := tapReset h.tap })) ∧
  (∀ (s : State),
    s.hw.sys.resetLow = false →
    exec (.resetNRelease) s = .next (s)) ∧
  (∀ (s : State),
    s.hw.fw.restart = false →
    s.hw.fw.reload = false →
    exec (.zenithRestart) s = .next (s)) ∧
  (∀ (s : State),
    (s.hw.fw.restart = true ∨ s.hw.fw.reload = true) →
    exec (.zenithRestart) s = .next (s.onHw fun h =>
      let g := shutCrossing { h with always := { h.always with zenith := true } } 1
      let g := if h.fw.reload then writeSysFw g (1 - h.sys.slot) true else g
      forBelow 16 (fun m h =>
          if (h.mailbox m).state == 1 then answer h m { status := stAborted, reason := rRestart } else h)
        { g with fw := { g.fw with restart := false, reload := false, update := none }
                 changes := g.changes.map (fun c => { c with answers := false })
                 switching := g.switching.map (fun w => { w with answers := false }) })) ∧
  (∀ (s : State),
    exec (.tapReset) s = .next (s.onHw fun h => { h with tap := { instruction := 1, unlock := h.tap.unlock, fails := h.tap.fails } }))

/-- Either feed is lost or becomes good, the bus falls below its two limits, and the power-on reset follows, each as its rules say in every
state. That the bus voltage and the address straps are free values is the model's (log entry 16). -/
def Obligations.FeedsComplete : Prop :=
  (∀ (s : State) (b : Bool),
    (if b then s.hw.pwr.bGood else s.hw.pwr.aGood) = false →
    exec (.feedLost b) s = .next (s)) ∧
  (∀ (s : State) (b : Bool),
    (if b then s.hw.pwr.bGood else s.hw.pwr.aGood) = true →
    (if b then s.hw.pwr.aGood else s.hw.pwr.bGood) = true →
    exec (.feedLost b) s = .next (s.onHw fun h =>
      let ov := decide (3000 < (if b then h.pwr.sample.feedB.1 else h.pwr.sample.feedA.1))
      let g := feedLevel (countClk (h.onPwr fun p => if b then { p with bGood := false, bOv := ov } else { p with aGood := false, aOv := ov }) (64 + b2n b)) b
      let e := if ov then countClk g 66 else g
      logOpen e 163 0 0x64 (some (b2n b + 256 * b2n ov)) (some 0))) ∧
  (∀ (s : State) (b : Bool),
    (if b then s.hw.pwr.bGood else s.hw.pwr.aGood) = true →
    (if b then s.hw.pwr.aGood else s.hw.pwr.bGood) = false →
    exec (.feedLost b) s = .next (s.onHw fun h =>
      let ov := decide (3000 < (if b then h.pwr.sample.feedB.1 else h.pwr.sample.feedA.1))
      let g := feedLevel (countClk (h.onPwr fun p => if b then { p with bGood := false, bOv := ov } else { p with aGood := false, aOv := ov }) (64 + b2n b)) b
      let e := if ov then countClk g 66 else g
      countClk (logOpen ((freshBits 32 e).2.onPwr fun p => { p with holdup := true }) 163 2 0x65 (some (freshBits 32 e).1) (some 0)) 67)) ∧
  (∀ (s : State) (b : Bool),
    s.hw.pwr.holdup = false →
    s.hw.pwr.alwaysOn = true →
    exec (.feedGood b) s = .next (s.onHw fun h => tryStart ((feedLevel (h.onPwr fun p => if b then { p with bGood := true } else { p with aGood := true }) b).onPwr fun p => { p with feedReset := false }))) ∧
  (∀ (s : State) (b : Bool),
    s.hw.pwr.holdup = false →
    s.hw.pwr.alwaysOn = false →
    exec (.feedGood b) s = .next (s.onHw fun h => feedLevel (h.onPwr fun p => if b then { p with bGood := true } else { p with aGood := true }) b)) ∧
  (∀ (s : State) (b : Bool),
    s.hw.pwr.holdup = true →
    s.hw.pwr.alwaysOn = true →
    exec (.feedGood b) s = .next (s.onHw fun h =>
      let g := feedLevel (h.onPwr fun p => if b then { p with bGood := true } else { p with aGood := true }) b
      let g := (if s.hw.pwr.feedReset then g else countClk g 68).onPwr fun p => { p with holdup := false }
      tryStart (g.onPwr fun p => { p with feedReset := false }))) ∧
  (∀ (s : State) (b : Bool),
    s.hw.pwr.holdup = true →
    s.hw.pwr.alwaysOn = false →
    exec (.feedGood b) s = .next (s.onHw fun h =>
      let g := feedLevel (h.onPwr fun p => if b then { p with bGood := true } else { p with aGood := true }) b
      let g := (if s.hw.pwr.feedReset then g else countClk g 68).onPwr fun p => { p with holdup := false }
      g)) ∧
  (∀ (s : State),
    s.hw.pwr.holdup = true →
    exec (.busUndervoltage) s = .next (s.onHw fun h =>
      let g := fullReset (h.onPwr fun p => { p with feedReset := true, railsOn := 2 ^ 11 })
      { g with always := { g.always with feed := true } })) ∧
  (∀ (s : State),
    s.hw.pwr.holdup = false →
    exec (.busUndervoltage) s = .next (s)) ∧
  (∀ (s : State),
    s.hw.pwr.feedReset = true →
    exec (.alwaysOnLoss) s = .next (s.onHw fun h => h.onPwr fun p => { p with alwaysOn := false, thermTrip := false, tripResetSeen := false, railsOn := 0 })) ∧
  (∀ (s : State),
    s.hw.pwr.feedReset = false →
    exec (.alwaysOnLoss) s = .next (s)) ∧
  (∀ (s : State),
    s.hw.pwr.alwaysOn = false →
    (s.hw.pwr.aGood = true ∨ s.hw.pwr.bGood = true) →
    exec (.powerOnReset) s = .next (s.onHw fun h => tryStart
      { freeCount := h.freeCount + 1, fuses := h.fuses, fw := { flash := h.fw.flash }
        sys := { resetLow := h.sys.resetLow }, smb := { straps := (freshBits 2 h).1 }, pcie := { perstLow := h.pcie.perstLow }
        pwr := { aGood := h.pwr.aGood, bGood := h.pwr.bGood, sample := h.pwr.sample } })) ∧
  (∀ (s : State),
    (s.hw.pwr.alwaysOn = true ∨ s.hw.pwr.aGood = false ∧ s.hw.pwr.bGood = false) →
    exec (.powerOnReset) s = .next (s))

/-- Power states, the limiter, telemetry, regulator faults and the thermal throttle and trip act as their rules say. -/
def Obligations.PowerComplete : Prop :=
  (∀ (s : State) (m : Fin 16) (w : Nat),
    Asks s m 0xF02 [.f 12] false [w] →
    (300 ≤ w ∧ w ≤ 1200) →
    exec (.pwrLimit m) s = .next (served s m fun h => h.onPwr fun p => { p with limitNext := w })) ∧
  (∀ (s : State) (m : Fin 16),
    Asks s m 0xF03 [] false [] →
    exec (.pwrQuery m) s = .next (served s m id (Reply.ok (pwrItems s.hw)))) ∧
  (∀ (s : State) (m : Fin 16),
    Asks s m 0xF01 [.f 2] false [1] →
    s.hw.pwr.state = 0 →
    poolOpen s.hw = true →
    (s.hw.pair.state ≠ 1 ∧ s.hw.pair.state ≠ 2) →
    descriptorExecuting s.hw = false →
    instanceOpen s.hw = false →
    s.hw.bist.running = [] →
    (List.range 32).any (fun t => !tbit s.hw.clk.gateTile t && tileBusy s.hw t) = false →
    exec (.pwrState m) s = .next (mirrored s (resumeParked (served s m enterHold)))) ∧
  (∀ (s : State) (m : Fin 16),
    Asks s m 0xF01 [.f 2] false [0] →
    s.hw.pwr.state = 1 →
    poolOpen s.hw = true →
    exec (.pwrState m) s = .next (mirrored s (resumeParked (served s m fun h => reopenTiles (leaveSelfRefresh (h.onPwr fun p => { p with state := 0, wake := false }) false))))) ∧
  (∀ (s : State),
    s.hw.pwr.state = 1 →
    s.hw.pwr.wake = true →
    exec (.holdWake) s = .next (mirrored s (resumeParked (s.onHw fun h => reopenTiles (leaveSelfRefresh
      (countClk (h.onPwr fun p => { p with state := 0, wake := false, wakes := satInc 16 p.wakes }) 72) false))))) ∧
  (∀ (s : State) (t : Telemetry),
    exec (.telemetrySample t) s = .next (s.onHw fun h =>
      forBelow 12 (fun e h => match t.temps[48 + e]? with | some c => h.setEngine e { h.engine e with temp := Nat.min 255 c } | none => h)
        (forBelow 12 (fun p h => railWarnings h p) (h.onPwr fun p => { p with sample := t })))) ∧
  (∀ (s : State) (p : Fin 12),
    exec (.regulatorFault p) s = .next (s.onHw fun h =>
      let c := (faultCause h p).1
      let bit : PmbusStatus → PmbusStatus := fun x =>
        if c == 4 then { x with vout := Nat.lor x.vout (if (railLimits p).1 < (railSample h.pwr.sample p).1 then 0x80 else 0x10) }
        else if c == 5 then (if p.val < 2 then { x with input := Nat.lor x.input 0x04 } else { x with iout := Nat.lor x.iout 0x80 })
        else { x with temperature := Nat.lor x.temperature 0x80 }
      let g := (faultCause h p).2
      let g := { g with smb := { g.smb with pages := KMap.mod g.smb.pages p bit } }
      let g := g.onPwr fun w => if p.val == 11 then w else { w with railsOn := putBit w.railsOn p false }
      let g := logOpen g 163 3 0x67 (some (p.val * 256 + c)) (some 0)
      let g := { g with always := { g.always with feed := true }, sys := { g.sys with heldInReset := true } }
      raise (moduleReset g) 0x32B (p.val * 256 + c))) ∧
  (∀ (s : State) (w : Nat),
    w < s.hw.pwr.limitW →
    95 * s.hw.pwr.limitW ≤ 100 * w →
    s.hw.pwr.throttle = false →
    exec (.limiterPeriod w) s = .next (s.onHw fun h => settleTile (h.onPwr fun p => { p with
      powerW := Nat.min 4095 w, overPeriods := 0, limitW := p.limitNext, limitMiss := false }))) ∧
  (∀ (s : State) (w : Nat),
    s.hw.pwr.limitW < w →
    s.hw.pwr.limitDiv < 16 →
    s.hw.pwr.throttle = false →
    exec (.limiterPeriod w) s = .next (s.onHw fun h => settleTile ((countClk h 69).onPwr fun p => { p with
      powerW := Nat.min 4095 w, limitDiv := p.limitDiv + 1, overPeriods := 0, limitW := p.limitNext }))) ∧
  (∀ (s : State) (n : Nat),
    s.hw.pwr.throttle = false →
    n < 48 →
    exec (.thermalThrottle n) s = .next (s.onHw fun h => settleTile (countClk (logOpen (setLevel (h.onPwr fun p =>
      { p with throttle := true, limitDiv := Nat.max 8 p.limitDiv }) 0x32A true (thermalInfo h n)) 163 0 0x66 (some (thermalInfo h n)) (some 0)) 70))) ∧
  (∀ (s : State) (n : Nat),
    exec (.thermalThrottleEnd n) s = .next (s.onHw fun h => setLevel (h.onPwr fun p => { p with throttle := false }) 0x32A false 0)) ∧
  (∀ (s : State) (n : Nat),
    exec (.thermalTrip n) s = .next (s.onHw fun h =>
      let g := fullReset (h.onPwr fun p => { p with thermTrip := true, tripResetSeen := false, railsOn := 2 ^ 11 })
      { g with always := { g.always with thermal := true } })) ∧
  (∀ (s : State),
    s.hw.pwr.thermTrip = true →
    s.hw.pwr.tripResetSeen = true →
    exec (.thermtripRelease) s = .next (s.onHw fun h => tryStart (h.onPwr fun p => { p with thermTrip := false, tripResetSeen := false })))

/-- PAGE, CLEAR_FAULTS and the status reads act on the selected page, and a refused transaction, or a write whose PEC does not match, sets STATUS_CML. The bit of STATUS_CML and
the bits of the status bytes are those of PMBus 1.4, which the spec names without printing them (log entry 22). -/
def Obligations.PmbusStatusComplete : Prop :=
  (∀ (s : State) (x : SmbXfer) (b : Byte),
    smbOn s.hw = true →
    x.read = false →
    x.data = [b] →
    (b.toNat ≤ 11 ∨ b.toNat = 255) →
    x.badPec = false →
    exec (.pmbusPage x) s = .next (s.onHw fun h => h.onSmb fun c => { c with page := b.toNat })) ∧
  (∀ (s : State) (x : SmbXfer),
    smbOn s.hw = true →
    x.read = true →
    x.data = [] →
    exec (.pmbusPage x) s = .next (s.onHw fun h => h.onSmb fun b => { b with returned := leBytes 1 h.smb.page })) ∧
  (∀ (s : State) (x : SmbXfer) (b : Byte),
    smbOn s.hw = true →
    x.read = false →
    x.data = [b] →
    x.badPec = true →
    exec (.pmbusPage x) s = .next (s.onHw fun h => h.onSmb fun c => { c with cml := Nat.lor c.cml 0x20 })) ∧
  (∀ (s : State) (x : SmbXfer),
    smbOn s.hw = true →
    x.read = false →
    x.data = [] →
    x.badPec = true →
    exec (.pmbusClearFaults x) s = .next (s.onHw fun h => h.onSmb fun c => { c with cml := Nat.lor c.cml 0x20 })) ∧
  (∀ (s : State) (x : SmbXfer),
    smbOn s.hw = true →
    x.read = false →
    x.data = [] →
    x.badPec = false →
    exec (.pmbusClearFaults x) s = .next (s.onHw fun h => h.onSmb fun b => { b with cml := 0, pages := if b.page == 0xFF then [] else KMap.erase b.pages b.page })) ∧
  (∀ (s : State) (x : SmbXfer),
    smbOn s.hw = true →
    x.read = true →
    x.data = [] →
    allPages s.hw.smb.page = true →
    exec (.pmbusCapability x) s = .next (s.onHw fun h => h.onSmb fun b => { b with returned := leBytes 1 0xD0 })) ∧
  (∀ (s : State) (x : SmbXfer),
    smbOn s.hw = true →
    x.read = true →
    x.data = [] →
    railPages s.hw.smb.page = true →
    exec (.pmbusVoutMode x) s = .next (s.onHw fun h => h.onSmb fun b => { b with returned := leBytes 1 0x14 })) ∧
  (∀ (s : State) (x : SmbXfer),
    smbOn s.hw = true →
    x.read = true →
    x.data = [] →
    railPages s.hw.smb.page = false →
    exec (.pmbusVoutMode x) s = .next (s.onHw fun h => (cmlBit h 0x02).onSmb fun b => { b with returned := [0xFF#8] })) ∧
  (∀ (s : State) (x : SmbXfer),
    smbOn s.hw = true →
    x.read = true →
    x.data = [] →
    allPages s.hw.smb.page = true →
    exec (.pmbusStatusByte x) s = .next (s.onHw fun h => h.onSmb fun b => { b with returned := leBytes 1 (statusWord h) })) ∧
  (∀ (s : State) (x : SmbXfer),
    smbOn s.hw = true →
    x.read = true →
    x.data = [] →
    allPages s.hw.smb.page = true →
    exec (.pmbusStatusWord x) s = .next (s.onHw fun h => h.onSmb fun b => { b with returned := leBytes 2 (statusWord h) })) ∧
  (∀ (s : State) (x : SmbXfer),
    smbOn s.hw = true →
    x.read = true →
    x.data = [] →
    railPages s.hw.smb.page = true →
    exec (.pmbusStatusVout x) s = .next (s.onHw fun h => h.onSmb fun b => { b with returned := leBytes 1 (pageStatus h).vout })) ∧
  (∀ (s : State) (x : SmbXfer),
    smbOn s.hw = true →
    x.read = true →
    x.data = [] →
    railPages s.hw.smb.page = true →
    exec (.pmbusStatusIout x) s = .next (s.onHw fun h => h.onSmb fun b => { b with returned := leBytes 1 (pageStatus h).iout })) ∧
  (∀ (s : State) (x : SmbXfer),
    smbOn s.hw = true →
    x.read = true →
    x.data = [] →
    inputPages s.hw.smb.page = true →
    exec (.pmbusStatusInput x) s = .next (s.onHw fun h => h.onSmb fun b => { b with returned := leBytes 1 (pageStatus h).input })) ∧
  (∀ (s : State) (x : SmbXfer),
    smbOn s.hw = true →
    x.read = true →
    x.data = [] →
    allPages s.hw.smb.page = true →
    exec (.pmbusStatusTemperature x) s = .next (s.onHw fun h => h.onSmb fun b => { b with returned := leBytes 1 (pageStatus h).temperature })) ∧
  (∀ (s : State) (x : SmbXfer),
    smbOn s.hw = true →
    x.read = true →
    x.data = [] →
    allPages s.hw.smb.page = true →
    exec (.pmbusStatusCml x) s = .next (s.onHw fun h => h.onSmb fun b => { b with returned := leBytes 1 h.smb.cml })) ∧
  (∀ (s : State) (k : Nat),
    smbOn s.hw = true →
    exec (.pmbusInvalidCommand k) s = .next (s.onHw fun h => h.onSmb fun b => { b with cml := Nat.lor b.cml 0x02, returned := [0xFF#8] })) ∧
  (∀ (s : State),
    smbOn s.hw = true →
    alertN s.hw = true →
    exec (.smbusAlertResponse) s = .next (s.onHw fun h => h.onSmb fun b => { b with returned := leBytes 1 (2 * smbAddress h) })) ∧
  (∀ (s : State),
    smbOn s.hw = true →
    exec (.smbusTimeout) s = .next (s.onHw fun h => h.onSmb fun b => { b with cml := Nat.lor b.cml 0x02, returned := [] }))

/-- The PMBus reads return the selected page's sample and the identity of the module. The forms of the numbers are those of PMBus 1.4 (log
entry 22); the time in SYS_STATE is measured, so it is a free value (log entry 16). -/
def Obligations.PmbusReadingsComplete : Prop :=
  (∀ (s : State) (x : SmbXfer),
    smbOn s.hw = true →
    x.read = true →
    x.data = [] →
    inputPages s.hw.smb.page = true →
    exec (.pmbusReadVin x) s = .next (s.onHw fun h => h.onSmb fun b => { b with returned := leBytes 2 (linear11 (pageSample h).1) })) ∧
  (∀ (s : State) (x : SmbXfer),
    smbOn s.hw = true →
    x.read = true →
    x.data = [] →
    inputPages s.hw.smb.page = true →
    exec (.pmbusReadIin x) s = .next (s.onHw fun h => h.onSmb fun b => { b with returned := leBytes 2 (linear11 (pageSample h).2.1) })) ∧
  (∀ (s : State) (x : SmbXfer),
    smbOn s.hw = true →
    x.read = true →
    x.data = [] →
    inputPages s.hw.smb.page = true →
    exec (.pmbusReadPin x) s = .next (s.onHw fun h => h.onSmb fun b => { b with returned := leBytes 2 (linear11 (pagePower h)) })) ∧
  (∀ (s : State) (x : SmbXfer),
    smbOn s.hw = true →
    x.read = true →
    x.data = [] →
    railPages s.hw.smb.page = true →
    exec (.pmbusReadVout x) s = .next (s.onHw fun h => h.onSmb fun b => { b with returned := leBytes 2 (linear16 (pageSample h).1) })) ∧
  (∀ (s : State) (x : SmbXfer),
    smbOn s.hw = true →
    x.read = true →
    x.data = [] →
    railPages s.hw.smb.page = true →
    exec (.pmbusReadIout x) s = .next (s.onHw fun h => h.onSmb fun b => { b with returned := leBytes 2 (linear11 (pageSample h).2.1) })) ∧
  (∀ (s : State) (x : SmbXfer),
    smbOn s.hw = true →
    x.read = true →
    x.data = [] →
    railPages s.hw.smb.page = true →
    exec (.pmbusReadPout x) s = .next (s.onHw fun h => h.onSmb fun b => { b with returned := leBytes 2 (linear11 (pagePower h)) })) ∧
  (∀ (s : State) (x : SmbXfer),
    smbOn s.hw = true →
    x.read = true →
    x.data = [] →
    allPages s.hw.smb.page = true →
    exec (.pmbusReadTemperature1 x) s = .next (s.onHw fun h => h.onSmb fun b => { b with returned := leBytes 2 (linear11 (1000 * (pageSample h).2.2)) })) ∧
  (∀ (s : State) (x : SmbXfer),
    smbOn s.hw = true →
    x.read = true →
    x.data = [] →
    exec (.pmbusRevision x) s = .next (s.onHw fun h => h.onSmb fun b => { b with returned := leBytes 1 0x44 })) ∧
  (∀ (s : State) (x : SmbXfer),
    smbOn s.hw = true →
    x.read = true →
    x.data = [] →
    exec (.pmbusMfrId x) s = .next (s.onHw fun h => h.onSmb fun b => { b with returned := [3#8, 0x4C#8, 0x4D#8, 0x5A#8] })) ∧
  (∀ (s : State) (x : SmbXfer),
    smbOn s.hw = true →
    x.read = true →
    x.data = [] →
    exec (.pmbusMfrModel x) s = .next (s.onHw fun h => h.onSmb fun b => { b with returned := [6#8, 0x4E#8, 0x4B#8, 0x36#8, 0x34#8, 0x30#8, 0x30#8] })) ∧
  (∀ (s : State) (x : SmbXfer),
    smbOn s.hw = true →
    x.read = true →
    x.data = [] →
    exec (.pmbusMfrSerial x) s = .next (s.onHw fun h => h.onSmb fun b => { b with returned := blockRead (leBytes 8 (sysSerial h)) })) ∧
  (∀ (s : State) (x : SmbXfer),
    smbOn s.hw = true →
    x.read = true →
    x.data = [] →
    s.hw.sys.fusesSensed = true →
    exec (.pmbusMfrSysState x) s = .next (s.onHw fun h => (freshBits 32 h).2.onSmb fun b => { b with
      returned := blockRead (leBytes 8 (sysStateLow h + 2 ^ 32 * (freshBits 32 h).1)) })) ∧
  (∀ (s : State) (x : SmbXfer),
    smbOn s.hw = true →
    x.read = true →
    x.data = [] →
    exec (.pmbusMfrSysDie x) s = .next (s.onHw fun h => h.onSmb fun b => { b with returned := blockRead (leBytes 8 (sysDie h)) })) ∧
  (∀ (s : State) (x : SmbXfer),
    smbOn s.hw = true →
    x.read = true →
    x.data = [] →
    exec (.pmbusMfrTemp x) s = .next (s.onHw fun h => h.onSmb fun b => { b with returned := blockRead (leBytes 8 (pwrTemp h)) })) ∧
  (∀ (s : State) (x : SmbXfer),
    smbOn s.hw = true →
    x.read = true →
    x.data = [] →
    exec (.pmbusMfrFeed x) s = .next (s.onHw fun h => h.onSmb fun b => { b with returned := blockRead (leBytes 8 (pwrFeed h)) }))

/-- The instructions of the test access port select their registers, refuse what RESET_N does not allow, and unlock debug by signature. What
the boundary cells capture is a free value (log entry 19); that fuse hash 4 is the debug key is the model's reading (log entry 12). -/
def Obligations.JtagInstructionsComplete : Prop :=
  (∀ (s : State) (d : Nat),
    exec (.jtagIdcode d) s = .next (s.onHw fun h => h.onTap fun t => { t with instruction := 1, shiftOut := 0x164009AF })) ∧
  (∀ (s : State) (d : Nat),
    exec (.jtagBypass d) s = .next (s.onHw fun h => h.onTap fun t => { t with instruction := 0xFF, shiftOut := 2 * d })) ∧
  (∀ (s : State) (d : Nat),
    exec (.jtagSamplePreload d) s = .next (s.onHw fun h => (fresh h).2.onTap fun t => { t with instruction := 2, shiftOut := (fresh h).1, boundary := d })) ∧
  (∀ (s : State) (d : Nat),
    s.hw.sys.resetLow = true →
    exec (.jtagExtest d) s = .next (s.onHw fun h => (fresh h).2.onTap fun t => { t with instruction := 3, shiftOut := (fresh h).1, boundary := d })) ∧
  (∀ (s : State) (d : Nat),
    s.hw.sys.resetLow = true →
    exec (.jtagExtestPulse d) s = .next (s.onHw fun h => (fresh h).2.onTap fun t => { t with instruction := 4, shiftOut := (fresh h).1, boundary := d })) ∧
  (∀ (s : State) (d : Nat),
    s.hw.sys.resetLow = true →
    exec (.jtagExtestTrain d) s = .next (s.onHw fun h => (fresh h).2.onTap fun t => { t with instruction := 5, shiftOut := (fresh h).1, boundary := d })) ∧
  (∀ (s : State) (d : Nat),
    s.hw.sys.resetLow = true →
    exec (.jtagHighz d) s = .next (s.onHw fun h => h.onTap fun t => { t with instruction := 6, shiftOut := 2 * d })) ∧
  (∀ (s : State) (d : Nat),
    s.hw.sys.resetLow = true →
    exec (.jtagClamp d) s = .next (s.onHw fun h => h.onTap fun t => { t with instruction := 7, shiftOut := 2 * d })) ∧
  (∀ (s : State) (d : Nat),
    s.hw.sys.resetLow = false →
    exec (.jtagExtest d) s = .next (s.onHw fun h => h.onTap fun t => { t with instruction := 0xFF, shiftOut := 2 * d, extRefused := true })) ∧
  (∀ (s : State) (d : Nat),
    exec (.jtagDbgChallenge d) s = .next (s.onHw fun h =>
      let a := freshBits 64 h
      let b := freshBits 64 a.2
      b.2.onTap fun t => { t with instruction := 0x10, shiftOut := tapSerial b.2 + 2 ^ 64 * (a.1 + 2 ^ 64 * b.1), nonce := some (a.1 + 2 ^ 64 * b.1) })) ∧
  (∀ (s : State) (g k : Nat),
    s.hw.tap.nonce = some k →
    s.hw.tap.fails < 8 →
    s.hw.sys.phase = 1 →
    poolOpen s.hw = true →
    exec (.jtagDbgUnlock g) s = .next (s.onHw fun h =>
      if Config.ecdsaVerify (Config.keyHash 4) (Config.sha384 (leBytes 8 (tapSerial h) ++ leBytes 16 k ++ [1#8])) (leBytes 96 g) then
        (forBelow 64 (fun n h => linkDisable h n) (forBelow 12 (fun e h => closeGates h e) (tapSelect h 0x11 0))).onTap fun t => { t with unlock := 1 }
      else h.onTap fun t => { t with instruction := 0x11, shiftOut := 0, unlock := 3, fails := satInc 4 t.fails })) ∧
  (∀ (s : State) (d : Nat),
    exec (.jtagDbgStatus d) s = .next (s.onHw fun h => h.onTap fun t => { t with instruction := 0x12, shiftOut := dbgStatus t }))

/-- Bring-up goes from the ROM's choice of a slot to the long-accumulator test as its steps say. -/
def Obligations.BringupComplete : Prop :=
  (∀ (s : State) (k : Nat × Bool),
    s.hw.sys.step = 2 →
    s.hw.sys.phase = 0 →
    s.hw.sys.loaded = some k →
    exec (.gokomosStart) s = .next (s.onHw fun h =>
      let g := applyConfig (writeSysFw (h.onSys fun x => { x with phase := 1, step := 3 }) k.1 k.2)
      let g := g.onBist fun b => { b with repairs := b.repairs ++ (recordedRepairs g.fw.flash).filter (fun r => r.kind == 0) }
      g.setRegion 0 (systemRegion g))) ∧
  (∀ (s : State) (os : List TestOutcome),
    s.hw.sys.step = 3 →
    s.hw.sys.phase = 1 →
    exec (.bootSelfTestDone os) s = .next (s.onHw fun h =>
      let all := bootBlocks.map fun b => (List.find? (fun (o : TestOutcome) => o.block == b.1 && o.index == b.2) os).getD { block := b.1, index := b.2 }
      let g := all.foldl bootTested h
      startTraining (startFabric { g with fw := { g.fw with keyLoaded := true } }) 0)) ∧
  (∀ (s : State) (k : Fin 8) (ws : List Sweep),
    s.hw.sys.step = 5 →
    k.val = s.hw.sys.halfDone.length →
    k.val < 7 →
    exec (.stackHalfRateDone k ws) s = .next (s.onHw fun h =>
      startTraining ((halfRate h k ws).onSys fun x => { x with halfDone := x.halfDone ++ [k.val] }) (k + 1))) ∧
  (∀ (s : State) (k : Fin 8) (ws : List Sweep),
    s.hw.sys.step = 6 →
    s.hw.sys.fullDone.contains k.val = false →
    ((fullRate s.hw k ws).sys.fullDone ++ [k.val]).length ≠ 8 →
    exec (.fullRateSweepDone k ws) s = .next (s.onHw fun h => (fullRate h k ws).onSys fun x => { x with fullDone := x.fullDone ++ [k.val] })) ∧
  (∀ (s : State) (bad : List Nat),
    s.hw.sys.step = 7 →
    exec (.poolZeroDone bad) s = .next ({ s.onHw (fun h => openPool h bad) with pool := {} })) ∧
  (∀ (s : State) (pass : Bool),
    s.hw.sys.step = 9 →
    exec (.longAccTestDone pass) s = .next (s.onHw fun h =>
      let g := h.onSys fun x => { x with step := 10, reduce := if pass && x.reduce != 3 then 2 else 3 }
      autoConfirm (reportFull g (g.sys.reduce == 2)))) ∧
  (∀ (s : State),
    s.hw.sys.fusesSensed = true →
    s.hw.sys.phase = 1 →
    s.hw.sys.step = 9 →
    exec (.stepLimitExpiry) s = .next (s.onHw fun h => (logOpen h 162 2 0x32 (some 10) (some 0)).onSys fun x => { x with step := 10, reduce := 3 })) ∧
  (∀ (s : State),
    s.hw.sys.step = 1 →
    s.hw.sys.phase = 0 →
    (selection s.hw.fw.flash).2.1 = false →
    exec (.bootImageSelect) s = .next (s.onHw fun h =>
      let k := (selection h.fw.flash).1
      if slotValid h k then imageLoaded h k false
      else if slotValid h (1 - k) then logOpen (imageLoaded h (1 - k) false) 162 2 0x34 none (some 0)
      else bootFailed h)) ∧
  (∀ (s : State) (n : Nat),
    s.hw.sys.phase = 1 →
    n / 4096 < imagePages s.hw.fw.flash s.hw.sys.slot →
    exec (.zenithPoisonFetch n) s = .next (s.onHw fun h =>
      if pageMatches h.fw.flash h.sys.slot (n / 4096) then logOpen h 162 2 0x30 none none
      else logOpen { h with fw := { h.fw with restart := true } } 162 3 0x31 none none))

/-- BIST, REPAIR and FW commands, the end of a self-test and the end of a debug unlock's clearing act as their rules say. Whether a fuse
reads back is a free value (log entry 3). -/
def Obligations.SelfTestAndFirmwareComplete : Prop :=
  (∀ (s : State) (m : Fin 16) (b i md : Nat),
    Asks s m 0xD01 [.f 4, .f 6, .f 2] false [b, i, md] →
    (b = 0 ∧ i < 32 ∧ md ≤ 1) →
    tileIdle s.hw i = true →
    KMap.has s.hw.bist.running (b * 64 + i) = false →
    exec (.bistRun m) s = .next (s.onHw fun h => setWork (h.onBist fun x => { x with running := KMap.ins x.running (b * 64 + i) (16 * md + m.val) }) m 0xD01 [b * 64 + i] [md])) ∧
  (∀ (s : State) (m : Fin 16) (b i : Nat),
    Asks s m 0xD02 [.f 4, .f 6] true [b, i] →
    blockNamed b i = true →
    exec (.bistQuery m) s = .next (served s m id (Reply.ok (testBytes b i (KMap.get s.hw.bist.records (b * 64 + i)))))) ∧
  (∀ (s : State) (m : Fin 16),
    Asks s m 0xD03 [] false [] →
    s.hw.bist.running = [] →
    (s.hw.bist.repairs.filter (fun r => r.kind == 0)).length ≤ fuseEntries - s.hw.fuses.repairs.length →
    exec (.repairCommit m) s = .next (s.onHw fun h =>
      let r := fuseAll h.bist.repairs h
      answer (recordRepairs (r.2.2.2.onBist fun b => { b with repairs := r.2.2.1 })) m (Reply.ok (items [.f 32 r.1, .f 32 r.2.1])))) ∧
  (∀ (s : State) (m : Fin 16),
    Asks s m 0xD04 [] true [] →
    exec (.repairQuery m) s = .next (served s m id (Reply.ok (repairItems s.hw)))) ∧
  (∀ (s : State) (m : Fin 16) (o : TestOutcome) (k : Work),
    KMap.find? s.hw.bist.running (o.block * 64 + o.index) = some m.val →
    o.block ≠ 7 →
    o.result = 0 →
    workOf s.hw m 0xD01 = some k →
    k.waits = [o.block * 64 + o.index] →
    workOf (reinit (s.hw.onBist fun x => { x with running := KMap.erase x.running (o.block * 64 + o.index), records := KMap.set x.records (o.block * 64 + o.index) (testRecord s.hw o 0) }) o.block o.index) m 0xD01 = some k →
    exec (.selfTestEnd m o) s = .next (s.onHw fun h =>
      let r := testRecord h o 0
      answer (reinit (h.onBist fun x => { x with running := KMap.erase x.running (o.block * 64 + o.index), records := KMap.set x.records (o.block * 64 + o.index) r })
        o.block o.index) m (Reply.ok (testBytes o.block o.index r)))) ∧
  (∀ (s : State),
    s.hw.tap.unlock = 1 →
    exec (.debugUnlockDone) s = .next ({ s.onHw (fun h => ((clearArrays h).onTap fun t => { t with unlock := 2 }).onSys fun x => { x with debug := true }) with pool := {} })) ∧
  (∀ (s : State) (m : Fin 16) (t n : Nat),
    Asks s m 0xD05 [.f 2, .f 2, .f 32, .f 16, .arr 3 1] false [t, 0, n, 0, 0] →
    t ≤ 1 →
    s.hw.fw.update = none →
    exec (.fwUpdate m) s = .next (served s m fun h => updateBegin h m t)) ∧
  (∀ (s : State) (m : Fin 16),
    Asks s m 0xD06 [.blk 32] false [0] →
    exec (.fwQuery m) s = .next (served s m id (Reply.ok (fwItems s.hw)))) ∧
  (∀ (s : State) (m : Fin 16),
    Asks s m 0xD07 [.f 2] false [1] →
    exec (.fwActivate m) s = .next (served s m fun h => { h.onFlash (fun fl => writeSelection fl h.sys.slot false 0) with sys := { h.sys with trial := false } }))

/-- The PCI Express endpoint and the control window serve resets, power states, configuration and register accesses as their rules say.
The offsets of the capability structures are the model's (log entry 18). -/
def Obligations.PcieAndWindowComplete : Prop :=
  (∀ (s : State),
    exec (.perstN true) s = .next (s.onHw fun h => pcieDomainReset (h.onPcie fun p => { p with perstLow := true }))) ∧
  (∀ (s : State),
    exec (.perstN false) s = .next (s.onHw fun h => pcieTrain (h.onPcie fun p => { p with perstLow := false }))) ∧
  (∀ (s : State),
    s.hw.pcie.link ≠ 0 →
    exec (.pcieHotReset) s = .next (s.onHw fun h => pcieTrain (pcieDomainReset h))) ∧
  (∀ (s : State),
    s.hw.pcie.link ≠ 0 →
    exec (.pcieFlr) s = .next (s.onHw fun h => (pcieDomainReset h).onPcie fun p => { p with link := h.pcie.link })) ∧
  (∀ (s : State),
    s.hw.pcie.link = 1 →
    exec (.pcieD3hot true) s = .next (s.onHw fun h => h.onPcie fun p => { p with d3hot := true, link := 2 })) ∧
  (∀ (s : State),
    s.hw.pcie.link = 2 →
    exec (.pcieD3hot false) s = .next (s.onHw fun h => retryHeld (h.onPcie fun p => { p with d3hot := false, link := 1 }))) ∧
  (∀ (s : State),
    s.hw.pcie.link ≠ 0 →
    exec (.pmeTurnOff) s = .next (s.onHw fun h => h.onPcie fun p => { p with link := 3 })) ∧
  (∀ (s : State) (o be v x : Nat),
    s.hw.pcie.link = 1 →
    configWord s.hw (o / 4 * 4 % 4096) = some x →
    exec (.pcieConfigRequest false o be v) s = .next (s.onHw fun h => h.onPcie fun p => { p with completion := (0, x) })) ∧
  (∀ (s : State) (o be v : Nat),
    s.hw.pcie.link = 1 →
    exec (.pcieConfigRequest true o be v) s = .next (s.onHw fun h => (configWrite h (o / 4 * 4 % 4096) be v).onPcie fun p => { p with completion := (0, 0) })) ∧
  (∀ (s : State) (a n : Nat) (v : Word),
    s.hw.pcie.link = 1 →
    s.hw.pcie.d3hot = false →
    tbit s.hw.pcie.command 1 = true →
    windowOpen s.hw = true →
    s.hw.pcie.bar ≤ a →
    a < s.hw.pcie.bar + 0x1000000 →
    exec (.pcieMemoryRequest true false a n v) s = .next (mirrored s (s.onHw fun h => writeReg h .pcie (a - h.pcie.bar) n v.toNat))) ∧
  (∀ (s : State) (a n : Nat) (v : Word),
    s.hw.pcie.link = 1 →
    s.hw.pcie.d3hot = false →
    tbit s.hw.pcie.command 1 = true →
    windowOpen s.hw = true →
    s.hw.pcie.bar ≤ a →
    a < s.hw.pcie.bar + 0x1000000 →
    exec (.pcieMemoryRequest false false a n v) s = .next (mirrored s (s.onHw fun h =>
      let r := readReg h (a - h.pcie.bar) n
      r.2.onPcie fun p => { p with completion := (0, r.1) }))) ∧
  (∀ (s : State) (a n : Nat) (v : Word) (w q : Bool),
    s.hw.pcie.link = 1 →
    s.hw.pcie.d3hot = true →
    exec (.pcieMemoryRequest w q a n v) s = .next (mirrored s (s.onHw fun h => h.onPcie fun p => { p with completion := (1, 0), devSta := Nat.lor p.devSta 8 }))) ∧
  (∀ (s : State) (w : Requester) (o n : Nat) (v : Word),
    windowOpen s.hw = true →
    o < 0x1000000 →
    mayReach s.hw w true o = true →
    exec (.registerWrite w o n v) s = .next (mirrored s (s.onHw fun h => writeReg h w o n v.toNat))) ∧
  (∀ (s : State) (p : Packet),
    p.opcode = 0x60 →
    isOwn s.hw p.dst = true →
    windowOpen s.hw = true →
    (takeInbox s.hw p).dead.contains p.src = false →
    badWindow p = false →
    ¬ fpaOffset (Packet.addr p) < poolSize →
    inWindow (fpaOffset (Packet.addr p)) = true →
    windowVc p (fpaOffset (Packet.addr p) - 0xFF0000000000) = true →
    p.dst = (takeInbox s.hw p).sys.moduleId →
    mayReach (takeInbox s.hw p) (.fabric p.src) false (fpaOffset (Packet.addr p) - 0xFF0000000000) = true →
    exec (.cwRd p) s = .next (mirrored s (s.onHw fun h =>
      let r := readReg (takeInbox h p) (fpaOffset (Packet.addr p) - 0xFF0000000000) (Packet.cf p 64 13)
      send r.2 (windowAnswer p stOK (leBytes (Packet.cf p 64 13) r.1))))) ∧
  (∀ (s : State) (p : Packet),
    p.opcode = 0x61 →
    isOwn s.hw p.dst = true →
    windowOpen s.hw = true →
    (takeInbox s.hw p).dead.contains p.src = false →
    badWindow p = false →
    ¬ fpaOffset (Packet.addr p) < poolSize →
    inWindow (fpaOffset (Packet.addr p)) = true →
    windowVc p (fpaOffset (Packet.addr p) - 0xFF0000000000) = true →
    p.dst = (takeInbox s.hw p).sys.moduleId →
    mayReach (takeInbox s.hw p) (.fabric p.src) true (fpaOffset (Packet.addr p) - 0xFF0000000000) = true →
    exec (.cwWr p) s = .next (mirrored s (s.onHw fun h =>
      send (writeReg (takeInbox h p) (.fabric p.src) (fpaOffset (Packet.addr p) - 0xFF0000000000) (Packet.cf p 64 13)
        (leNat ((Packet.body p).take (Packet.cf p 64 13)))) (windowAnswer p stOK [])))) ∧
  (∀ (s : State) (p : Packet),
    p.opcode = 0x62 →
    isOwn s.hw p.dst = true →
    badBulkAnswer p = false →
    Packet.cf p 80 4 = 0 →
    p.data.length = 16 + Packet.cf p 64 13 →
    (takeInbox s.hw p).pair.state ≠ 0 →
    p.src = (takeInbox s.hw p).pair.partner →
    p.tid = (takeInbox s.hw p).pair.probeTid →
    exec (.cwRdata p) s = .next (mirrored s (s.onHw fun h => takeProbeAnswer (leNat ((Packet.body p).take 8)) (takeInbox h p))))

/-- CTX and XLT commands bind, change, report and unbind contexts, change their tables and invalidate translations. -/
def Obligations.ContextsAndTranslationComplete : Prop :=
  (∀ (s : State) (m : Fin 16) (c agent region ring log2 note ms v : Nat),
    Asks s m 0x201 [.f 16, .f 12, .f 1, .f 60, .f 16, .f 60, .f 5, .f 60, .f 32] false [c, agent, 1, 0, region, ring, log2, note, ms] →
    poolOpen s.hw = true →
    (s.hw.ctx c).bound = false →
    (ring % 4096 = 0 ∧ inPoolFor s.hw v ring = true) →
    (4 ≤ log2 ∧ log2 ≤ 16) →
    fpaOffset ring + 64 * 2 ^ log2 ≤ poolSize →
    ms ≤ 60000 →
    (region ≠ 0 ∧ (s.hw.region region).state = 1) →
    createService s.hw = some v →
    exec (.ctxBind m) s = .next (mirrored s (served s m fun h => h.setCtx c { bound := true, agent := agent, mirrored := true, root := 0, tableRegion := region, ring := ring, ringLog2 := log2, notify := note, timeout := ms, service := v }))) ∧
  (∀ (s : State) (m : Fin 16) (c agent root ring log2 note ms g : Nat),
    Asks s m 0x201 [.f 16, .f 12, .f 1, .f 60, .f 16, .f 60, .f 5, .f 60, .f 32] false [c, agent, 0, root, 0, ring, log2, note, ms] →
    poolOpen s.hw = true →
    (s.hw.ctx c).bound = false →
    (ring % 4096 = 0 ∧ inPoolFor s.hw 0 ring = true) →
    (4 ≤ log2 ∧ log2 ≤ 16) →
    fpaOffset ring + 64 * 2 ^ log2 ≤ poolSize →
    ms ≤ 60000 →
    (root % 4096 = 0 ∧ inPoolFor s.hw 0 root = true) →
    regionAt s.hw (granuleOf (fpaOffset root)) = some g →
    (g ≠ 0 ∧ hasRight s.hw (s.hw.region g) agent .read = true) →
    s.hw.pair.state = 0 →
    exec (.ctxBind m) s = .next (mirrored s (served s m fun h => h.setCtx c { bound := true, agent := agent, mirrored := false, root := root, tableRegion := 0, ring := ring, ringLog2 := log2, notify := note, timeout := ms, service := 0 }))) ∧
  (∀ (s : State) (m : Fin 16) (c note ms : Nat),
    Asks s m 0x202 [.f 16, .f 60, .f 32] false [c, note, ms] →
    (s.hw.ctx c).bound = true →
    ms ≤ 60000 →
    exec (.ctxModify m) s = .next (mirrored s (served s m fun h => h.setCtx c { h.ctx c with notify := note, timeout := ms }))) ∧
  (∀ (s : State) (m : Fin 16) (c : Nat),
    Asks s m 0x204 [.f 16] false [c] →
    exec (.ctxQuery m) s = .next (served s m id (Reply.ok (ctxRecord s.hw c)))) ∧
  (∀ (s : State) (m : Fin 16) (c force : Nat),
    Asks s m 0x203 [.f 16, .f 1] false [c, force] →
    (s.hw.ctx c).bound = true →
    outstandingOf s.hw c = 0 →
    (groupsOf s.hw c).any (fun g => g.2.inst.isSome) = false →
    exec (.ctxUnbind m) s = .next (mirrored s (served s m fun h => unbind c h))) ∧
  (∀ (s : State) (m : Fin 16) (c n ws : Nat) (y : Tables),
    Asks s m 0x205 [.f 16, .f 7, .arr 1 16] false [c, n, ws] →
    (0 < n ∧ n ≤ 120) →
    (s.hw.ctx c).bound = true →
    (s.hw.ctx c).mirrored = true →
    (Tables.updates s.hw (syncUpdates n ws) 0 (syncTables s c)).toOption = some y →
    exec (.xltSync m) s = .next (mirrored s ((syncApply s m c (syncUpdates n ws) y.settle).onHw (settleInvalidation m)))) ∧
  (∀ (s : State) (m : Fin 16) (v : Nat) (i : Invalidation),
    Asks s m 0x206 [.blk 32] false [v] →
    (fld v 18 14 = 0 ∧ fld v 192 64 = 0) →
    parseInvalidation s.hw (if (s.hw.mailbox m).pcie then none else some (s.hw.mailbox m).ringer) v = some i →
    exec (.xltInvalidate m) s = .next (mirrored s (s.onHw fun h => settleInvalidation m (setWork (announceInvalidation h { i with mailbox := some m.val }) m 0x206 [] [])))) ∧
  (∀ (s : State) (p : Packet) (i : Invalidation),
    p.opcode = 0x64 →
    isOwn s.hw p.dst = true →
    p.data.length = 32 →
    isDead (takeInbox s.hw p) p.src = false →
    parseInvalidation (takeInbox s.hw p) (some p.src) (leNat p.data) = some i →
    exec (.xltInv p) s = .next (mirrored s (s.onHw fun h => announceInvalidation (takeInbox h p) { i with packet := p }))) ∧
  (∀ (s : State) (src tid : Nat) (i : Invalidation),
    s.hw.invalidations.find? (fun x => x.mailbox.isNone && x.packet.src == src && x.packet.tid == tid && !invalidationWaits s.hw x) = some i →
    exec (.xltInvAckSend src tid) s = .next (mirrored s (s.onHw fun h => send { h with invalidations := h.invalidations.filter (fun j => j.serial != i.serial) } (ackPacket i.packet 0))))

/-- REGION and AGENT commands make, change and release regions, and drains, scans and wipes end them as their rules say. -/
def Obligations.RegionsAndAgentsComplete : Prop :=
  (∀ (s : State) (m : Fin 16) (id kind n tag cnt acl b v : Nat) (l : List AclEntry),
    Asks s m 0x301 [.f 16, .f 2, .f 1, .f 18, .f 18, .f 18, .f 64, .f 7, .blk 512] false [id, kind, 0, 0x3FFFF, n, 0, tag, cnt, acl] →
    poolOpen s.hw = true →
    parseAcl cnt acl = (0, l) →
    (0 < n ∧ n ≤ systemBase) →
    kind ≤ 1 →
    (id ≠ 0 ∧ (s.hw.region id).state = 0) →
    createService s.hw = some v →
    lowestRun s.hw n [1, 2, 3] = some b →
    exec (.regionCreate m) s = .next (mirrored s (s.onHw fun h =>
      let g := h.setRegion id (withAcl h { state := 1, kind := kind, base := b, granules := n, tag := tag, time := h.time.now
                                           generation := ((h.region id).generation + 1) % 2 ^ 32, service := v } l)
      answer g m (Reply.ok (items [.f 16 id, .f 18 b, .f 32 (g.region id).generation]))))) ∧
  (∀ (s : State) (m : Fin 16) (id : Nat),
    Asks s m 0x303 [.f 16] true [id] →
    exec (.regionQuery m) s = .next (served s m (fun h => h) (Reply.ok (regionRecord s.hw id)))) ∧
  (∀ (s : State) (m : Fin 16) (id cnt acl : Nat) (l : List AclEntry),
    Asks s m 0x304 [.f 16, .f 7, .blk 512] false [id, cnt, acl] →
    parseAcl cnt acl = (0, l) →
    (id ≠ 0 ∧ (s.hw.region id).state = 1) →
    (s.hw.region id).kind ≠ 2 →
    (l ≠ [] ∧ l.length ≤ 64) →
    exec (.regionAclSet m) s = .next (mirrored s (s.onHw fun h => beginChange h (h.setRegion id (withAcl h (h.region id) l)) m 0x304 0 [id]))) ∧
  (∀ (s : State) (m : Fin 16) (id cnt ws : Nat) (l : List AclEntry),
    Asks s m 0x305 [.f 16, .f 7, .arr 1 8] false [id, cnt, ws] →
    parseEntries (arrayWords cnt ws) cnt = (0, l) →
    (id ≠ 0 ∧ (s.hw.region id).state = 1) →
    (s.hw.region id).kind ≠ 2 →
    (l.foldl addEntry (s.hw.region id).acl ≠ [] ∧ (l.foldl addEntry (s.hw.region id).acl).length ≤ 64) →
    exec (.regionAclAdd m) s = .next (mirrored s (s.onHw fun h => beginChange h (h.setRegion id (withAcl h (h.region id) (l.foldl addEntry (h.region id).acl))) m 0x305 0 [id]))) ∧
  (∀ (s : State) (m : Fin 16) (id cnt ws : Nat) (l k : List AclEntry),
    Asks s m 0x306 [.f 16, .f 7, .arr 1 8] false [id, cnt, ws] →
    parseEntries (arrayWords cnt ws) cnt = (0, l) →
    (id ≠ 0 ∧ (s.hw.region id).state = 1) →
    (s.hw.region id).kind ≠ 2 →
    l.any (fun e => e.r || e.w || e.atomic) = false →
    (s.hw.region id).acl.filter (fun e => !l.any (fun d => d.id == e.id && d.group == e.group)) = k →
    (k ≠ [] ∧ k.length ≤ 64) →
    exec (.regionAclRemove m) s = .next (mirrored s (s.onHw fun h => beginChange h (h.setRegion id (withAcl h (h.region id) k)) m 0x306 0 [id]))) ∧
  (∀ (s : State) (m : Fin 16) (id : Nat),
    Asks s m 0x302 [.f 16, .f 1] false [id, 0] →
    (id ≠ 0 ∧ (s.hw.region id).state = 1) →
    (s.hw.region id).kind ≠ 3 →
    regionNamed s.hw id = false →
    exec (.regionRelease m) s = .next (mirrored s (s.onHw fun h => beginChange h (h.setRegion id { h.region id with state := 2, acl := [] }) m 0x302 1 [id]))) ∧
  (∀ (s : State) (m : Fin 16) (k v : Nat),
    Asks s m 0x307 [.f 12, .blk 512] false [k, v] →
    exec (.agentGroupSet m) s = .next (mirrored s (s.onHw fun h => beginChange h { h with groups := KMap.set h.groups k v } m 0x307 0
      ((h.regions.filter (fun p => p.2.state == 1 && p.2.acl.any (fun e => e.group && e.id == k))).map Prod.fst)))) ∧
  (∀ (s : State) (m : Fin 16) (n v : Nat) (ws : List Nat),
    Asks s m 0x308 [.f 5, .blk 128] false [n, v] →
    arrayWords 16 v = ws →
    ((s.hw.mailbox m).pcie = true ∨ s.hw.sys.mgmt.contains (s.hw.mailbox m).ringer = true) →
    n ≤ 16 →
    (ws.take n).any (fun w => decide (4096 ≤ w)) = false →
    (ws.drop n).any (fun w => w != 0) = false →
    exec (.agentMgmtSet m) s = .next (mirrored s (served s m fun h => { h with sys := { h.sys with mgmt := (ws.take n).eraseDups } }))) ∧
  (∀ (s : State) (m : Fin 16) (n : Nat),
    Asks s m 0x309 [.f 12] false [n] →
    exec (.agentDead m) s = .next (mirrored s (s.onHw fun h =>
      let g := { h with
        dead := if isDead h n then h.dead else h.dead ++ [n]
        regions := h.regions.map fun p => (p.1, if p.2.acl.any (fun e => !e.group && e.id == n) then { p.2 with holderDead := true } else p.2) }
      let k := nextSerial (setWork g m 0x309 [] [])
      { k.2 with changes := k.2.changes ++ [{ kind := 2, mailbox := m, node := n, serial := k.1 }] }))) ∧
  (∀ (s : State) (m : Fin 16) (n : Nat),
    Asks s m 0x30A [.f 12] false [n] →
    exec (.agentRevive m) s = .next (mirrored s (served s m fun h => { h with dead := h.dead.filter (fun k => k != n), suspects := h.suspects.filter (fun k => k != n) }))) ∧
  (∀ (s : State) (m : Fin 16) (c : Change),
    s.hw.changes.find? (fun x => x.mailbox == m.val && x.kind != 2) = some c →
    drains s.hw c = false →
    recalls s.hw c = false →
    partnerBehind s.hw c.regions = false →
    c.kind = 1 →
    c.answers = true →
    exec (.rightsChangeDrainEnd m) s = .next (mirrored s (s.onHw fun h =>
      answer (forAll c.regions beginWipe { h with changes := h.changes.filter (fun d => d.serial != c.serial) }) m Reply.ok))) ∧
  (∀ (s : State) (t : Fin 32) (m : Fin 16) (c : Change),
    s.hw.changes.find? (fun x => x.mailbox == m.val) = some c →
    c.kind = 2 →
    exec (.directoryScanEnd t m) s = .next (mirrored s (((s.hw.dir t).entries.foldl (fun s p => buryHolder c.node t p.1 p.2 s) s).onHw fun h =>
      { h with changes := h.changes.map fun d => if d.serial == c.serial then { d with scanned := Nat.lor d.scanned (2 ^ t.val) } else d }))) ∧
  (∀ (s : State) (id : Nat),
    (s.hw.region id).state = 3 →
    (s.hw.region id).mirrored = false →
    exec (.regionWipeDone id) s = .next (mirrored s ((s.onPool fun p => p.wipe ((s.hw.region id).base * 2097152) (((s.hw.region id).base + (s.hw.region id).extent) * 2097152)).onHw
      fun h => freeRegion (endWipe h id (h.region id).base ((h.region id).base + (h.region id).extent)) id))) ∧
  (∀ (s : State) (n : Nat) (c : Change),
    s.hw.changes.find? (fun x => x.kind == 2 && x.node == n) = some c →
    c.scanned = 2 ^ 32 - 1 →
    (s.hw.dirs.any fun p => p.2.entries.any fun e => !e.2.vector && e.2.ptrs.contains n) = false →
    stillOpen s.hw n c.serial = false →
    c.answers = true →
    exec (.agentDeadDone n) s = .next (mirrored s (s.onHw fun h =>
      raise (answer { h with changes := h.changes.filter (fun d => d.serial != c.serial) } c.mailbox Reply.ok) 0x312 n)))

/-- A request that its home admits to a region without a directory is performed at once, in the order of arrival, and answered. -/
def Obligations.PlainRequestsComplete : Prop :=
  (∀ (s : State) (p : Packet) (region kind loc slot shard : Nat) (h : Hw),
    Admitted badRequest s 1 p region kind loc slot shard h →
    kind ≠ 0 →
    mcsServesAll (entered s p h).hw loc 1 = true →
    exec (.rdShared p) s = .next (mirrored s ((load (entered s p h) p.sclass loc 128).2.2.onHw fun g => send (filterEnd g (homeTile p) p 3 none)
      (homeReply g 0x30 p (load (entered s p h) p.sclass loc 128).2.1 (load (entered s p h) p.sclass loc 128).1)))) ∧
  (∀ (s : State) (p : Packet) (region kind loc slot shard : Nat) (h : Hw),
    Admitted badRequest s 2 p region kind loc slot shard h →
    kind ≠ 0 →
    mcsServesAll (entered s p h).hw loc 1 = true →
    exec (.rdOwn p) s = .next (mirrored s ((load (entered s p h) p.sclass loc 128).2.2.onHw fun g => send (filterEnd g (homeTile p) p 3 none)
      (homeReply g 0x32 p (load (entered s p h) p.sclass loc 128).2.1 (load (entered s p h) p.sclass loc 128).1)))) ∧
  (∀ (s : State) (p : Packet) (region kind loc slot shard : Nat) (h : Hw),
    Admitted badRequest s 3 p region kind loc slot shard h →
    kind ≠ 0 →
    mcsServesAll (entered s p h).hw loc 1 = true →
    exec (.upgrade p) s = .next (mirrored s ((load (entered s p h) p.sclass loc 128).2.2.onHw fun g => send (filterEnd g (homeTile p) p 3 none)
      (homeReply g 0x32 p (load (entered s p h) p.sclass loc 128).2.1 (load (entered s p h) p.sclass loc 128).1)))) ∧
  (∀ (s : State) (p : Packet) (region kind loc slot shard : Nat) (h : Hw),
    Admitted badRequest s 4 p region kind loc slot shard h →
    kind ≠ 0 →
    mcsServesAll (entered s p h).hw loc 1 = true →
    exec (.rdOnce p) s = .next (mirrored s ((load (entered s p h) p.sclass loc 128).2.2.onHw fun g =>
      send g (homeReply g 0x33 p (load (entered s p h) p.sclass loc 128).2.1 (load (entered s p h) p.sclass loc 128).1)))) ∧
  (∀ (s : State) (p : Packet) (region kind loc slot shard : Nat) (h : Hw),
    Admitted badRequest s 5 p region kind loc slot shard h →
    kind ≠ 0 →
    mcsServesAll (entered s p h).hw loc 1 = true →
    exec (.wrLine p) s = .next (mirrored s ((mirrorLines (store (entered s p h) false p.sclass loc (Packet.body p) (Packet.poisonBit p)) region loc 128).onHw fun g =>
      sendPerformed (filterEnd g (homeTile p) p 1 (some (homeReply (store (entered s p h) false p.sclass loc (Packet.body p) (Packet.poisonBit p)).hw 0x22 p false [])))
        region (homeReply (store (entered s p h) false p.sclass loc (Packet.body p) (Packet.poisonBit p)).hw 0x22 p false [])))) ∧
  (∀ (s : State) (p : Packet) (region kind loc slot shard : Nat) (h : Hw),
    Admitted badRequest s 6 p region kind loc slot shard h →
    kind ≠ 0 →
    mcsServesAll (entered s p h).hw loc 1 = true →
    exec (.wrPart p) s = .next (mirrored s ((mirrorLines (storePart (entered s p h) p.sclass loc (leNat ((Packet.body p).take 16)) ((Packet.body p).drop 16) (Packet.poisonBit p)) region loc 128).onHw fun g =>
      sendPerformed (filterEnd g (homeTile p) p 1 (some (homeReply (storePart (entered s p h) p.sclass loc (leNat ((Packet.body p).take 16)) ((Packet.body p).drop 16) (Packet.poisonBit p)).hw 0x22 p false []))) region (homeReply (storePart (entered s p h) p.sclass loc (leNat ((Packet.body p).take 16)) ((Packet.body p).drop 16) (Packet.poisonBit p)).hw 0x22 p false [])))) ∧
  (∀ (s : State) (p : Packet) (region kind loc slot shard : Nat) (h : Hw),
    Admitted badRequest s 7 p region kind loc slot shard h →
    kind ≠ 0 →
    mcsServesAll (entered s p h).hw loc 1 = true →
    exec (.atomic p) s = .next (mirrored s ((mirrorLines (atomicAt (entered s p h) p.sclass loc (Packet.body p)).2.2 region loc 16).onHw fun g =>
      sendPerformed (filterEnd g (homeTile p) p 1 (some (homeReply (atomicAt (entered s p h) p.sclass loc (Packet.body p)).2.2.hw 0x36 p (atomicAt (entered s p h) p.sclass loc (Packet.body p)).2.1 (leBytes 16 (atomicAt (entered s p h) p.sclass loc (Packet.body p)).1)))) region
        (homeReply (atomicAt (entered s p h) p.sclass loc (Packet.body p)).2.2.hw 0x36 p (atomicAt (entered s p h) p.sclass loc (Packet.body p)).2.1 (leBytes 16 (atomicAt (entered s p h) p.sclass loc (Packet.body p)).1))))) ∧
  (∀ (s : State) (p : Packet) (region kind loc slot shard : Nat) (h : Hw),
    Admitted badRequest s 8 p region kind loc slot shard h →
    kind ≠ 0 →
    exec (.evict p) s = .next (mirrored s ((entered s p h).onHw fun g => send g (homeReply g 0x23 p false []))))

/-- A request for a line that no agent holds takes a transaction and is granted ownership, and an admitted BULK access begins at its home. -/
def Obligations.GrantsAndBulkComplete : Prop :=
  (∀ (s : State) (p : Packet) (region kind loc slot shard : Nat) (h : Hw) (k : Nat) (g : Hw),
    Admitted badRequest s 1 p region kind loc slot shard h →
    kind = 0 →
    ((entered s p h).hw.dir (homeTile p)).overflow = [] →
    ((entered s p h).hw.dir (homeTile p)).txnOf (loc / 128) = none →
    ((entered s p h).hw.dir (homeTile p)).broken.contains (loc / 128) = false →
    KMap.find? ((entered s p h).hw.dir (homeTile p)).entries (loc / 128) = none →
    wayFree ((entered s p h).hw.dir (homeTile p)) (loc / 128) = true →
    takeSlot (entered s p h).hw (homeTile p) none (txnFor (messageReq region (enteredSerial p h) loc p) 6) = some (k, g) →
    exec (.rdShared p) s = .next (mirrored s ((grantLine { s with hw := g } (homeTile p) (messageReq region (enteredSerial p h) loc p) k 0x31 { owned := true, ptrs := [p.src] }).onHw fun h =>
      h.modDir (homeTile p) fun d => { d with reserved := if d.reserved == some (p.src, p.tid) then none else d.reserved }))) ∧
  (∀ (s : State) (p : Packet) (region kind loc slot shard : Nat) (h : Hw) (k : Nat) (g : Hw),
    Admitted badRequest s 2 p region kind loc slot shard h →
    kind = 0 →
    ((entered s p h).hw.dir (homeTile p)).overflow = [] →
    ((entered s p h).hw.dir (homeTile p)).txnOf (loc / 128) = none →
    ((entered s p h).hw.dir (homeTile p)).broken.contains (loc / 128) = false →
    KMap.find? ((entered s p h).hw.dir (homeTile p)).entries (loc / 128) = none →
    wayFree ((entered s p h).hw.dir (homeTile p)) (loc / 128) = true →
    takeSlot (entered s p h).hw (homeTile p) none (txnFor (messageReq region (enteredSerial p h) loc p) 6) = some (k, g) →
    exec (.rdOwn p) s = .next (mirrored s ((grantLine { s with hw := g } (homeTile p) (messageReq region (enteredSerial p h) loc p) k 0x32 { owned := true, ptrs := [p.src] }).onHw fun h =>
      h.modDir (homeTile p) fun d => { d with reserved := if d.reserved == some (p.src, p.tid) then none else d.reserved }))) ∧
  (∀ (s : State) (p : Packet) (region kind loc slot shard : Nat) (h : Hw) (k : Nat) (g : Hw),
    Admitted badRequest s 3 p region kind loc slot shard h →
    kind = 0 →
    ((entered s p h).hw.dir (homeTile p)).overflow = [] →
    ((entered s p h).hw.dir (homeTile p)).txnOf (loc / 128) = none →
    ((entered s p h).hw.dir (homeTile p)).broken.contains (loc / 128) = false →
    KMap.find? ((entered s p h).hw.dir (homeTile p)).entries (loc / 128) = none →
    wayFree ((entered s p h).hw.dir (homeTile p)) (loc / 128) = true →
    takeSlot (entered s p h).hw (homeTile p) none (txnFor (messageReq region (enteredSerial p h) loc p) 6) = some (k, g) →
    exec (.upgrade p) s = .next (mirrored s ((grantLine { s with hw := g } (homeTile p) (messageReq region (enteredSerial p h) loc p) k 0x32 { owned := true, ptrs := [p.src] }).onHw fun h =>
      h.modDir (homeTile p) fun d => { d with reserved := if d.reserved == some (p.src, p.tid) then none else d.reserved }))) ∧
  (∀ (s : State) (p : Packet) (region kind loc slot shard : Nat) (h : Hw),
    Admitted badBulk s 0x40 p region kind loc slot shard h →
    exec (.brd p) s = .next (mirrored s (beginBulk (entered s p h) (enteredSerial p h)
      { packet := p, region := region, kind := kind, tile := homeTile p, op := 0, loc := loc, bytes := Packet.cf p 64 13,
        addr := fpaOffset (Packet.addr p), slot := slot, data := [], pz := [] }))) ∧
  (∀ (s : State) (p : Packet) (region kind loc slot shard : Nat) (h : Hw),
    Admitted badBulk s 0x41 p region kind loc slot shard h →
    exec (.bwr p) s = .next (mirrored s (beginBulk (entered s p h) (enteredSerial p h)
      { packet := p, region := region, kind := kind, tile := homeTile p, op := 1, loc := loc, bytes := Packet.cf p 64 13,
        addr := fpaOffset (Packet.addr p), slot := slot, data := (Packet.body p).take (Packet.cf p 64 13), pz := List.replicate (Packet.cf p 64 13) (Packet.cf p 84 1 == 1) })))

/-- An answer that an open transaction awaits moves it on, and a wait that reaches HOME_TIMEOUT ends it. -/
def Obligations.CoherenceAnswersComplete : Prop :=
  (∀ (s : State) (p : Packet) (t k : Nat) (x : Txn),
    Awaited s 0x26 p t k x →
    x.state = 3 →
    x.waits.contains p.src = true →
    (x.waits.filter (fun n => n != p.src)).isEmpty = false →
    exec (.snprspI p) s = .next (answerSettled s p ((noted s p t k).onHw fun h => h.modTxn t k fun y => { y with waits := x.waits.filter (fun n => n != p.src) }))) ∧
  (∀ (s : State) (p : Packet) (t k : Nat) (x : Txn),
    Awaited s 0x26 p t k x →
    x.state = 4 →
    x.owner = p.src →
    exec (.snprspI p) s = .next (answerSettled s p (ownerGone (noted s p t k) t k x))) ∧
  (∀ (s : State) (p : Packet) (t k : Nat) (x : Txn) (q : Packet),
    Awaited s 0x27 p t k x →
    x.state = 4 →
    x.owner = p.src →
    x.snoop = 0x10 →
    x.serves = .message q →
    x.opcode = 1 →
    exec (.snprspFwd p) s = .next (answerSettled s p ((noted s p t k).onHw fun h => (putEntry h t x.line (({ ptrs := [x.owner] } : DirEntry).addSharer x.requester)).modTxn t k fun y => { y with state := 6 }))) ∧
  (∀ (s : State) (p : Packet) (t k : Nat) (x : Txn),
    Awaited s 0x28 p t k x →
    x.state = 4 →
    x.owner = p.src →
    x.data = false →
    exec (.snprspWbif p) s = .next (answerSettled s p ((noted s p t k).onHw fun h => h.modTxn t k fun y => { y with state := 5 }))) ∧
  (∀ (s : State) (p : Packet) (t k : Nat) (x : Txn) (id : Nat),
    Awaited s 0x33 p t k x →
    x.state = 4 →
    x.owner = p.src →
    x.snoop = 0x14 →
    x.serves = .bulk id →
    x.answered = false →
    exec (.dataOnceAtHome p) s = .next (answerSettled s p ((noted s p t k).onHw fun h => h.modTxn t k fun y => { y with forwarded := some (Packet.body p, Packet.poisonBit p) }))) ∧
  (∀ (s : State) (p : Packet) (t k : Nat) (x : Txn),
    Awaited s 0x29 p t k x →
    x.state = 6 →
    x.requester = p.src →
    exec (.cmpAck p) s = .next (answerSettled s p (endGrant (noted s p t k) t k x 2))) ∧
  (∀ (s : State) (p : Packet) (t k : Nat) (x : Txn),
    Awaited s 0x35 p t k x →
    x.state = 4 →
    x.owner = p.src →
    Packet.agentState p = 0 →
    exec (.snpData p) s = .next (answerSettled s p (ownerGone (storeLine (noted s p t k) x.region (x.line * 128) p) t k x))) ∧
  (∀ (s : State) (p : Packet) (t k : Nat) (x : Txn),
    Awaited s 0x2A p t k x →
    x.state = 7 →
    x.waits.contains p.src = true →
    (x.waits.filter (fun n => n != p.src)).isEmpty = false →
    exec (.probeRsp p) s = .next (answerSettled s p ((noted s p t k).onHw fun h => h.modTxn t k fun _ => { x with
      waits := x.waits.filter (fun n => n != p.src)
      found := if Packet.agentState p == 0 then x.found else x.found ++ [(p.src, Packet.agentState p)]
      reopened := x.reopened || (p.src == x.requester && Packet.openBit p && Packet.cf p 112 16 == x.tid) }))) ∧
  (∀ (s : State) (p : Packet) (t k : Nat) (x : Txn),
    Awaited s 0x37 p t k x →
    x.state = 7 →
    x.waits.contains p.src = true →
    exec (.probeData p) s = .next (answerSettled s p ((noted s p t k).onHw fun h => h.modTxn t k fun _ => { x with copied := x.copied ++ [(p.src, p)] }))) ∧
  (∀ (s : State) (p : Packet) (t k : Nat) (x : Txn) (d : Packet),
    Awaited s 0x2A p t k x →
    x.state = 7 →
    x.waits = [p.src] →
    x.found = [] →
    (Packet.agentState p = 2 ∨ Packet.agentState p = 3 ∧ x.copied = [(p.src, d)]) →
    exec (.probeRsp p) s = .next (answerSettled s p (
      let x' := { x with
        waits := [], found := [(p.src, Packet.agentState p)]
        reopened := x.reopened || (p.src == x.requester && Packet.openBit p && Packet.cf p 112 16 == x.tid) }
      rebuildLine ((noted s p t k).onHw fun h => h.modTxn t k fun _ => x') t k x' false))) ∧
  (∀ (s : State) (p : Packet) (k : Nat) (x : Txn),
    p.opcode = 0x34 →
    isOwn s.hw p.dst = true →
    badAnswer p = false →
    coherentAddr (taken s p).hw p = true →
    (addressFault (taken s p).hw p).isNone = true →
    isDead (taken s p).hw p.src = false →
    ((taken s p).hw.dir (homeTile p)).txnOf (homeLine p) = some (k, x) →
    x.state = 6 →
    x.requester = p.src →
    exec (.wbData p) s = .next (answerSettled s p (settleProbed p ((storeLine (noted s p (homeTile p) k) x.region (x.line * 128) p).onHw fun h =>
      ackWriteBack (h.modTxn (homeTile p) k fun y => { y with data := true }) p ((h.dir (homeTile p)).htidOf (homeTile p) k))))) ∧
  (∀ (s : State) (t : Fin 32) (k : Nat) (x : Txn),
    KMap.find? (s.hw.dir t).txns k = some x →
    x.state = 6 →
    exec (.homeTimeout t k) s = .next (mirrored s (retryRebuilds t (endGrant (s.onHw fun h => suspect (dirCount h t 6) t x.requester) t k x 3)))) ∧
  (∀ (s : State) (t : Fin 32) (k : Nat) (x : Txn),
    KMap.find? (s.hw.dir t).txns k = some x →
    (x.state = 4 ∨ x.state = 5) →
    x.data = false →
    exec (.homeTimeout t k) s = .next (mirrored s (retryRebuilds t (ownerGone
      ((poisonLine (s.onHw fun h => suspect (dirCount h t 4) t x.owner) x.line).onHw fun h => dropEntry h t x.line) t k x)))) ∧
  (∀ (s : State) (t : Fin 32) (k : Nat) (x : Txn),
    KMap.find? (s.hw.dir t).txns k = some x →
    x.state = 3 →
    exec (.homeTimeout t k) s = .next (mirrored s (retryRebuilds t (sharersGone ((s.onHw fun h => forAll x.waits (fun n h => suspect h t n) (dirCount h t 5)).onHw fun h =>
      h.modTxn t k fun y => { y with waits := [] }) t k x))))

/-- Held requests are served, reservations and filter entries end, stored words are decoded on their way out, and COH commands answer. -/
def Obligations.CoherenceUpkeepComplete : Prop :=
  (∀ (s : State) (t : Fin 32) (w : Waiting) (g : State),
    (s.hw.dir t).overflow = [w] →
    heldByTakeover s.hw w.packet = false →
    serveMessage s t (messageReq w.region w.serial (fpaOffset (Packet.addr w.packet) / 128 * 128 + fpaOffset (Packet.addr w.packet) % 128) w.packet) w.packet = (g, true) →
    exec (.overflowRequestServed t) s = .next (mirrored s (g.onHw fun h => h.modDir t fun d => { d with overflow := [] }))) ∧
  (∀ (s : State) (t : Fin 32),
    exec (.resvExpiry t) s = .next (mirrored s (s.onHw fun h => h.modDir t fun d => { d with reserved := none }))) ∧
  (∀ (s : State) (t : Fin 32),
    exec (.bulkHeldReleased t) s = .next (mirrored s (((s.hw.bulk.filter (fun p => p.2.tile == t.val)).map Prod.fst).foldl (pumpBulk 40) s))) ∧
  (∀ (s : State) (t : Fin 32) (e : FilterEntry) (r : List FilterEntry),
    (s.hw.dir t).filter = e :: r →
    e.outcome ≠ 0 →
    exec (.filterEntryRelease t) s = .next (s.onHw fun h => h.modDir t fun d => { d with filter := r })) ∧
  (∀ (s : State) (w : Nat) (err : BitVec 80),
    readsDram s.hw w = true →
    (decodeWord (nxor (encodeWord (leNat (s.pool.bytes (8 * w) 8)) (s.pool.poisoned w)) (nxor (KMap.getD s.pool.errs w 0) err.toNat % 2 ^ 80))).flips = none →
    copyHeld s w = false →
    exec (.dramReadDecode (.word w) err) s = .next (mirrored s (trackRow ((writeBack ((countEcc (s.onPool fun p => p.clearErr w) w 2).onPool fun p =>
      (p.writeBytes (8 * w) (leBytes 8 0)).setPoison w true) w).onHw fun h =>
        logError h (tileOf (8 * w)) 1 0x03 (mcsInfo w) (8 * w) (mcsDetail (decodeWord (nxor (encodeWord (leNat (s.pool.bytes (8 * w) 8)) (s.pool.poisoned w)) (nxor (KMap.getD s.pool.errs w 0) err.toNat % 2 ^ 80))))) w true))) ∧
  (∀ (s : State) (w : Nat) (err : BitVec 80) (j : Nat),
    readsDram s.hw w = true →
    (decodeWord (nxor (encodeWord (leNat (s.pool.bytes (8 * w) 8)) (s.pool.poisoned w)) (nxor (KMap.getD s.pool.errs w 0) err.toNat % 2 ^ 80))).flips = some [j] →
    tbit (flipBits (nxor (encodeWord (leNat (s.pool.bytes (8 * w) 8)) (s.pool.poisoned w)) (nxor (KMap.getD s.pool.errs w 0) err.toNat % 2 ^ 80)) [j]) 78 = false →
    exec (.dramReadDecode (.word w) err) s = .next (mirrored s (trackRow ((writeBack (countEcc ((s.onPool fun p => p.clearErr w).onPool fun p =>
      (p.writeBytes (8 * w) (leBytes 8 (fld (flipBits (nxor (encodeWord (leNat (s.pool.bytes (8 * w) 8)) (s.pool.poisoned w)) (nxor (KMap.getD s.pool.errs w 0) err.toNat % 2 ^ 80)) [j]) 14 64))).setPoison w false) w 0) w).onHw fun h =>
        logError h (tileOf (8 * w)) 0 1 (mcsInfo w) (8 * w) (mcsDetail (decodeWord (nxor (encodeWord (leNat (s.pool.bytes (8 * w) 8)) (s.pool.poisoned w)) (nxor (KMap.getD s.pool.errs w 0) err.toNat % 2 ^ 80))))) w false))) ∧
  (∀ (s : State) (id a : Nat) (err : BitVec 80),
    KMap.has s.hw.queues id = true →
    a < 65536 * (s.hw.queue id).scratch →
    exec (.dramReadDecode (.scratch id a) err) s = .next (mirrored s (s.onHw fun h => logOpen
      (h.setQueue id { h.queue id with memPz := KMap.setD (h.queue id).memPz (a / 8) true false }) (32 + (h.queue id).tile) 2 0x13 none none))) ∧
  (∀ (s : State) (line : Nat) (err : BitVec 80),
    uncorrectable err.toNat = true →
    KMap.has (s.hw.dir (tileOf (line * 128))).entries line = true →
    exec (.dramReadDecode (.entry line) err) s = .next (mirrored s (startRebuild (s.onHw fun h =>
      dropEntry (logOpen h (64 + tileOf (line * 128)) 2 0x20 none none) (tileOf (line * 128)) line) line))) ∧
  (∀ (s : State) (p : Packet),
    0x10 ≤ p.opcode →
    p.opcode ≤ 0x15 →
    isOwn s.hw p.dst = true →
    badAnswer p = false →
    exec (.snoopAtModule p) s = .next (s.onHw fun h => send (takeInbox h p) (mkPacket 0x26 2 p.sclass p.src p.dst p.tid
      (cohControl (Packet.addr p) (Packet.peer p) (Packet.htid p) (Packet.cf p 96 8) false false 0)))) ∧
  (∀ (s : State) (m : Fin 16) (us : Nat),
    Asks s m 0x401 [.f 32] false [us] →
    (10 ≤ us ∧ us ≤ 1000000) →
    exec (.cohConfig m) s = .next (served s m fun h => { h with homeTimeout := us })) ∧
  (∀ (s : State) (m : Fin 16),
    Asks s m 0x402 [] false [] →
    exec (.cohQuery m) s = .next (served s m (fun h => h) (Reply.ok (cohCounts s.hw)))) ∧
  (∀ (s : State) (m : Fin 16) (a g : Nat),
    Asks s m 0x403 [.f 60] false [a] →
    inPool s.hw a = true →
    regionAt s.hw (granuleOf (fpaOffset a)) = some g →
    ((s.hw.region g).kind = 0 ∧ g ≠ 0) →
    exec (.cohLineQuery m) s = .next (served s m (fun h => h) (Reply.ok (lineRecord s.hw (tileOf (fpaOffset a)) (fpaOffset a / 128))))) ∧
  (∀ (s : State) (m : Fin 16) (n : Nat),
    Asks s m 0x404 [.f 12] false [n] →
    exec (.cohSuspectClear m) s = .next (served s m fun h => { h with suspects := h.suspects.filter (fun k => k != n) }))

/-- SNAP commands open, publish, rebase and close bindings, and copies and reclaims end, as the rules of snapshot regions say. -/
def Obligations.SnapshotsComplete : Prop :=
  (∀ (s : State) (m : Fin 16) (id n b : Nat),
    Asks s m 0x501 [.f 16, .f 12, .f 1, .f 32] false [id, n, 0, 0] →
    snapActive s.hw id = true →
    hasRight s.hw (s.hw.region id) n .read = true →
    (bindingOf (s.hw.snap id) n).isNone = true →
    KMap.firstFree (s.hw.snap id).bindings 64 = some b →
    exec (.snapOpen m) s = .next (mirrored s (s.onHw fun h => answerSnap h (h.setSnap id { h.snap id with bindings := KMap.ins (h.snap id).bindings b { node := n, slot := currentSlot (h.snap id) } }) id m stOK
      (items [.f 4 (currentSlot (h.snap id)), .f 32 ((h.snap id).slot (currentSlot (h.snap id))).version])))) ∧
  (∀ (s : State) (m : Fin 16) (id n b k : Nat),
    Asks s m 0x501 [.f 16, .f 12, .f 1, .f 32] false [id, n, 1, 0] →
    snapActive s.hw id = true →
    hasRight s.hw (s.hw.region id) n .write = true →
    (bindingOf (s.hw.snap id) n).isNone = true →
    KMap.firstFree (s.hw.snap id).bindings 64 = some b →
    (List.range 16).find? (fun i => ((s.hw.snap id).slot i).state == 0) = some k →
    exec (.snapOpen m) s = .next (mirrored s (s.onHw fun h =>
      let v : VersionSlot := { state := 3, writer := n, base := (h.snap id).cur, time := h.time.now, map := plainMap ((h.snap id).slot (currentSlot (h.snap id))) }
      answerSnap h (h.setSnap id { (h.snap id).setSlot k v with bindings := KMap.ins (h.snap id).bindings b { node := n, slot := k } }) id m stOK
        (items [.f 4 k, .f 32 (h.snap id).cur])))) ∧
  (∀ (s : State) (m : Fin 16) (id n : Nat) (b : Nat × Binding),
    Asks s m 0x502 [.f 16, .f 12] false [id, n] →
    snapActive s.hw id = true →
    bindingOf (s.hw.snap id) n = some b →
    ((s.hw.snap id).slot b.2.slot).state = 3 →
    hasRight s.hw (s.hw.region id) n .write = true →
    (s.hw.snap id).cur ≠ 2 ^ 32 - 1 →
    exec (.snapPublish m) s = .next (mirrored s (s.onHw fun h =>
      let k := nextSerial (setWork h m 0x502 [] [])
      { k.2 with switching := k.2.switching ++ [{ mailbox := m, opcode := 0x502, region := id, node := n, serial := k.1 }] }))) ∧
  (∀ (s : State) (m : Fin 16) (id n : Nat) (b : Nat × Binding),
    Asks s m 0x503 [.f 16, .f 12] false [id, n] →
    snapActive s.hw id = true →
    bindingOf (s.hw.snap id) n = some b →
    ((s.hw.snap id).slot b.2.slot).state = 3 →
    hasRight s.hw (s.hw.region id) n .write = true →
    exec (.snapRebase m) s = .next (mirrored s (s.onHw fun h =>
      let k := nextSerial (setWork h m 0x503 [] [])
      { k.2 with switching := k.2.switching ++ [{ mailbox := m, opcode := 0x503, region := id, node := n, serial := k.1 }] }))) ∧
  (∀ (s : State) (m : Fin 16) (id n : Nat) (b : Nat × Binding),
    Asks s m 0x504 [.f 16, .f 12] false [id, n] →
    snapActive s.hw id = true →
    bindingOf (s.hw.snap id) n = some b →
    ((s.hw.snap id).slot b.2.slot).state = 1 →
    exec (.snapClose m) s = .next (mirrored s (s.onHw fun h =>
      let k := nextSerial (setWork h m 0x504 [] [])
      { k.2 with switching := k.2.switching ++ [{ mailbox := m, opcode := 0x504, region := id, node := n, serial := k.1 }] }))) ∧
  (∀ (s : State) (m : Fin 16) (w : Switching),
    s.hw.switching.find? (fun x => x.mailbox == m.val) = some w →
    switchDrains s.hw w = false →
    w.opcode = 0x504 →
    w.answers = true →
    exec (.snapSwitch m) s = .next (mirrored s (resumeParked (s.onHw fun h =>
      let g := closeBinding h w.region w.node
      answerSnap h { g with switching := g.switching.filter (fun v => v.serial != w.serial) } w.region m stOK [])))) ∧
  (∀ (s : State) (m : Fin 16) (w : Switching),
    s.hw.switching.find? (fun x => x.mailbox == m.val) = some w →
    switchDrains s.hw w = false →
    w.opcode = 0x502 →
    w.answers = true →
    exec (.snapSwitch m) s = .next (mirrored s (resumeParked (s.onHw fun h =>
      let r := publish h w.region w.node
      answerSnap h { r.2.2 with switching := r.2.2.switching.filter (fun v => v.serial != w.serial) } w.region m r.1 r.2.1)))) ∧
  (∀ (s : State) (m : Fin 16) (id k : Nat),
    Asks s m 0x505 [.f 16, .f 32] false [id, k] →
    snapActive s.hw id = true →
    exec (.snapConfig m) s = .next (mirrored s (s.onHw fun h => answerSnap h (settleLow (h.setSnap id { h.snap id with lowWater := k }) id) id m stOK []))) ∧
  (∀ (s : State) (m : Fin 16) (id : Nat),
    Asks s m 0x506 [.f 16] true [id] →
    snapActive s.hw id = true →
    exec (.snapQuery m) s = .next (served s m (fun h => h) (Reply.ok (versionBlock s.hw id)))) ∧
  (∀ (s : State) (id l k : Nat) (c : Copying),
    (s.hw.snap id).copies.find? (fun x => x.slot == k && x.shard == l) = some c →
    mcsServesAll s.hw ((((s.hw.snap id).slot k).entry (s.hw.region id) l).psn * 65536) 65536 = true →
    mcsServesAll s.hw (c.psn * 65536) 65536 = true →
    s.hw.pair.writeHold = false →
    exec (.cowCopyDone id l k) s = .next (mirrored s (
      let old := (((s.hw.snap id).slot k).entry (s.hw.region id) l).psn
      let x := { (s.hw.snap id).setSlot k (((s.hw.snap id).slot k).setEntry (s.hw.region id) l { psn := c.psn, priv := true, origin := old }) with
        copies := (s.hw.snap id).copies.filter (fun d => !(d.slot == k && d.shard == l)), cow := satInc 32 (s.hw.snap id).cow }
      resumeParked (mirrorLines (((readShard s old).onPool fun p => p.copy (old * 65536) (c.psn * 65536) 65536).onHw fun h =>
        settleLow (h.setSnap id x) id) id (c.psn * 65536) 65536)))) ∧
  (∀ (s : State) (id k : Nat),
    ((s.hw.snap id).slot k).state = 5 →
    exec (.snapReclaimDone id k) s = .next (mirrored s (s.onHw fun h => settleLow (h.setSnap id ((h.snap id).setSlot k {})) id)))

/-- An answer to a tile's request is kept for the tile, RETRY sends it again, and the end-to-end timeout reissues it three times. -/
def Obligations.TileAnswersComplete : Prop :=
  (∀ (s : State) (p : Packet) (o : Out),
    p.opcode = 0x42 →
    isOwn s.hw p.dst = true →
    badBulkAnswer p = false →
    Packet.cf p 80 4 = 0 →
    p.data.length = 16 + alignUp 4 (Packet.cf p 64 13) →
    outFor (takeInbox s.hw p) p [0x40] = some o →
    o.notify = none →
    exec (.brdData p) s = .next (mirrored s (s.onHw fun h => answered h p o { data := (Packet.body p).take (Packet.cf p 64 13), pz := List.replicate (Packet.cf p 64 13) (Packet.cf p 84 1 == 1) }))) ∧
  (∀ (s : State) (p : Packet) (o : Out),
    p.opcode = 0x43 →
    isOwn s.hw p.dst = true →
    badBulkAnswer p = false →
    p.data.length = 16 →
    outFor (takeInbox s.hw p) p [0x41] = some o →
    o.notify = none →
    exec (.bdone p) s = .next (mirrored s (s.onHw fun h => answered h p o { status := Packet.cf p 80 4 }))) ∧
  (∀ (s : State) (p : Packet) (o : Out),
    p.opcode = 0x36 →
    isOwn s.hw p.dst = true →
    p.data.length = 32 →
    Packet.cf p 60 4 = 0 →
    outFor (takeInbox s.hw p) p [0x07] = some o →
    o.notify = none →
    exec (.atomicRet p) s = .next (mirrored s (s.onHw fun h => answered h p o { data := Packet.body p, pz := List.replicate 16 (Packet.poisonBit p) }))) ∧
  (∀ (s : State) (p : Packet) (o : Out),
    p.opcode = 0x25 →
    isOwn s.hw p.dst = true →
    p.data.length = 16 →
    outFor (takeInbox s.hw p) p [0x07] = some o →
    o.notify = none →
    exec (.deny p) s = .next (mirrored s (s.onHw fun h => answered h p o { status := stDenied }))) ∧
  (∀ (s : State) (p : Packet) (o : Out),
    p.opcode = 0x21 →
    isOwn s.hw p.dst = true →
    p.data.length = 16 →
    outFor (takeInbox s.hw p) p [0x07] = some o →
    exec (.retry p) s = .next (mirrored s (s.onHw fun h => { takeInbox h p with outs := KMap.ins (takeInbox h p).outs p.tid { o with retry := true } }))) ∧
  (∀ (s : State) (k : Nat) (o : Out),
    KMap.find? s.hw.outs k = some o →
    o.retry = true →
    exec (.tileRetryReissue k) s = .next (mirrored s (s.onHw fun h => send { h with outs := KMap.ins h.outs k { o with retry := false } } o.packet))) ∧
  (∀ (s : State) (k : Nat) (o : Out),
    KMap.find? s.hw.outs k = some o →
    o.tries < 3 →
    exec (.tileE2eTimeout k) s = .next (mirrored s (s.onHw fun h => send (queueCount { h with outs := KMap.ins h.outs k { o with tries := o.tries + 1, retry := false } } o.queue 14) o.packet))) ∧
  (∀ (s : State) (k : Nat) (o : Out),
    KMap.find? s.hw.outs k = some o →
    3 ≤ o.tries →
    exec (.tileE2eTimeout k) s = .next (mirrored s (s.onHw fun h => takeAnswer h k o { status := stTimeout })))

/-- QUEUE commands make and end queues, doorbells move TAIL and restart a queue, and replies and timeouts end faults. -/
def Obligations.QueuesAndDoorbellsComplete : Prop :=
  (∀ (s : State) (m : Fin 16) (id c t ring log2 scr inf e2e g : Nat),
    Asks s m 0x601 [.f 12, .f 16, .f 5, .f 60, .f 5, .f 7, .f 4, .f 16] false [id, c, t, ring, log2, scr, inf, e2e] →
    poolOpen s.hw = true →
    KMap.has s.hw.queues id = false →
    (4 ≤ log2 ∧ log2 ≤ 16) →
    scr ≤ 64 →
    (1 ≤ inf ∧ inf ≤ 8) →
    (10 ≤ e2e ∧ e2e ≤ 5000) →
    ring % 4096 = 0 →
    inPoolFor s.hw (s.hw.ctx c).service ring = true →
    regionOfRange s.hw ring (64 * 2 ^ log2) = some g →
    (s.hw.ctx c).bound = true →
    hasRight s.hw (s.hw.region g) (s.hw.ctx c).agent .read = true →
    s.hw.pair.state = 0 →
    s.hw.bist.failed.contains t = false →
    bistHolds s.hw t = false →
    ((queuesOn s.hw t).length < 128 ∧ scr ≤ freeUnits s.hw t) →
    exec (.queueCreate m) s = .next (mirrored s (served s m fun h => h.setQueue id { ctx := c, tile := t, ring := ring, ringLog2 := log2, scratch := scr, inflight := inf, e2e := e2e, service := (h.ctx c).service }))) ∧
  (∀ (s : State) (m : Fin 16) (id force : Nat),
    Asks s m 0x602 [.f 12, .f 1] false [id, force] →
    KMap.has s.hw.queues id = true →
    (s.hw.queue id).execs = [] →
    exec (.queueDestroy m) s = .next (mirrored s (s.onHw fun h => settleQueueDestroy (answer { h with queues := KMap.erase h.queues id } m Reply.ok)))) ∧
  (∀ (s : State) (m : Fin 16) (id : Nat),
    Asks s m 0x603 [.f 12] false [id] →
    KMap.has s.hw.queues id = true →
    exec (.queueQuery m) s = .next (served s m (fun h => h) (Reply.ok (queueRecord s.hw id)))) ∧
  (∀ (s : State) (who : Requester) (c : Fin 65536) (v : Word) (id : Nat) (tail : Nat),
    fld v.toNat 0 12 = id →
    fld v.toNat 32 32 = tail →
    mayDoorbell s.hw who c = true →
    (s.hw.ctx c).bound = true →
    KMap.has s.hw.queues id = true →
    (s.hw.queue id).ctx = c.val →
    ((s.hw.queue id).tail + 2 ^ 32 - (s.hw.queue id).head) % 2 ^ 32 ≤ (tail + 2 ^ 32 - (s.hw.queue id).head) % 2 ^ 32 →
    (tail + 2 ^ 32 - (s.hw.queue id).head) % 2 ^ 32 ≤ 2 ^ (s.hw.queue id).ringLog2 →
    exec (.dblRing who c v) s = .next (mirrored s (s.onHw fun h => askWake (h.setQueue id { h.queue id with tail := tail })))) ∧
  (∀ (s : State) (who : Requester) (c : Fin 65536) (v : Word) (id : Nat),
    fld v.toNat 0 12 = id →
    fld v.toNat 12 2 = 1 →
    mayDoorbell s.hw who c = true →
    (s.hw.ctx c).bound = true →
    KMap.has s.hw.queues id = true →
    (s.hw.queue id).ctx = c.val →
    (s.hw.queue id).halted = true →
    exec (.queueRestart who c v) s = .next (mirrored s (s.onHw fun h => h.setQueue id { h.queue id with halted := false, haltIndex := 0, haltReason := 0 }))) ∧
  (∀ (s : State) (who : Requester) (c : Fin 65536) (v : Word) (f : FaultSlot),
    mayDoorbell s.hw who c = true →
    fld v.toNat 32 2 = 1 →
    (s.hw.ctx c).bound = true →
    KMap.get (s.hw.tile (fld (fld v.toNat 0 32) 6 5)).faults (fld (fld v.toNat 0 32) 0 6) = f →
    f.isOpen = true →
    f.seq = fld (fld v.toNat 0 32) 16 16 →
    f.ctx = c.val →
    fld (fld v.toNat 0 32) 11 5 = 0 →
    exec (.faultReplyResume who c v) s = .next (mirrored s (s.onHw fun h => onWaiters (fld (fld v.toNat 0 32) 6 5) (fld (fld v.toNat 0 32) 0 6) Run.release
      (freeFault h (fld (fld v.toNat 0 32) 6 5) (fld (fld v.toNat 0 32) 0 6))))) ∧
  (∀ (s : State) (who : Requester) (c : Fin 65536) (v : Word) (f : FaultSlot),
    mayDoorbell s.hw who c = true →
    fld v.toNat 32 2 = 2 →
    (s.hw.ctx c).bound = true →
    KMap.get (s.hw.tile (fld (fld v.toNat 0 32) 6 5)).faults (fld (fld v.toNat 0 32) 0 6) = f →
    f.isOpen = true →
    f.seq = fld (fld v.toNat 0 32) 16 16 →
    f.ctx = c.val →
    fld (fld v.toNat 0 32) 11 5 = 0 →
    exec (.faultReplyAbort who c v) s = .next (mirrored s (s.onHw fun h => onWaiters (fld (fld v.toNat 0 32) 6 5) (fld (fld v.toNat 0 32) 0 6) Run.abort
      (freeFault h (fld (fld v.toNat 0 32) 6 5) (fld (fld v.toNat 0 32) 0 6))))) ∧
  (∀ (s : State) (t : Fin 32) (k : Fin 64) (f : FaultSlot),
    KMap.get (s.hw.tile t).faults k = f →
    f.isOpen = true →
    (s.hw.ctx f.ctx).timeout ≠ 0 →
    runsFor s.hw (s.hw.ctx f.ctx).service = true →
    exec (.faultTimeout t k) s = .next (mirrored s (s.onHw fun h => onWaiters t k Run.abort (freeFault (ctxCount h f.ctx 3) t k))))

/-- A descriptor is fetched, translated ahead, started, run chunk by chunk and completed with its record, and its polls go on. -/
def Obligations.DescriptorsComplete : Prop :=
  (∀ (s : State) (id : Fin 4096) (gs : List (Nat × Nat)) (g : Hw),
    KMap.has s.hw.queues id = true →
    runsQueue s.hw id = true →
    ((s.hw.queue id).halted = false ∧ (s.hw.queue id).ending = false) →
    (s.hw.queue id).execs.any (fun e => !e.2.fetch.isEmpty) = false →
    (s.hw.queue id).head ≠ (s.hw.queue id).tail →
    ((s.hw.queue id).head + 2 ^ 32 - (s.hw.queue id).next) % 2 ^ 32 < 8 →
    permitRange s.hw (s.hw.ctx (s.hw.queue id).ctx).agent (fpaNode (s.hw.queue id).ring) (fpaOffset (s.hw.queue id).ring + 64 * ((s.hw.queue id).head % 2 ^ (s.hw.queue id).ringLog2)) 64 .read = (.ok gs, g) →
    exec (.descFetch id) s = .next (mirrored s ((readSlot id gs { s with hw := g }).onHw settleQueueDestroy))) ∧
  (∀ (s : State) (id : Fin 4096) (i : Nat) (e : Exec) (va acc cause level : Nat),
    KMap.find? (s.hw.queue id).execs i = some e →
    (e.desc ≠ [] ∧ e.ended = false) →
    runsQueue s.hw id = true →
    nextPage s.hw id e = some (va, acc) →
    (walk (s.hw.queue id).tile (s.hw.queue id).ctx va { s := s, reads := e.run.walkReads, sclass := e.sclass }).1 = .fault cause level →
    KMap.find? ((walk (s.hw.queue id).tile (s.hw.queue id).ctx va { s := s, reads := e.run.walkReads, sclass := e.sclass }).2.s.hw.queue id).execs i = some e →
    exec (.preTranslationWalk id i) s = .next (mirrored s (
      let w := (walk (s.hw.queue id).tile (s.hw.queue id).ctx va { s := s, reads := e.run.walkReads, sclass := e.sclass }).2
      w.s.onHw fun h => keepPre (dropWalks (h.setExec id i { e with run := { e.run with walkReads := [] } }) { walkReads := w.reads }) (s.hw.queue id).tile
        { ctx := (s.hw.queue id).ctx, va := va / 4096 * 4096, size := 4096, absent := true }))) ∧
  (∀ (s : State) (id : Fin 4096) (i : Nat) (e : Exec) (va acc : Nat) (t : PreEntry),
    KMap.find? (s.hw.queue id).execs i = some e →
    (e.desc ≠ [] ∧ e.ended = false) →
    runsQueue s.hw id = true →
    nextPage s.hw id e = some (va, acc) →
    (walk (s.hw.queue id).tile (s.hw.queue id).ctx va { s := s, reads := e.run.walkReads, sclass := e.sclass }).1 = .ok t →
    t.allows acc = true →
    KMap.find? ((walk (s.hw.queue id).tile (s.hw.queue id).ctx va { s := s, reads := e.run.walkReads, sclass := e.sclass }).2.s.hw.queue id).execs i = some e →
    exec (.preTranslationWalk id i) s = .next (mirrored s (
      let w := (walk (s.hw.queue id).tile (s.hw.queue id).ctx va { s := s, reads := e.run.walkReads, sclass := e.sclass }).2
      w.s.onHw fun h => keepPre (dropWalks (h.setExec id i { e with run := { e.run with walkReads := [] } }) { walkReads := w.reads }) (s.hw.queue id).tile
        t))) ∧
  (∀ (s : State) (id : Fin 4096) (i : Nat) (e : Exec),
    (s.hw.queue id).next = i →
    startTurn s.hw (s.hw.queue id).tile = some id.val →
    KMap.find? (s.hw.queue id).execs i = some e →
    e.badComp = false →
    e.badFields = false →
    exec (.descStart id i) s = .next (mirrored s (s.onHw fun h =>
      let g := (h.setTile (s.hw.queue id).tile { h.tile (s.hw.queue id).tile with lastQueue := id }).setQueue id { (s.hw.queue id) with next := (i + 1) % 2 ^ 32 }
      settleExec id i (settleStaging (g.setExec id i { e with started := true, space := if e.type == 4 then 0 else baseSpace, since := h.time.now, run := { e.run with walkReads := [] } }) (s.hw.queue id).tile)))) ∧
  (∀ (s : State) (id : Fin 4096) (i : Nat) (e : Exec),
    KMap.find? ((settleExec id i s.hw).queue id).execs i = some e →
    (e.started = true ∧ e.ended = false) →
    runsQueue (settleExec id i s.hw) id = true →
    exec (.chunkStart id i) s = .next (mirrored s ((onRun id i startRun (s.onHw (settleExec id i))).onHw (settleExec id i)))) ∧
  (∀ (s : State) (id : Fin 4096) (i : Nat) (l : List (List DotFault)),
    runsQueue s.hw id = true →
    exec (.chunkCommit id ⟨i, l⟩) s = .next (mirrored s ((onRun id i commitRun (s.onHw (strike id l))).onHw (settleExec id i)))) ∧
  (∀ (s : State) (id : Fin 4096) (i : Nat) (e : Exec),
    KMap.find? ((settleExec id i s.hw).queue id).execs i = some e →
    e.ended = true →
    runsQueue (settleExec id i s.hw) id = true →
    e.phase ≠ 2 →
    e.run.chunk.isSome = false →
    (e.finish ≠ 2 ∧ e.badComp = false) →
    exec (.descComplete id i) s = .next (mirrored s (
      let w := fun (off : Nat) (d : List Byte) =>
        ({ dst := some { operand := 7, va := e.compVa + off }, len := d.length, data := d, cursor := e.cursor, uncounted := true, fence := off == 0 } : Piece)
      let c := { e with phase := 2, run := { committed := e.run.committed, pieces := [w 8 ((e.record id).drop 8), w 0 ((e.record id).take 8)] } }
      (finishRecord id i c (s.onHw fun h => (settleExec id i h).setExec id i c)).onHw settleQueueDestroy))) ∧
  (∀ (s : State) (id : Fin 4096) (i : Nat) (e : Exec),
    KMap.find? (s.hw.queue id).execs i = some e →
    (e.type = 11 ∧ e.ended = false ∧ e.phase = 1) →
    (e.run.stall = 0 ∧ e.run.pieces = []) →
    runsQueue s.hw id = true →
    (e.stage = 2 ∧ e.bits 352 32 = 0) →
    exec (.dfencePoll id i) s = .next (mirrored s ((onRun id i commitRun (onRun id i startRun
      (s.onHw fun h => h.setExec id i (({ e with stage := 1 }).go [{ src := some { operand := 0, va := e.bits 128 64 }, len := 8 }])))).onHw (settleExec id i)))) ∧
  (∀ (s : State) (id : Fin 4096) (i : Nat) (e : Exec),
    KMap.find? (s.hw.queue id).execs i = some e →
    (e.type = 5 ∧ e.ended = false ∧ e.phase = 1 ∧ e.stage = 2) →
    runsQueue s.hw id = true →
    s.hw.time.now < e.since + 10 * (s.hw.queue id).e2e * 1000000 →
    exec (.dmergeStampPoll id i) s = .next (mirrored s (s.onHw fun h => settleExec id i (h.setExec id i { e with stage := 0 }))))

/-- COLL commands make, configure, end and query groups, their members and their instances. -/
def Obligations.CollectiveCommandsComplete : Prop :=
  (∀ (s : State) (m : Fin 16) (id c op cf rf n sl os ps rv cv cp gd sd ep pol tmo sc : Nat),
    Asks s m 0x701 [.f 10, .f 16, .f 2, .f 32, .f 32, .f 32, .f 4, .f 7, .f 1, .f 64, .f 64, .f 64, .f 64, .f 32, .f 16, .f 1, .f 32, .f 2] false [id, c, op, cf, rf, n, sl, os, ps, rv, cv, cp, gd, sd, ep, pol, tmo, sc] →
    poolOpen s.hw = true →
    (s.hw.sys.compute == 3) = false →
    KMap.has s.hw.colls id = false →
    (n % 32 = 0 ∧ 32 ≤ n ∧ n ≤ 2 ^ 26) →
    (8 ≤ sl ∧ sl ≤ 12 ∧ 1 ≤ os ∧ os ≤ 64) →
    (rv % 64 = 0 ∧ cv % 32 = 0 ∧ cp % 64 = 0) →
    (badCollGuard gd = false ∧ 10 ≤ tmo ∧ tmo ≤ 10000000) →
    (s.hw.ctx c).bound = true →
    (reducible cf = true ∧ fSide cf = false ∧ badFormat cf 0 false = false) →
    ((fScale rf == 2) = false ∧ fSide rf = false ∧ badFormat rf 0 true = false ∧ isLut rf = false) →
    s.hw.pair.state = 0 →
    (n + 2 ^ sl - 1) / 2 ^ sl ≤ 65536 →
    (rowBytes (fElem cf) (2 ^ sl) ≤ 4096 ∧ rowBytes (fElem rf) (2 ^ sl) ≤ 4096) →
    scratchReserved s.hw + os * alignUp 4096 (41 * 2 ^ sl) ≤ 2097152 →
    exec (.collGroupCreate m) s = .next (mirrored s (served s m fun h => forBelow 32 (fun t g => settleStaging g t) (h.setColl id { ctx := c, op := op, cfmt := cf, rfmt := rf, count := n, segLog2 := sl, openSegs := os, push := ps == 1, resultVa := rv, countedVa := cv, compVa := cp, guard := gd, seed := sd, firstEpoch := ep, policy := pol, timeout := tmo, sclass := sc, service := (s.hw.ctx c).service, last := (ep + 65535) % 65536 })))) ∧
  (∀ (s : State) (m : Fin 16) (id pol tmo sc : Nat),
    Asks s m 0x702 [.f 10, .f 1, .f 32, .f 2] false [id, pol, tmo, sc] →
    KMap.has s.hw.colls id = true →
    (10 ≤ tmo ∧ tmo ≤ 10000000) →
    exec (.collGroupConfig m) s = .next (mirrored s (served s m fun h => h.setColl id { h.coll id with policy := pol, timeout := tmo, sclass := sc }))) ∧
  (∀ (s : State) (m : Fin 16) (id force : Nat),
    Asks s m 0x703 [.f 10, .f 1] false [id, force] →
    KMap.has s.hw.colls id = true →
    (s.hw.coll id).inst = none →
    exec (.collGroupDestroy m) s = .next (mirrored s (served s m fun h => { h with colls := KMap.erase h.colls id }))) ∧
  (∀ (s : State) (m : Fin 16) (id : Nat) (i : Instance),
    Asks s m 0x703 [.f 10, .f 1] false [id, 1] →
    KMap.has s.hw.colls id = true →
    (s.hw.coll id).inst = some i →
    exec (.collGroupDestroy m) s = .next (mirrored s (s.onHw fun h => setWork (h.setColl id { h.coll id with destroying := some m.val, inst := some (if i.ended then i else abortInstance i) }) m 0x703 [] [id]))) ∧
  (∀ (s : State) (m : Fin 16) (id : Nat),
    Asks s m 0x704 [.f 10] true [id] →
    KMap.has s.hw.colls id = true →
    exec (.collGroupQuery m) s = .next (served s m (fun h => h) (Reply.ok (groupRecord s.hw id)))) ∧
  (∀ (s : State) (m : Fin 16) (id k n fpa : Nat),
    Asks s m 0x705 [.f 10, .f 8, .f 12, .f 60] false [id, k, n, fpa] →
    KMap.has s.hw.colls id = true →
    (KMap.has (s.hw.coll id).latched k = false ∧ (s.hw.coll id).latched.any (fun p => p.2.node == n) = false) →
    isOwn s.hw n = false →
    ((if (s.hw.coll id).push then fpa % 64 = 0 ∧ fpaNode fpa = n else fpa = 0)) →
    exec (.collMemberAdd m) s = .next (mirrored s (served s m (fun h => h.setColl id { h.coll id with latched := KMap.ins (h.coll id).latched k { node := n, recv := fpa, join := joinEpoch (h.coll id) } })
      (Reply.ok (items [.f 16 (joinEpoch (s.hw.coll id))]))))) ∧
  (∀ (s : State) (m : Fin 16) (id k : Nat),
    Asks s m 0x706 [.f 10, .f 8] false [id, k] →
    KMap.has s.hw.colls id = true →
    KMap.has (s.hw.coll id).latched k = true →
    exec (.collMemberRemove m) s = .next (mirrored s (served s m (fun h => h.setColl id { h.coll id with latched := KMap.erase (h.coll id).latched k })
      (Reply.ok (items [.f 16 (joinEpoch (s.hw.coll id))]))))) ∧
  (∀ (s : State) (m : Fin 16) (id : Nat) (i : Instance),
    Asks s m 0x707 [.f 10, .f 1] false [id, 1] →
    (s.hw.coll id).inst = some i →
    i.ended = false →
    KMap.has s.hw.colls id = true →
    exec (.collInstanceEnd m) s = .next (mirrored s (served s m fun h => h.onInst id fun _ => abortInstance i))) ∧
  (∀ (s : State) (m : Fin 16) (id : Nat) (i : Instance),
    Asks s m 0x707 [.f 10, .f 1] false [id, 0] →
    (s.hw.coll id).inst = some i →
    i.ended = false →
    KMap.has s.hw.colls id = true →
    exec (.collInstanceEnd m) s = .next (mirrored s (served s m fun h => h.onInst id fun _ => excludeMembers (s.hw.coll id) (i.expected.filter fun k => !(missingSegs (s.hw.coll id) i k).isEmpty) i)))

/-- Contributions are accepted, segments and instances are reduced, written and closed, missing members are asked or excluded, and a freed fault slot lets waiting faults in. -/
def Obligations.CollectivesComplete : Prop :=
  (∀ (s : State) (p : Packet) (g : Group) (i : Instance) (c : ColSeg),
    (p.opcode = 0x50 ∧ isOwn s.hw p.dst = true) →
    colSegOf p = c →
    ((taken s p).hw.coll c.group = g ∧ g.inst.getD {} = i) →
    (KMap.has (taken s p).hw.colls c.group = true ∧ runsFor (taken s p).hw g.service = true ∧ isDead (taken s p).hw p.src = false) →
    (KMap.has g.roster c.member = true ∧ (KMap.get g.roster c.member).node = p.src) →
    ((c.epoch + 65536 - g.last) % 65536 = 1 ∧ i.ended = false) →
    (c.segment < g.nseg ∧ c.nelem = g.nelem c.segment ∧ c.bad = false) →
    p.data.length = 16 + alignUp 4 (payloadBytes g.cfmt (g.nelem c.segment)) →
    (tbit i.excluded c.member = false ∧ tbit i.done c.segment = false ∧ i.counts c.segment c.member = false) →
    (!KMap.has i.segs c.segment && decide (g.openSegs ≤ (i.segs.filter (fun x => segTile c.group x.1 == segTile c.group c.segment)).length)) = false →
    exec (.colSeg p) s = .next (mirrored s ((taken s p).onHw fun h => acceptSegment h c.group c ((p.data.drop 16).take (payloadBytes g.cfmt (g.nelem c.segment)))))) ∧
  (∀ (s : State) (id : Fin 1024) (k : Nat) (i : Instance),
    (s.hw.coll id).inst = some i →
    (i.seg k).stage = 1 →
    runsFor s.hw (s.hw.coll id).service = true →
    ((driveRun 4 (collEnv s.hw id (segTile id k)) (i.seg k).run s).1.pieces = [] ∧ (driveRun 4 (collEnv s.hw id (segTile id k)) (i.seg k).run s).1.chunk.isNone = true ∧ (driveRun 4 (collEnv s.hw id (segTile id k)) (i.seg k).run s).1.stall = 0) →
    exec (.colSegmentDone id k) s = .next (mirrored s (((driveRun 4 (collEnv s.hw id (segTile id k)) (i.seg k).run s).2.onHw fun h =>
      h.onInst id fun j => { j with segs := KMap.ins j.segs k { j.seg k with run := (driveRun 4 (collEnv s.hw id (segTile id k)) (i.seg k).run s).1 } }).onHw (segmentDone id k)))) ∧
  (∀ (s : State) (id : Fin 1024) (i : Instance),
    (s.hw.coll id).inst = some i →
    (i.ended = true ∧ i.quiet = true) →
    runsFor s.hw (s.hw.coll id).service = true →
    (s.hw.coll id).compVa = 0 →
    exec (.colInstanceDone id) s = .next (mirrored s (s.onHw (finishInstance id (instanceRecord (s.hw.coll id) i id s.hw.time.now))))) ∧
  (∀ (s : State) (id : Fin 1024) (i : Instance) (b : List Byte) (f : List Bool),
    (s.hw.coll id).inst = some i →
    (i.ended = true ∧ i.quiet = true) →
    runsFor s.hw (s.hw.coll id).service = true →
    (s.hw.coll id).compVa ≠ 0 →
    i.record.got = [(b, f)] →
    ((driveRun 4 (collEnv s.hw id (id % 32)) i.record s).1.pieces = [] ∧ (driveRun 4 (collEnv s.hw id (id % 32)) i.record s).1.chunk.isNone = true ∧ (driveRun 4 (collEnv s.hw id (id % 32)) i.record s).1.stall = 0 ∧ (driveRun 4 (collEnv s.hw id (id % 32)) i.record s).1.failed = 0) →
    exec (.colInstanceDone id) s = .next (mirrored s (((driveRun 4 (collEnv s.hw id (id % 32)) i.record s).2.onHw fun h =>
      h.onInst id fun j => { j with record := (driveRun 4 (collEnv s.hw id (id % 32)) i.record s).1 }).onHw (finishInstance id b)))) ∧
  (∀ (s : State) (id : Fin 1024) (k : Nat) (i : Instance),
    (s.hw.coll id).inst = some i →
    i.ended = false →
    i.expected.contains k = true →
    (missingSegs (s.hw.coll id) i k).isEmpty = false →
    runsFor s.hw (s.hw.coll id).service = true →
    i.policy = 1 →
    exec (.colMemberTimeout id k) s = .next (mirrored s (s.onHw fun g =>
      let h := raise g (16 * (id % 32) + 8) (id * 256 + k)
      h.onInst id (excludeMembers (s.hw.coll id) [k])))) ∧
  (∀ (s : State) (id : Fin 1024) (k : Nat) (i : Instance),
    (s.hw.coll id).inst = some i →
    i.ended = false →
    i.expected.contains k = true →
    (missingSegs (s.hw.coll id) i k).isEmpty = false →
    runsFor s.hw (s.hw.coll id).service = true →
    i.policy = 0 →
    exec (.colMemberTimeout id k) s = .next (mirrored s (s.onHw fun g =>
      let h := raise g (16 * (id % 32) + 8) (id * 256 + k)
      sendNak h (KMap.get i.members k).node id i.epoch k ((missingSegs (s.hw.coll id) i k).headD 0) 1 (missingSegs (s.hw.coll id) i k).length i.sclass))) ∧
  (∀ (s : State) (t : Fin 32) (id i : Nat) (q : Queue) (e : Exec),
    (s.hw.queues = [(id, q)] ∧ s.hw.colls = []) →
    q.execs = [(i, e)] →
    e.run.stall = 2 →
    (onRun id i (fun env r x => reregister env r t x) s).hw.colls = [] →
    exec (.faultSlotFreed t) s = .next (mirrored s (onRun id i (fun env r x => reregister env r t x) s))) ∧
  (∀ (s : State) (t : Fin 32),
    exec (.faultSlotFreed t) s = .next (mirrored s (slotFreed t s)))

/-- PAIR commands join, leave, configure, switch and query the pair. -/
def Obligations.PairCommandsComplete : Prop :=
  (∀ (s : State) (m : Fin 16) (partner links sym s0 s1 sb ret : Nat),
    Asks s m 0xC01 [.f 12, .f 16, .f 1, .f 12, .f 12, .f 1, .f 2] false [partner, links, sym, s0, s1, sb, ret] →
    poolOpen s.hw = true →
    (s.hw.pair.state = 0 ∨ s.hw.pair.state = 4) →
    (1 ≤ popcount 16 links ∧ popcount 16 links ≤ 4 ∧ ret ≠ 3) →
    (partner ≠ s.hw.sys.moduleId ∧ s0 ≠ s.hw.sys.moduleId ∧ s0 ≠ partner) →
    ((if sym = 1 then s1 ≠ s.hw.sys.moduleId ∧ s1 ≠ partner ∧ sb = 0 ∧ s0 ≠ s1 else s1 = 0)) →
    (bitsOf 16 links).any (fun n => (s.hw.link n).state != 3 || (s.hw.link n).partner != partner) = false →
    (((!(sym == 1) && sb == 1) || s.hw.pair.state == 4) && (s.hw.regions.any (fun r => r.1 != 0 && r.2.state != 0) || contextBound s.hw || groupActive s.hw)) = false →
    (sb = 0 ∨ sb = 1) →
    exec (.pairJoin m) s = .next (s.onHw fun h => tryForm ((setWork (sendControl h (.join { node := s.hw.sys.moduleId, partner := partner, symmetric := sym == 1, service0 := s0, service1 := s1, standby := sb == 1, regions := regionExtents s.hw })) m 0xC01 [] []).onPair fun p =>
      { p with asked := some (m.val, links, ret, { node := s.hw.sys.moduleId, partner := partner, symmetric := sym == 1, service0 := s0, service1 := s1, standby := sb == 1, regions := regionExtents s.hw }) }))) ∧
  (∀ (s : State) (m : Fin 16),
    Asks s m 0xC02 [] false [] →
    (s.hw.pair.state ≠ 0 ∧ s.hw.pair.state ≠ 4) →
    exec (.pairLeave m) s = .next (served s m fun h => leavePair (sendControl h .leave))) ∧
  (∀ (s : State) (m : Fin 16),
    Asks s m 0xC02 [] false [] →
    s.hw.pair.state = 4 →
    exec (.pairLeave m) s = .next (served s m fun h => leavePair h)) ∧
  (∀ (s : State) (m : Fin 16) (v : Nat),
    Asks s m 0xC03 [.f 12] false [v] →
    (activeServices s.hw).contains v = true →
    s.hw.pair.state = 2 →
    s.hw.pair.moving.isSome = false →
    exec (.pairSwitch m) s = .next (s.onHw fun h => setWork (h.onPair fun p => { p with moving := some (v, some m.val) }) m 0xC03 [] [v])) ∧
  (∀ (s : State) (m : Fin 16) (r : Nat),
    Asks s m 0xC04 [.f 2] false [r] →
    s.hw.pair.state ≠ 0 →
    r ≠ 3 →
    exec (.pairConfig m) s = .next (served s m fun h => h.onPair fun p => { p with ret := r })) ∧
  (∀ (s : State) (m : Fin 16),
    Asks s m 0xC05 [] false [] →
    s.hw.pair.syncPhase ≠ 2 →
    exec (.pairQuery m) s = .next (served s m (fun h => h) (Reply.ok (pairRecord s.hw 0)))) ∧
  (∀ (s : State) (m : Fin 16),
    Asks s m 0xC05 [] false [] →
    s.hw.pair.syncPhase = 2 →
    exec (.pairQuery m) s = .next (s.onHw fun h => answer { h with freeCount := h.freeCount + 1 } m
      (Reply.ok (pairRecord { h with freeCount := h.freeCount + 1 } ((Config.freeValue h.freeCount).toNat % 2 ^ 18))))) ∧
  (∀ (s : State) (k l r : Nat) (j : JoinInfo),
    s.hw.pair.asked = some (k, l, r, j) →
    exec (.pairJoinTimeout) s = .next (s.onHw fun h => answer (h.onPair fun p => { p with asked := none }) k { status := stTimeout }))

/-- Mirror records are applied and acknowledged, heartbeats and digests are watched, and a divergence runs its self-checks and probes. -/
def Obligations.PairRecordsComplete : Prop :=
  (∀ (s : State) (l : Fin 16) (r : MirrorRec),
    isControl r.item = false →
    (s.hw.pair.state = 1 ∨ s.hw.pair.state = 2 ∨ s.hw.pair.state = 3) →
    tbit s.hw.pair.links l = true →
    (s.hw.pair.fenceOut = false ∨ s.hw.pair.state = 1) →
    (standbyServices s.hw).contains r.service = true →
    exec (.mirrorRecord l r) s = .next ((applyItem r.item s).onHw fun h => h.onPair fun p => { p with acks := (Config.mirrorDigest r.item :: p.acks).take 16 })) ∧
  (∀ (s : State) (l : Fin 16) (r : MirrorRec),
    isControl r.item = true →
    (s.hw.pair.state = 0 ∨ s.hw.pair.state = 4 ∨ (tbit s.hw.pair.links l = true ∧ s.hw.pair.fenceOut = false)) →
    exec (.mirrorRecord l r) s = .next (s.onHw (applyControl r.item))) ∧
  (∀ (s : State),
    (s.hw.pair.state = 1 ∨ s.hw.pair.state = 2 ∨ s.hw.pair.state = 3) →
    exec (.heartbeatTimer) s = .next (s.onHw fun h => sendControl h .heartbeat)) ∧
  (∀ (s : State),
    (s.hw.pair.state = 1 ∨ s.hw.pair.state = 2 ∨ s.hw.pair.state = 3) →
    s.hw.pair.linkLost = false →
    standsBy (forAll s.hw.pair.services (fun v h => diverge v true h) s.hw) = true →
    exec (.mirrorLinkLost) s = .next (s.onHw fun _ => probe (forAll s.hw.pair.services (fun v h => diverge v true h) s.hw))) ∧
  (∀ (s : State),
    (s.hw.pair.state = 1 ∨ s.hw.pair.state = 2 ∨ s.hw.pair.state = 3) →
    s.hw.pair.linkLost = false →
    standsBy (forAll s.hw.pair.services (fun v h => diverge v true h) s.hw) = false →
    exec (.mirrorLinkLost) s = .next (s.onHw fun _ => forAll s.hw.pair.services (fun v h => diverge v true h) s.hw)) ∧
  (∀ (s : State) (f : Bool),
    s.hw.pair.check = 1 →
    s.hw.pair.diverged.isEmpty = false →
    s.hw.pair.linkLost = true →
    (f || selfCheckFails s.hw) = true →
    exec (.selfCheckEnd f) s = .next (s.onHw fun h => decide' ((pairCount h 3).onPair fun p => { p with check := 3, own := some true }))) ∧
  (∀ (s : State) (f : Bool),
    s.hw.pair.check = 1 →
    s.hw.pair.diverged.isEmpty = false →
    s.hw.pair.linkLost = false →
    (f || selfCheckFails s.hw) = true →
    exec (.selfCheckEnd f) s = .next (s.onHw fun h => decide' (sendControl ((pairCount h 3).onPair fun p => { p with check := 3, own := some true }) (.check true)))) ∧
  (∀ (s : State) (f : Bool),
    s.hw.pair.check = 1 →
    s.hw.pair.diverged.isEmpty = false →
    s.hw.pair.linkLost = true →
    (f || selfCheckFails s.hw) = false →
    exec (.selfCheckEnd f) s = .next (s.onHw fun h => decide' (h.onPair fun p => { p with check := 2, own := some false }))) ∧
  (∀ (s : State) (f : Bool),
    s.hw.pair.check = 1 →
    s.hw.pair.diverged.isEmpty = false →
    s.hw.pair.linkLost = false →
    (f || selfCheckFails s.hw) = false →
    exec (.selfCheckEnd f) s = .next (s.onHw fun h => decide' (sendControl (h.onPair fun p => { p with check := 2, own := some false }) (.check false)))) ∧
  (∀ (s : State),
    s.hw.pair.linkLost = true →
    s.hw.pair.probes ≠ 0 →
    s.hw.pair.other.isSome = false →
    standsBy s.hw = true →
    s.hw.pair.probes < 4 →
    exec (.pairProbeTimer) s = .next (s.onHw probe)) ∧
  (∀ (s : State),
    s.hw.pair.linkLost = true →
    s.hw.pair.probes ≠ 0 →
    s.hw.pair.other.isSome = false →
    standsBy s.hw = true →
    ¬ s.hw.pair.probes < 4 →
    exec (.pairProbeTimer) s = .next (s.onHw fun h => decide' (h.onPair fun p => { p with other := some true }))) ∧
  (∀ (s : State) (d : Word) (r : MirrorRec) (mine : Word) (rest : List (MirrorRec × Word)),
    s.hw.pair.outgoing = (r, mine) :: rest →
    isMetadata r.item = false →
    s.hw.pair.diverged.isEmpty = true →
    exec (.mirrorAcknowledgement d) s = .next (s.onHw fun h => releaseAnswers (h.onPair fun p => { p with outgoing := rest }) r.seq)) ∧
  (∀ (s : State) (d : Word) (r : MirrorRec) (rest : List (MirrorRec × Word)),
    s.hw.pair.outgoing = (r, d) :: rest →
    isMetadata r.item = true →
    s.hw.pair.diverged.isEmpty = true →
    exec (.mirrorAcknowledgement d) s = .next (s.onHw fun h => releaseAnswers ((pairCount h 0).onPair fun p => { p with outgoing := rest }) r.seq)) ∧
  (∀ (s : State) (d mine : Word) (r : MirrorRec) (rest : List (MirrorRec × Word)),
    s.hw.pair.outgoing = (r, mine) :: rest →
    isMetadata r.item = true →
    d ≠ mine →
    (diverge r.service false ((pairCount s.hw 0).onPair fun p => { p with outgoing := rest })).pair.diverged.isEmpty = false →
    exec (.mirrorAcknowledgement d) s = .next (s.onHw fun h => sendControl (diverge r.service false ((pairCount h 0).onPair fun p => { p with outgoing := rest })) (.diverge r.service)))

/-- A takeover, a fence, a resynchronisation and a switch do what the pair rules say. -/
def Obligations.PairOutcomesComplete : Prop :=
  (∀ (s : State) (v : Nat),
    s.hw.pair.taking = [v] →
    s.hw.pair.fenceWait = false →
    (s.hw.pair.fenceIn = false ∨ s.hw.pair.fenceOut = true) →
    exec (.takeover) s = .next (
      let a := (s.onHw fun h => h.onPair fun p => { p with fenceOut := true, fenceIn := true, state := 3, writeHold := true, taking := [], alone := p.services }).onHw completeAlone
      let b := probeOpen v (a.onHw fun h => becomeActive v (setEpoch h v (nextEpoch (pepochOf h v))))
      (b.onHw fun h => logOpen (raise (pairCount h 5) 0x323 v) coreLog 2 0x39 none (some 0)).onHw (resendInstances [v]))) ∧
  (∀ (s : State),
    s.hw.pair.taking.isEmpty = false →
    s.hw.pair.fenceWait = false →
    (s.hw.pair.fenceIn = true ∧ s.hw.pair.fenceOut = false) →
    exec (.takeover) s = .next (s.onHw enterFenced)) ∧
  (∀ (s : State),
    exec (.takeoverFenceWaitEnd) s = .next (s.onHw fun h => h.onPair fun p => { p with fenceWait := false })) ∧
  (∀ (s : State),
    exec (.takeoverWriteHoldEnd) s = .next (mirrored s (resumeParked (s.onHw fun h => h.onPair fun p => { p with writeHold := false })))) ∧
  (∀ (s : State),
    (s.hw.pair.state = 1 ∨ s.hw.pair.state = 2 ∨ s.hw.pair.state = 3) →
    s.hw.pair.fenceOut = false →
    exec (.pairFenceNLow) s = .next (s.onHw fun h =>
      let a := h.onPair fun p => { p with state := 4, fenceIn := true, role0 := 0, role1 := 0, diverged := [], taking := [], fenceWait := false, writeHold := false, moving := none, syncPhase := 0 }
      releaseHeld (setLevel (logOpen (dropOutgoing (abandonChunks a)) coreLog 2 0x3A none (some 0)) 0x324 true h.pair.service0))) ∧
  (∀ (s : State),
    s.hw.pair.state = 1 →
    s.hw.pair.syncPhase = 1 →
    s.hw.regions.any (fun r => r.2.mirrored && r.2.state != 0) = false →
    exec (.resyncMetadataDone) s = .next (s.onHw fun h => emit (h.onPair fun p => { p with syncPhase := 2 }) (mirrorHead (h.onPair fun p => { p with syncPhase := 2 })) .metadataDone)) ∧
  (∀ (s : State) (r : Nat × Region),
    s.hw.pair.state = 1 →
    s.hw.pair.syncPhase = 1 →
    s.hw.regions.filter (fun x => x.2.mirrored && x.2.state != 0) = [r] →
    exec (.resyncMetadataDone) s = .next (s.onHw fun h =>
      let a := h.onPair fun p => { p with syncPhase := 2 }
      ((List.filter (fun c : Nat × Byte => decide (r.2.base * 2097152 ≤ c.1) && decide (c.1 < (r.2.base + r.2.extent) * 2097152)) s.pool.mem).map (fun (c : Nat × Byte) => c.1 / 128)
          ++ (List.filter (fun c : Nat × Bool => decide (r.2.base * 2097152 ≤ 8 * c.1) && decide (8 * c.1 < (r.2.base + r.2.extent) * 2097152)) s.pool.poison).map (fun (c : Nat × Bool) => c.1 / 16)).eraseDups.foldl (fun g l => emit g r.2.service (lineItem s.pool (128 * l))) (emit (emit a (mirrorHead a) .metadataDone) r.2.service (.wipe r.1)))) ∧
  (∀ (s : State),
    s.hw.pair.state = 1 →
    s.hw.pair.syncPhase = 2 →
    reclaims s.hw.pair = true →
    exec (.resyncDone) s = .next (s.onHw fun h =>
      let a := h.onPair fun p => { p with state := 2, syncPhase := 0, fenceIn := false, fenceOut := false, returned := false }
      sendControl (raise (emit a (mirrorHead a) .dataDone) 0x325 h.pair.service0) (.reclaim h.pair.service0))) ∧
  (∀ (s : State),
    s.hw.pair.state = 1 →
    s.hw.pair.syncPhase = 2 →
    reclaims s.hw.pair = false →
    exec (.resyncDone) s = .next (s.onHw fun h =>
      let a := h.onPair fun p => { p with state := 2, syncPhase := 0, fenceIn := false, fenceOut := false, returned := false }
      (raise (emit a (mirrorHead a) .dataDone) 0x325 h.pair.service0))) ∧
  (∀ (s : State) (v k : Nat),
    s.hw.pair.moving = some (v, some k) →
    serviceBusy s.hw v = false →
    s.hw.pair.state = 2 →
    exec (.switchDrainDone) s = .next (s.onHw fun h =>
      let e := nextEpoch (pepochOf h v)
      let a := setRole (setEpoch (pairCount (emit h v (.handOver v e)) 6) v e) v 2
      let b := abandonChunks (a.onPair fun p => { p with moving := none, heldPackets := p.heldPackets.filter (fun q => q.packet.dst != v) })
      answer ((h.pair.heldPackets.filter (fun p => p.packet.dst == v)).foldl releasePacket b) k Reply.ok))
end

