-- ==== Sys2Proof/WellFormed.lean ====
section
/-!
DEFINITION. The shape that a command's operands must have before its meaning says what the manual says: flits and blocks
of 192 bytes (R387, R396), access sizes of R94, a packet's data as long as its LEN says (R427).
-/
namespace Sys2Proof

/-- Flits and link blocks are 192 bytes (R387). -/
def unitWf (b : List Byte) : Bool := b.length == 192

/-- A packet whose data is as long as its LEN says (R427). -/
def packetWf (p : Packet) : Bool := p.data.length + 16 == 4 * p.len && p.len < 2 ^ 11 && p.vc < 8 && p.sclass < 4
  && p.opcode < 2 ^ 8 && p.dst < 2 ^ 12 && p.src < 2 ^ 12 && p.ttl < 2 ^ 8 && p.tid < 2 ^ 16

/-- What a training search gives of a lane: a rate, a link lane, and an 8-bit EFM of each of the 16 CTLE settings (R392–R394). -/
def trialWf (t : Trial) : Bool :=
  t.rate < 4 && t.lane < 4 && t.windows.length == 16 && t.windows.all (fun e => e < 256) && t.final < 256

/-- Register accesses are of 4 or 8 bytes and aligned (R94, R647). -/
def accessWf (off size : Nat) : Bool := (size == 4 || size == 8) && off % size == 0

/-- Whether a command's operands have the shape that its row takes. -/
def Instr.wf : Instr → Bool
  | .registerWrite _ off size _ => accessWf off size
  | .packetRoute _ p => packetWf p
  | .dataFlit _ f | .idleFlit _ f | .replayStart _ f | .flitFail _ f => unitWf f
  | .widthReq _ f | .widthAck _ f | .widthGo _ f | .retrainReq _ f | .rateReq _ f | .widthAbandon _ f => unitWf f
  | .tsCap _ b | .tsReady _ b | .tsEq _ b | .filler _ b | .drowseMarker _ b | .slumberMarker _ b => unitWf b
  | .widenLanesPass p => p.trials.all trialWf
  | .rateTrainEnd _ ts | .retrainEnd _ ts => ts.all trialWf
  | _ => true

end Sys2Proof
end

