-- ==== Sys2Proof/Tests/Slice0.lean ====
section
/-!
SUPPORT. Small tests, and for each statement with hypotheses a state and operands that meet them.
-/
namespace Sys2Proof.Machine
open Sys2Proof

/-- The words of a body. -/
def bodyOf (ws : List Nat) : KMap Word := putWords [] ((List.range ws.length).map fun i => (i, BitVec.ofNat 64 (ws.getD i 0)))

/-- A running module `h` whose mailbox 0 holds a request of opcode `op` with the words `ws` in its body. -/
def asked (op : Nat) (ws : List Nat) (h : Hw := {}) : State :=
  { hw := { h with
      sys := { h.sys with phase := 1 }
      mbx := [(0, { state := 1, cmd := op + 65536 * (8 * ws.length), req := bodyOf ws })]
      mbxOrder := [0] } }

/-- A running module. -/
def running (h : Hw := {}) : State := { hw := { h with sys := { h.sys with phase := 1 } } }

/-- A flit of link type `ft` (ACK 4,095, FIRST 63, all else 0) whose payload area holds `cmd` in its first byte and zeros, with its CRC (Z = 0) and its parity. -/
def flit (ft cmd : Nat) (tail : List Nat) : List Byte :=
  ([192 + ft, 255, 3, 0, 126, 0, 0, 0] ++ (cmd :: (List.replicate 171 0 ++ tail))).map (fun x => BitVec.ofNat 8 x)

/-- A TS block of a type, all else zero. -/
def tsBlock (ty : Nat) : List Byte :=
  let b := leBytes 4 0x544C5A49 ++ leBytes 184 ty
  b ++ leBytes 4 (crc32c b)


/-! ### Ill-formed operands are refused -/

theorem test_wf_access_size : (Instr.registerWrite .pcie 0x10000 2 0).wf = false := by decide
theorem test_wf_access_alignment : (Instr.registerWrite .pcie 0x10004 8 0).wf = false := by decide
theorem test_wf_access : (Instr.registerWrite .pcie 0x10004 4 0).wf = true := by decide
theorem test_wf_packet_length : (Instr.packetRoute 0 { len := 5 }).wf = false := by decide
theorem test_wf_packet_channel : (Instr.packetRoute 0 { vc := 8 }).wf = false := by decide
theorem test_wf_packet_class : (Instr.packetRoute 0 { sclass := 4 }).wf = false := by decide
theorem test_wf_packet_opcode : (Instr.packetRoute 0 { opcode := 256 }).wf = false := by decide
theorem test_wf_packet_destination : (Instr.packetRoute 0 { dst := 4096 }).wf = false := by decide
theorem test_wf_packet_source : (Instr.packetRoute 0 { src := 4096 }).wf = false := by decide
theorem test_wf_packet_hops : (Instr.packetRoute 0 { ttl := 256 }).wf = false := by decide
theorem test_wf_packet_tid : (Instr.packetRoute 0 { tid := 65536 }).wf = false := by decide
theorem test_wf_packet : (Instr.packetRoute 0 {}).wf = true := by decide
theorem test_wf_flit : (Instr.dataFlit 0 []).wf = false := by decide
theorem test_wf_command_flit : (Instr.widthReq 0 []).wf = false := by decide
theorem test_wf_block : (Instr.tsCap 0 []).wf = false := by decide

/-! ### The manual's worked examples -/

/-- The check value of R421's CRC for "123456789". -/
theorem test_crc_check_value : crc32c ((List.range 9).map fun i => BitVec.ofNat 8 (0x31 + i)) = 0xE3069283 := by decide +kernel
/-- The worked decodes after R21 and R336: FPA 0x2A_0012_3456_789A. -/
theorem test_pool_placement : tileOf 0x123456789A = 7 ∧ tileLocal 0x123456789A = 0x91A2B89A ∧ pcOf 0x123456789A = 8
    ∧ pcOffset 0x123456789A = 0x91A2B9A ∧ rowOf 0x123456789A = 2330 ∧ bankOf 0x123456789A = 16 := by decide +kernel
/-- The worked check field and decode of chapter 12: D = 1, then D[0] flips. -/
theorem test_ecc_worked : checkField 1 false = 0x8377
    ∧ decodeWord (flipBits (encodeWord 1 false) [14]) = { flips := some [14], s1 := 0x41, s3 := 0x2B, p := true }
    ∧ mcsDetail (decodeWord (flipBits (encodeWord 1 false) [14])) = 0x0E032B41 := by decide +kernel
/-- INFO of the log entry in the worked read of chapter 22. -/
theorem test_log_info : mcsInfo (0x1234567898 / 8) = 0x246908 := by decide +kernel
/-- EVC_CLAIM of the worked read of chapter 22. -/
theorem test_claim_word : claimWord 0x07B { count := 1, info := 7 } = 0x00000007_0001807B := by decide +kernel
/-- HTID of the worked case of chapter 4. -/
theorem test_htid : (DirSlice.htidOf { gens := [(0x1C, 1)] } 7 0x1C) = 0x271C := by decide +kernel

/-- The block of the worked FP4 examples of chapter 6. -/
def fp4Block : List Num := ([0x40E66666, 0xC0466666, 0x3F4CCCCD, 0x3E4CCCCD] ++ List.replicate 28 0x3F000000).map fun c => (decode32 c).num
theorem test_fp4_floor : encodeRow 0x17 [] 0 0 0 0 fp4Block
    = { elems := leBytes 16 (0xD7 + 256 * 0x02 + 65536 * 0x1111111111111111111111111111), blocks := [([0x7F], [])], sat := 1, flush := 1 } := by
  decide +kernel
theorem test_fp4_ceil : (encodeRow 0x57 [] 0 0 0 0 fp4Block).blocks = [([0x80], [])] ∧ (encodeRow 0x57 [] 0 0 0 0 fp4Block).flush = 29
    ∧ (encodeRow 0x57 [] 0 0 0 0 fp4Block).sat = 0 := by decide +kernel
theorem test_fp4_sidecar : encodeRow 0x97 [] 0 0 0 0 fp4Block
    = { elems := leBytes 16 (256 * 0x37 + 65536 * 0x6666666666666666666666666666), blocks := [([0x7C], leBytes 8 0x0021C2330020_4733)] } := by
  decide +kernel
/-- The partials of the worked merge of chapter 9, as FP32 codes. -/
def mergeParts : List (List Nat) := [[0x40400000, 0x40200000, 0, 0, 0x41200000], [0x3F800000, 0x40800000, 0, 0, 0x40C00000]]
/-- Its m, l and o as FP32, and 23/7 under FINAL. -/
theorem test_merge_worked : (mergeRow 1 mergeParts).1 = 0x40400000
    ∧ (encodeRow 0 [] 0 0 0 0 ((mergeRow 1 mergeParts).2.1 :: (mergeRow 1 mergeParts).2.2.1 ++ (mergeRow 1 mergeParts).2.2.2)).elems
      = leBytes 4 0x40600000 ++ leBytes 4 0x41380000 ++ leBytes 4 0x40524925 := by decide +kernel
/-- The worked centre of R349: delays 18 to 47 pass at vref 10 to 21. -/
theorem test_centre_worked : centre ((List.range 64).map fun v => if 10 ≤ v && v ≤ 21 then ((2 ^ 30 - 1) * 2 ^ 18 : Word) else 0)
    = some (15, 32, 30, 12) := by decide +kernel
/-- The worked body of R525: the parameters of CTX.BIND end at byte 52. -/
theorem test_body_layout : (readParams 0 [.f 16, .f 12, .f 1, .f 60, .f 16, .f 60, .f 5, .f 60, .f 32] [] 0 0).2.2 = 52 := by decide +kernel

/-- The worked case of R390: bits 1,1,1,0,0,1 with P(−1) = 0. -/
theorem test_precode_worked : [3, 2, 1].map grayOf = [2, 3, 1] ∧ precodeSymbols [2, 3, 1] 0 = [2, 1, 0]
    ∧ [2, 1, 0].map level = [1, -1, -3] ∧ unprecode [2, 1, 0] 0 = [2, 3, 1] := by decide
/-- Byte 0x88 is the symbols +3, −3 alternating (R425). -/
theorem test_wake_pattern : (laneGray [0x88]).map level = [3, -3, 3, -3] := by decide
/-- Byte k goes to a_(k mod W) (R423). -/
theorem test_stripe : laneBytes 0b1100 3 [10, 11, 12, 13] = [11, 13] ∧ laneBytes 0b1111 2 [10, 11, 12, 13] = [12] := by decide

/-! ### States and operands that meet the hypotheses of each statement -/

theorem witness_StepRunsFrontCommand :
    (({ pending := [.heartbeatTimer, .selfCheckEnd true] } : State).pending = .heartbeatTimer :: [.selfCheckEnd true]) := by decide +kernel

theorem witness_EmptyQueueCountsTime :
    (({} : State).pending = []) := by decide +kernel

theorem witness_CommandsLeaveTheQueue :
    (exec .takeoverWriteHoldEnd State.reset = .next State.reset) := rfl

theorem witness_StepsKeepMemoryCanonical :
    (PoolCanonical State.reset ∧ step { pending := [.takeoverWriteHoldEnd] } = .next {}) := ⟨rfl, rfl⟩

theorem witness_OtherCommandsSpareMemory :
    (touchesMemory .switchDrainDone = false ∧ exec .switchDrainDone State.reset = .next State.reset) := ⟨rfl, rfl⟩

theorem witness_PoolBytesLieApart :
    (tileOf 5 = tileOf 5 ∧ pcOf 5 = pcOf 5 ∧ rowOf 5 = rowOf 5 ∧ bankOf 5 = bankOf 5 ∧ pcOffset 5 % 1024 = pcOffset 5 % 1024 ∧ 5 < poolSize) := by decide +kernel

theorem witness_WordsReadAsStored :
    (KMap.find? State.reset.pool.errs 9 = none ∧ 3 + ([1, 2] : List Byte).length ≤ 8 ∧ ([1, 2] : List Byte).length < 8 ∧ State.reset.pool.poisoned 9 = false ∧ 0 < ([1, 2] : List Byte).length) ∧
    (0 + (leBytes 8 7).length ≤ 8 ∧ (leBytes 8 7).length = 8) := by
  refine ⟨?_, ?_⟩ <;> decide +kernel

theorem witness_ControlWordKeepsItsFields :
    (({ ftype := 7, nakId := 3, crvc := 7, crcum := 4095, rseq := 4095, rsv := 8191 } : LinkControl).ftype < 8 ∧ 3 < 4 ∧ 4095 < 4096 ∧ 7 < 8 ∧ 63 < 64 ∧ 8191 < 8192) := by decide +kernel

theorem witness_InServiceReads :
    (15 < 16 ∧ 63 < 64 ∧ (running {}).hw.sys.phase ≠ 2) := by decide +kernel

theorem witness_PwrLimitAnswers :
    (mayRun (asked 0xF02 [600]).hw 0 0xF02 = true ∧ (asked 0xF02 [600]).hw.tap.unlock ≠ 1 ∧ ((asked 0xF02 [600]).hw.mailbox 0).len = 8 ∧ ((asked 0xF02 [600]).hw.mailbox 0).part = 0 ∧ ((asked 0xF02 [600]).hw.mailbox 0).body = 600) ∧
    (((asked 0xF02 [1201]).hw.mailbox 0).body = 1201) ∧
    (((asked 0xF02 [4096]).hw.mailbox 0).body = 2 ^ 12) := by
  refine ⟨?_, ?_, ?_⟩ <;> decide +kernel

theorem witness_ContextModifyChangesTwoFields :
    (Asks (asked 0x202 [7, 0, 50] { contexts := [(7, { bound := true })] }) 0 0x202 [.f 16, .f 60, .f 32] false [7, 0, 50] ∧ ((asked 0x202 [7, 0, 50] { contexts := [(7, { bound := true })] }).hw.ctx 7).bound = true ∧ badTimeout 50 = false) ∧
    (((asked 0x202 [7, 0, 50]).hw.ctx 7).bound = false ∧ Asks (asked 0x202 [7, 0, 50]) 0 0x202 [.f 16, .f 60, .f 32] false [7, 0, 50]) := by
  refine ⟨?_, ?_⟩ <;> decide +kernel

theorem witness_RightsAreTheOrOfEntries :
    (∀ e ∈ ({ acl := [{ id := 4, r := true }] } : Region).acl, e.names {} 5 = false) := by decide +kernel

theorem witness_LaneCodingReverses :
    (0 < 4 ∧ ∀ x ∈ [2, 3, 1], x < 4) ∧
    (3 < 4) ∧
    (([1, 2] : List Nat).length = [3, 4].length) := by
  refine ⟨?_, ?_, ?_⟩ <;> decide +kernel

theorem witness_ScaleCodesAreExact :
    (fElem 14 = 14 ∧ 254 < 256 ∧ 254 ≤ 254) ∧
    (fElem 14 = 14 ∧ 255 < 256) := by
  refine ⟨?_, ?_⟩ <;> decide +kernel

theorem witness_SegmentsCoverAnInstance :
    (8 ≤ ({ segLog2 := 8, count := 288 } : Group).segLog2 ∧ 32 ≤ 288 ∧ 288 % 32 = 0 ∧ 0 < ({ segLog2 := 8, count := 288 } : Group).nseg ∧ 0 + 1 < ({ segLog2 := 8, count := 288 } : Group).nseg) := by decide +kernel

theorem witness_BusyMailboxesKeepTheirRequest :
    (0x7F8 % 8 = 0 ∧ 0x7F8 < 0x800 ∧ 0x7F8 ≠ 0x18 ∧ ((asked 0x102 [7]).hw.mailbox 0).state = 1) ∧
    (0xFF8 % 8 = 0 ∧ 0x800 ≤ 0xFF8 ∧ 0xFF8 < 0x1000) := by
  refine ⟨?_, ?_⟩ <;> decide +kernel

theorem witness_MailboxServiceCompletes :
    ((tbit (1 : Word).toNat 0 = true) ∧ (mayManage (running { mbx := [(0, { cmd := 0x102 })] }).hw Requester.pcie = true) ∧ ((running { mbx := [(0, { cmd := 0x102 })] }).hw.sys.phase = 1) ∧ (((running { mbx := [(0, { cmd := 0x102 })] }).hw.mailbox 0).state ≠ 1) ∧ (opcodeKnown ((running { mbx := [(0, { cmd := 0x102 })] }).hw.mailbox 0).opcode = true)) ∧
    ((Asks (asked 0x101 []) 0 0x101 [] false [])) ∧
    ((mayRun (asked 0x102 [7, 8]).hw 0 0x102 = true) ∧ ((asked 0x102 [7, 8]).hw.tap.unlock ≠ 1) ∧ (((asked 0x102 [7, 8]).hw.mailbox 0).len % 8 = 0) ∧ (((asked 0x102 [7, 8]).hw.mailbox 0).len ≤ 2016) ∧ (((asked 0x102 [7, 8]).hw.mailbox 0).reserved = 0) ∧ (((asked 0x102 [7, 8]).hw.mailbox 0).part = 0)) := by
  refine ⟨?_, ?_, ?_⟩ <;> decide +kernel

theorem witness_GpioCommandsComplete :
    ((Asks (asked 0x1001 [3 + 256 + 2 ^ 24 * 2 + 2 ^ 48 * 1000]) 0 0x1001 [.f 8, .f 1, .f 1, .f 2, .f 1, .f 10] false [3, 1, 0, 2, 0, 1000]) ∧ (2 ≠ 3) ∧ (1000 ≤ 1000)) ∧
    ((Asks (asked 0x1002 [0x0103]) 0 0x1002 [.f 8, .f 8] false [3, 1])) ∧
    ((Asks (asked 0x1003 []) 0 0x1003 [] false [])) := by
  refine ⟨?_, ?_, ?_⟩ <;> decide +kernel

theorem witness_EventCommandsComplete :
    ((((running { evc := { sources := [(16, { enable := true, count := 2 })] } }).hw.vector 0).outstanding < 16) ∧ (claimPick (running { evc := { sources := [(16, { enable := true, count := 2 })] } }).hw 0 = some 16)) ∧
    ((((running { evc := { sources := [(16, { inService := some 3 })], vectors := [(3, { outstanding := 1 })] } }).hw.source ((16 : Word).toNat % 1024)).inService = some (3 : Fin 68).val)) ∧
    ((((running).hw.source ((16 : Word).toNat % 1024)).inService ≠ some (3 : Fin 68).val)) ∧
    ((mayMessage (running { pcie := { msixEnable := true, command := 4, link := 1 }, evc := { sources := [(16, { enable := true, count := 2 })], vectors := [(0, { enable := true, msixMask := false })] } }).hw (0 : Fin 68) = true) ∧ (((running { pcie := { msixEnable := true, command := 4, link := 1 }, evc := { sources := [(16, { enable := true, count := 2 })], vectors := [(0, { enable := true, msixMask := false })] } }).hw.vector (0 : Fin 68)).attempted = false) ∧ ((0 : Fin 68).val < 64) ∧ (messageHeld (running { pcie := { msixEnable := true, command := 4, link := 1 }, evc := { sources := [(16, { enable := true, count := 2 })], vectors := [(0, { enable := true, msixMask := false })] } }).hw (0 : Fin 68) = false) ∧ (((running { pcie := { msixEnable := true, command := 4, link := 1 }, evc := { sources := [(16, { enable := true, count := 2 })], vectors := [(0, { enable := true, msixMask := false })] } }).hw.vector (0 : Fin 68)).delivery = false)) ∧
    ((((running { evc := { vectors := [(5, { unanswered := true })] } }).hw.vector (5 : Fin 68)).unanswered = true)) ∧
    ((((running).hw.vector (5 : Fin 64)).held = false)) ∧
    (((1 : Word).toNat % 2 = 1)) ∧
    (((1 : Word).toNat % 2 = 1)) ∧
    (((1 : Word).toNat % 2 = 1)) := by
  refine ⟨?_, ?_, ?_, ?_, ?_, ?_, ?_, ?_, ?_⟩ <;> decide +kernel

theorem witness_TimeMessagesComplete :
    ((timeLegal (timePacket {} 0x70 0 5 6 7 0 0 0) 0x70 = true) ∧ ((running { time := { role := 2 } }).hw.time.role = 2) ∧ ((0 : Fin 64).val = (running { time := { role := 2 } }).hw.time.parent) ∧ ((running { time := { role := 2 } }).hw.clk.loss = false) ∧ (timeHere (running { time := { role := 2 } }).hw (running { time := { role := 2 } }).hw.time.parent (timePacket {} 0x70 0 5 6 7 0 0 0) = true)) ∧
    ((timeLegal (timePacket {} 0x71 0 5 6 7 0 0 0) 0x71 = true) ∧ (((dropTime (running { links := [(0, { state := 3 })] }).hw (0 : Fin 64) (timePacket {} 0x71 0 5 6 7 0 0 0)).link (0 : Fin 64)).state = 3) ∧ (timeHere (running { links := [(0, { state := 3 })] }).hw (0 : Fin 64) (timePacket {} 0x71 0 5 6 7 0 0 0) = true)) ∧
    ((timeLegal (timePacket {} 0x72 0 5 6 7 0 0 0) 0x72 = true) ∧ ((running { time := { role := 2, request := some (0, 3) } }).hw.time.request = some (tf (timePacket {} 0x72 0 5 6 7 0 0 0) 192 16, 3)) ∧ ((running { time := { role := 2, request := some (0, 3) } }).hw.time.role = 2) ∧ ((0 : Fin 64).val = (running { time := { role := 2, request := some (0, 3) } }).hw.time.parent) ∧ (timeHere (running { time := { role := 2, request := some (0, 3) } }).hw (running { time := { role := 2, request := some (0, 3) } }).hw.time.parent (timePacket {} 0x72 0 5 6 7 0 0 0) = true)) ∧
    ((timeLegal (timePacket {} 0x73 0 5 6 7 0 0 0) 0x73 = true) ∧ ((running { time := { role := 2 } }).hw.time.role = 2) ∧ ((0 : Fin 64).val = (running { time := { role := 2 } }).hw.time.parent) ∧ (timeHere (running { time := { role := 2 } }).hw (running { time := { role := 2 } }).hw.time.parent (timePacket {} 0x73 0 5 6 7 0 0 0) = true)) ∧
    (((running { time := { state := 4 } }).hw.time.state = 4) ∧ ((bitsOf 64 (running { time := { state := 4 } }).hw.time.syncOut).filter (fun k => liveLink (running { time := { state := 4 } }).hw k) = [])) ∧
    (((running { time := { state := 4, syncOut := 2 }, links := [(1, { state := 3 })] }).hw.time.state = 4) ∧ ((bitsOf 64 (running { time := { state := 4, syncOut := 2 }, links := [(1, { state := 3 })] }).hw.time.syncOut).filter (fun k => liveLink (running { time := { state := 4, syncOut := 2 }, links := [(1, { state := 3 })] }).hw k) = [1])) ∧
    (((running { time := { role := 2 }, links := [(0, { state := 3 })] }).hw.time.role = 2) ∧ (liveLink (running { time := { role := 2 }, links := [(0, { state := 3 })] }).hw (running { time := { role := 2 }, links := [(0, { state := 3 })] }).hw.time.parent = true)) := by
  refine ⟨?_, ?_, ?_, ?_, ?_, ?_, ?_⟩ <;> decide +kernel

theorem witness_TimeCommandsComplete :
    (((running { time := { role := 2, state := 2 } }).hw.time.role = 2) ∧ ((running { time := { role := 2, state := 2 } }).hw.time.state = 2)) ∧
    (((running { time := { state := 3 } }).hw.time.state = 3)) ∧
    ((Asks (asked 0xB09 [1 + 2 ^ 16 * 10 + 2 ^ 32 * 100, 1000]) 0 0xB09 [.f 2, .f 6, .f 16, .f 16, .f 32] false [1, 0, 10, 100, 1000]) ∧ (1 < 3) ∧ ((0 < 10 ∧ 10 ≤ 1000)) ∧ ((10 ≤ 100 ∧ 100 ≤ 60000)) ∧ ((100 ≤ 1000 ∧ 1000 ≤ 10000000)) ∧ ((1 = 2 → ((asked 0xB09 [1 + 2 ^ 16 * 10 + 2 ^ 32 * 100, 1000]).hw.link 0).state = 3))) ∧
    ((Asks (asked 0xB0A [3 + 2 ^ 32 * 7, 1]) 0 0xB0A [.f 6, .f 32, .f 1] false [3, 7, 1])) ∧
    ((Asks (asked 0xB0B [77] { time := { role := 1 } }) 0 0xB0B [.f 64] false [77]) ∧ ((asked 0xB0B [77] { time := { role := 1 } }).hw.time.role = 1)) ∧
    ((Asks (asked 0xB0C []) 0 0xB0C [] false [])) := by
  refine ⟨?_, ?_, ?_, ?_, ?_, ?_⟩ <;> decide +kernel

theorem witness_LinkFlitsComplete :
    (((flit 1 0 [220, 74, 247, 33, 219, 89, 248, 219, 130, 249, 54, 239]).length = 192) ∧ (((running { links := [(3, { state := 3 })] }).hw.link (3 : Fin 64)).state = 3) ∧ (((running { links := [(3, { state := 3 })] }).hw.link (3 : Fin 64)).rx.fill < 16) ∧ (flitFec (flit 1 0 [220, 74, 247, 33, 219, 89, 248, 219, 130, 249, 54, 239]) = some ((flit 1 0 [220, 74, 247, 33, 219, 89, 248, 219, 130, 249, 54, 239]), 0)) ∧ ((LinkControl.ofNat (leNat ((flit 1 0 [220, 74, 247, 33, 219, 89, 248, 219, 130, 249, 54, 239]).take 8))).ftype = 1) ∧ (((running { links := [(3, { state := 3 })] }).hw.link (3 : Fin 64)).rx.recover = false) ∧ (crcMatches (flit 1 0 [220, 74, 247, 33, 219, 89, 248, 219, 130, 249, 54, 239]) ((running { links := [(3, { state := 3 })] }).hw.link (3 : Fin 64)).rx.number = true)) ∧
    (((flit 0 0 [248, 179, 27, 141, 48, 223, 4, 112, 172, 163, 198, 205]).length = 192) ∧ (((running { links := [(3, { state := 3 })] }).hw.link (3 : Fin 64)).state = 3) ∧ (((running { links := [(3, { state := 3 })] }).hw.link (3 : Fin 64)).rx.fill < 16) ∧ (flitFec (flit 0 0 [248, 179, 27, 141, 48, 223, 4, 112, 172, 163, 198, 205]) = some ((flit 0 0 [248, 179, 27, 141, 48, 223, 4, 112, 172, 163, 198, 205]), 0)) ∧ ((LinkControl.ofNat (leNat ((flit 0 0 [248, 179, 27, 141, 48, 223, 4, 112, 172, 163, 198, 205]).take 8))).ftype = 0) ∧ (((running { links := [(3, { state := 3 })] }).hw.link (3 : Fin 64)).rx.recover = false) ∧ (crcMatches (flit 0 0 [248, 179, 27, 141, 48, 223, 4, 112, 172, 163, 198, 205]) ((running { links := [(3, { state := 3 })] }).hw.link (3 : Fin 64)).rx.number = true)) ∧
    (((flit 2 0 [65, 55, 46, 209, 17, 202, 251, 202, 214, 15, 236, 22]).length = 192) ∧ (((running { links := [(3, { state := 3 })] }).hw.link (3 : Fin 64)).state = 3) ∧ (((running { links := [(3, { state := 3 })] }).hw.link (3 : Fin 64)).rx.fill < 16) ∧ (flitFec (flit 2 0 [65, 55, 46, 209, 17, 202, 251, 202, 214, 15, 236, 22]) = some ((flit 2 0 [65, 55, 46, 209, 17, 202, 251, 202, 214, 15, 236, 22]), 0)) ∧ ((LinkControl.ofNat (leNat ((flit 2 0 [65, 55, 46, 209, 17, 202, 251, 202, 214, 15, 236, 22]).take 8))).ftype = 2) ∧ (crcMatches (flit 2 0 [65, 55, 46, 209, 17, 202, 251, 202, 214, 15, 236, 22]) (LinkControl.ofNat (leNat ((flit 2 0 [65, 55, 46, 209, 17, 202, 251, 202, 214, 15, 236, 22]).take 8))).rseq = true) ∧ ((((running { links := [(3, { state := 3 })] }).hw.link (3 : Fin 64)).rx.expected + 4096 - (LinkControl.ofNat (leNat ((flit 2 0 [65, 55, 46, 209, 17, 202, 251, 202, 214, 15, 236, 22]).take 8))).rseq) % 4096 ≤ 512)) ∧
    ((((List.range 192).map fun i => if i < 12 then 1#8 else 0#8).length = 192) ∧ (((running { links := [(3, { state := 3 })] }).hw.link (3 : Fin 64)).state = 3) ∧ (((running { links := [(3, { state := 3 })] }).hw.link (3 : Fin 64)).rx.fill < 16) ∧ (flitFec ((List.range 192).map fun i => if i < 12 then 1#8 else 0#8) = none)) ∧
    (((block 0).length = 192) ∧ (((running { links := [(3, { state := 3, rx := { fill := 300 } })] }).hw.link (3 : Fin 64)).state = 3) ∧ (16 ≤ ((running { links := [(3, { state := 3, rx := { fill := 300 } })] }).hw.link (3 : Fin 64)).rx.fill - (freshBits 8 (running { links := [(3, { state := 3, rx := { fill := 300 } })] }).hw).1)) := by
  refine ⟨?_, ?_, ?_, ?_, ⟨by decide +kernel, by decide +kernel, by have e := Nat.mod_lt (fresh (running { links := [(3, { state := 3, rx := { fill := 300 } })] }).hw).1 (show 0 < 2 ^ 8 by decide); show 16 ≤ 300 - _; exact Nat.le_sub_of_add_le (Nat.le_trans (Nat.le_of_lt (Nat.add_lt_add_left e 16)) (by decide))⟩⟩ <;> decide +kernel

theorem witness_LinkControlFlitsComplete :
    (((flit 6 1 [254, 54, 3, 172, 54, 8, 117, 22, 169, 188, 173, 199]).length = 192) ∧ (((running { links := [(3, { state := 3 })] }).hw.link (3 : Fin 64)).state = 3) ∧ (((running { links := [(3, { state := 3 })] }).hw.link (3 : Fin 64)).rx.fill < 16) ∧ (flitFec (flit 6 1 [254, 54, 3, 172, 54, 8, 117, 22, 169, 188, 173, 199]) = some ((flit 6 1 [254, 54, 3, 172, 54, 8, 117, 22, 169, 188, 173, 199]), 0)) ∧ ((LinkControl.ofNat (leNat ((flit 6 1 [254, 54, 3, 172, 54, 8, 117, 22, 169, 188, 173, 199]).take 8))).ftype = 6) ∧ (((running { links := [(3, { state := 3 })] }).hw.link (3 : Fin 64)).rx.recover = false) ∧ (crcMatches (flit 6 1 [254, 54, 3, 172, 54, 8, 117, 22, 169, 188, 173, 199]) ((running { links := [(3, { state := 3 })] }).hw.link (3 : Fin 64)).rx.number = true) ∧ (leNat (((flit 6 1 [254, 54, 3, 172, 54, 8, 117, 22, 169, 188, 173, 199]).drop 8).take 8) = 1) ∧ (fld 1 0 8 = 1)) ∧
    (((flit 6 2 [88, 89, 37, 230, 173, 155, 183, 186, 215, 251, 9, 154]).length = 192) ∧ (((running { links := [(3, { state := 3 })] }).hw.link (3 : Fin 64)).state = 3) ∧ (((running { links := [(3, { state := 3 })] }).hw.link (3 : Fin 64)).rx.fill < 16) ∧ (flitFec (flit 6 2 [88, 89, 37, 230, 173, 155, 183, 186, 215, 251, 9, 154]) = some ((flit 6 2 [88, 89, 37, 230, 173, 155, 183, 186, 215, 251, 9, 154]), 0)) ∧ ((LinkControl.ofNat (leNat ((flit 6 2 [88, 89, 37, 230, 173, 155, 183, 186, 215, 251, 9, 154]).take 8))).ftype = 6) ∧ (((running { links := [(3, { state := 3 })] }).hw.link (3 : Fin 64)).rx.recover = false) ∧ (crcMatches (flit 6 2 [88, 89, 37, 230, 173, 155, 183, 186, 215, 251, 9, 154]) ((running { links := [(3, { state := 3 })] }).hw.link (3 : Fin 64)).rx.number = true) ∧ (leNat (((flit 6 2 [88, 89, 37, 230, 173, 155, 183, 186, 215, 251, 9, 154]).drop 8).take 8) = 2) ∧ (fld 2 0 8 = 2)) ∧
    (((flit 6 3 [149, 81, 99, 35, 116, 163, 97, 213, 230, 29, 189, 230]).length = 192) ∧ (((running { links := [(3, { state := 3 })] }).hw.link (3 : Fin 64)).state = 3) ∧ (((running { links := [(3, { state := 3 })] }).hw.link (3 : Fin 64)).rx.fill < 16) ∧ (flitFec (flit 6 3 [149, 81, 99, 35, 116, 163, 97, 213, 230, 29, 189, 230]) = some ((flit 6 3 [149, 81, 99, 35, 116, 163, 97, 213, 230, 29, 189, 230]), 0)) ∧ ((LinkControl.ofNat (leNat ((flit 6 3 [149, 81, 99, 35, 116, 163, 97, 213, 230, 29, 189, 230]).take 8))).ftype = 6) ∧ (((running { links := [(3, { state := 3 })] }).hw.link (3 : Fin 64)).rx.recover = false) ∧ (crcMatches (flit 6 3 [149, 81, 99, 35, 116, 163, 97, 213, 230, 29, 189, 230]) ((running { links := [(3, { state := 3 })] }).hw.link (3 : Fin 64)).rx.number = true) ∧ (leNat (((flit 6 3 [149, 81, 99, 35, 116, 163, 97, 213, 230, 29, 189, 230]).drop 8).take 8) = 3) ∧ (fld 3 0 8 = 3)) ∧
    (((flit 6 4 [20, 134, 105, 114, 53, 195, 163, 168, 233, 167, 189, 199]).length = 192) ∧ (((running { links := [(3, { state := 3 })] }).hw.link (3 : Fin 64)).state = 3) ∧ (((running { links := [(3, { state := 3 })] }).hw.link (3 : Fin 64)).rx.fill < 16) ∧ (flitFec (flit 6 4 [20, 134, 105, 114, 53, 195, 163, 168, 233, 167, 189, 199]) = some ((flit 6 4 [20, 134, 105, 114, 53, 195, 163, 168, 233, 167, 189, 199]), 0)) ∧ ((LinkControl.ofNat (leNat ((flit 6 4 [20, 134, 105, 114, 53, 195, 163, 168, 233, 167, 189, 199]).take 8))).ftype = 6) ∧ (((running { links := [(3, { state := 3 })] }).hw.link (3 : Fin 64)).rx.recover = false) ∧ (crcMatches (flit 6 4 [20, 134, 105, 114, 53, 195, 163, 168, 233, 167, 189, 199]) ((running { links := [(3, { state := 3 })] }).hw.link (3 : Fin 64)).rx.number = true) ∧ (leNat (((flit 6 4 [20, 134, 105, 114, 53, 195, 163, 168, 233, 167, 189, 199]).drop 8).take 8) = 4) ∧ (fld 4 0 8 = 4)) ∧
    (((flit 6 5 [217, 142, 47, 183, 236, 251, 117, 199, 216, 65, 9, 187]).length = 192) ∧ (((running { links := [(3, { state := 3 })] }).hw.link (3 : Fin 64)).state = 3) ∧ (((running { links := [(3, { state := 3 })] }).hw.link (3 : Fin 64)).rx.fill < 16) ∧ (flitFec (flit 6 5 [217, 142, 47, 183, 236, 251, 117, 199, 216, 65, 9, 187]) = some ((flit 6 5 [217, 142, 47, 183, 236, 251, 117, 199, 216, 65, 9, 187]), 0)) ∧ ((LinkControl.ofNat (leNat ((flit 6 5 [217, 142, 47, 183, 236, 251, 117, 199, 216, 65, 9, 187]).take 8))).ftype = 6) ∧ (((running { links := [(3, { state := 3 })] }).hw.link (3 : Fin 64)).rx.recover = false) ∧ (crcMatches (flit 6 5 [217, 142, 47, 183, 236, 251, 117, 199, 216, 65, 9, 187]) ((running { links := [(3, { state := 3 })] }).hw.link (3 : Fin 64)).rx.number = true) ∧ (leNat (((flit 6 5 [217, 142, 47, 183, 236, 251, 117, 199, 216, 65, 9, 187]).drop 8).take 8) = 5) ∧ (fld 5 0 8 = 5)) ∧
    (((flit 6 6 [127, 225, 9, 253, 119, 104, 183, 107, 166, 6, 173, 230]).length = 192) ∧ (((running { links := [(3, { state := 3 })] }).hw.link (3 : Fin 64)).state = 3) ∧ (((running { links := [(3, { state := 3 })] }).hw.link (3 : Fin 64)).rx.fill < 16) ∧ (flitFec (flit 6 6 [127, 225, 9, 253, 119, 104, 183, 107, 166, 6, 173, 230]) = some ((flit 6 6 [127, 225, 9, 253, 119, 104, 183, 107, 166, 6, 173, 230]), 0)) ∧ ((LinkControl.ofNat (leNat ((flit 6 6 [127, 225, 9, 253, 119, 104, 183, 107, 166, 6, 173, 230]).take 8))).ftype = 6) ∧ (((running { links := [(3, { state := 3 })] }).hw.link (3 : Fin 64)).rx.recover = false) ∧ (crcMatches (flit 6 6 [127, 225, 9, 253, 119, 104, 183, 107, 166, 6, 173, 230]) ((running { links := [(3, { state := 3 })] }).hw.link (3 : Fin 64)).rx.number = true) ∧ (leNat (((flit 6 6 [127, 225, 9, 253, 119, 104, 183, 107, 166, 6, 173, 230]).drop 8).take 8) = 6) ∧ (fld 6 0 8 = 6)) := by
  refine ⟨?_, ?_, ?_, ?_, ?_, ?_⟩ <;> decide +kernel

theorem witness_LinkSleepComplete :
    ((((running { links := [(3, { state := 3 })] }).hw.link (3 : Fin 64)).state = 3) ∧ (blockIs 0xF3 (block 0xF3) = true)) ∧
    ((((running { links := [(3, { state := 3 })] }).hw.link (3 : Fin 64)).state = 3) ∧ (blockIs 0xF4 (block 0xF4) = true)) ∧
    ((((running { links := [(3, { state := 3 })] }).hw.link (3 : Fin 64)).state = 3) ∧ (blockIs 0xF5 (block 0xF5) = true)) ∧
    ((((running { links := [(3, { state := 3, tx := { sleep := 1, sinceFiller := 4096 } })] }).hw.link (3 : Fin 64)).state = 3) ∧ (((running { links := [(3, { state := 3, tx := { sleep := 1, sinceFiller := 4096 } })] }).hw.link (3 : Fin 64)).tx.sleep = 1) ∧ (4096 ≤ ((running { links := [(3, { state := 3, tx := { sleep := 1, sinceFiller := 4096 } })] }).hw.link (3 : Fin 64)).tx.sinceFiller)) ∧
    ((((running { links := [(3, { state := 3, tx := { sleep := 1 }, drowse := 500 })] }).hw.link (3 : Fin 64)).state = 3) ∧ (((running { links := [(3, { state := 3, tx := { sleep := 1 }, drowse := 500 })] }).hw.link (3 : Fin 64)).tx.sleep = 1) ∧ (((running { links := [(3, { state := 3, tx := { sleep := 1 }, drowse := 500 })] }).hw.link (3 : Fin 64)).drowse ≠ 0) ∧ (((running { links := [(3, { state := 3, tx := { sleep := 1 }, drowse := 500 })] }).hw.link (3 : Fin 64)).tr.phase = 0) ∧ (hasToSend (running { links := [(3, { state := 3, tx := { sleep := 1 }, drowse := 500 })] }).hw (3 : Fin 64) = false)) ∧
    ((((running { links := [(3, { state := 3, tx := { sleep := 2 }, slumber := 500 })] }).hw.link (3 : Fin 64)).state = 3) ∧ (((running { links := [(3, { state := 3, tx := { sleep := 2 }, slumber := 500 })] }).hw.link (3 : Fin 64)).tx.sleep = 2) ∧ (((running { links := [(3, { state := 3, tx := { sleep := 2 }, slumber := 500 })] }).hw.link (3 : Fin 64)).slumber ≠ 0)) ∧
    ((((running { links := [(3, { state := 3, tx := { sleep := 3, naks := 1 } })] }).hw.link (3 : Fin 64)).state = 3) ∧ (2 ≤ ((running { links := [(3, { state := 3, tx := { sleep := 3, naks := 1 } })] }).hw.link (3 : Fin 64)).tx.sleep) ∧ (hasToSend (running { links := [(3, { state := 3, tx := { sleep := 3, naks := 1 } })] }).hw (3 : Fin 64) = true)) ∧
    ((((running { links := [(3, { state := 3, tx := { sleep := 1 }, rx := { sleep := 2 } })] }).hw.link (3 : Fin 64)).state = 3) ∧ (2 ≤ ((running { links := [(3, { state := 3, tx := { sleep := 1 }, rx := { sleep := 2 } })] }).hw.link (3 : Fin 64)).rx.sleep) ∧ (((running { links := [(3, { state := 3, tx := { sleep := 1 }, rx := { sleep := 2 } })] }).hw.link (3 : Fin 64)).tx.sleep < 2)) ∧
    ((((running { links := [(3, { state := 3 })] }).hw.link (3 : Fin 64)).state = 3)) := by
  refine ⟨?_, ?_, ?_, ?_, ?_, ?_, ?_, ?_, ?_⟩ <;> decide +kernel

theorem witness_LinkTrainingComplete :
    ((tsTake (tsBlock 1) = some ({ type := 1 } : TsBlock)) ∧ (((running { links := [(3, { state := 1, tr := { tsRun := 7 } })] }).hw.link (3 : Fin 64)).state = 1) ∧ (7 ≤ ((running { links := [(3, { state := 1, tr := { tsRun := 7 } })] }).hw.link (3 : Fin 64)).tr.tsRun)) ∧
    ((tsTake (tsBlock 1) = some ({ type := 1 } : TsBlock)) ∧ (((running { links := [(3, { state := 1, tr := { tsRun := 6 } })] }).hw.link (3 : Fin 64)).state = 1) ∧ (((running { links := [(3, { state := 1, tr := { tsRun := 6 } })] }).hw.link (3 : Fin 64)).tr.tsRun < 7)) ∧
    ((tsTake (tsBlock 2) = some ({ type := 2 } : TsBlock)) ∧ (((running { links := [(3, { state := 2, tr := { ready := 7 } })] }).hw.link (3 : Fin 64)).state = 2) ∧ (({ type := 2 } : TsBlock).type = 2) ∧ (7 ≤ ((running { links := [(3, { state := 2, tr := { ready := 7 } })] }).hw.link (3 : Fin 64)).tr.ready)) ∧
    ((tsTake (tsBlock 3) = some ({ type := 3 } : TsBlock)) ∧ (((running { links := [(3, { state := 4 })] }).hw.link (3 : Fin 64)).state = 4) ∧ (({ type := 3 } : TsBlock).type = 3)) ∧
    ((((running { links := [(3, { state := 4, tr := { rates := 7, passing := 240 } })] }).hw.link (3 : Fin 64)).state = 4) ∧ (((List.range 3).find? fun x => decide (((running { links := [(3, { state := 4, tr := { rates := 7, passing := 240 } })] }).hw.link (3 : Fin 64)).rateMax ≤ x) && tbit ((running { links := [(3, { state := 4, tr := { rates := 7, passing := 240 } })] }).hw.link (3 : Fin 64)).tr.rates x && laneSubset (wantedLanes ((running { links := [(3, { state := 4, tr := { rates := 7, passing := 240 } })] }).hw.link (3 : Fin 64))) (passesBoth ((running { links := [(3, { state := 4, tr := { rates := 7, passing := 240 } })] }).hw.link (3 : Fin 64)) ((List.range 4).map fun i => { rate := 1, lane := i, windows := List.replicate 16 40, final := 32 }) x)) = some 1)) ∧
    ((((running { links := [(3, { state := 4, tr := { rates := 7 } })] }).hw.link (3 : Fin 64)).state = 4) ∧ (((List.range 3).find? fun x => decide (((running { links := [(3, { state := 4, tr := { rates := 7 } })] }).hw.link (3 : Fin 64)).rateMax ≤ x) && tbit ((running { links := [(3, { state := 4, tr := { rates := 7 } })] }).hw.link (3 : Fin 64)).tr.rates x && laneSubset (wantedLanes ((running { links := [(3, { state := 4, tr := { rates := 7 } })] }).hw.link (3 : Fin 64))) (passesBoth ((running { links := [(3, { state := 4, tr := { rates := 7 } })] }).hw.link (3 : Fin 64)) ([]) x)) = none)) ∧
    ((((running { links := [(3, { state := 5, rate := 1, lanes := 15, tr := { passing := 112 } })] }).hw.link (3 : Fin 64)).state = 5) ∧ (widestSet (Nat.land ((running { links := [(3, { state := 5, rate := 1, lanes := 15, tr := { passing := 112 } })] }).hw.link (3 : Fin 64)).lanes (passesBoth ((running { links := [(3, { state := 5, rate := 1, lanes := 15, tr := { passing := 112 } })] }).hw.link (3 : Fin 64)) ((List.range 4).map fun i => { rate := 1, lane := i, windows := List.replicate 16 40, final := 32 }) ((running { links := [(3, { state := 5, rate := 1, lanes := 15, tr := { passing := 112 } })] }).hw.link (3 : Fin 64)).rate)) 4 = some 3)) ∧
    ((((running { links := [(3, { state := 5, rate := 1, lanes := 15 })] }).hw.link (3 : Fin 64)).state = 5) ∧ (widestSet (Nat.land ((running { links := [(3, { state := 5, rate := 1, lanes := 15 })] }).hw.link (3 : Fin 64)).lanes (passesBoth ((running { links := [(3, { state := 5, rate := 1, lanes := 15 })] }).hw.link (3 : Fin 64)) ((List.range 4).map fun i => { rate := 1, lane := i, windows := List.replicate 16 40, final := 32 }) ((running { links := [(3, { state := 5, rate := 1, lanes := 15 })] }).hw.link (3 : Fin 64)).rate)) 4 = none)) ∧
    ((((running { links := [(3, { state := 2 })] }).hw.link (3 : Fin 64)).state = 2)) ∧
    ((((running { links := [(3, { state := 6 })] }).hw.link (3 : Fin 64)).state = 6) ∧ (((running { links := [(3, { state := 6 })] }).hw.link (3 : Fin 64)).held = false) ∧ ((running { links := [(3, { state := 6 })] }).hw.clk.loss = false)) ∧
    ((((running { links := [(3, { state := 3, rate := 3, tr := { rateDue := true } })] }).hw.link (3 : Fin 64)).state = 3) ∧ (((running { links := [(3, { state := 3, rate := 3, tr := { rateDue := true } })] }).hw.link (3 : Fin 64)).rate = 3) ∧ (((running { links := [(3, { state := 3, rate := 3, tr := { rateDue := true } })] }).hw.link (3 : Fin 64)).tr.rateDue = true) ∧ (tbit (running { links := [(3, { state := 3, rate := 3, tr := { rateDue := true } })] }).hw.sys.holdDawn (3 : Fin 64) = false)) := by
  refine ⟨?_, ?_, ?_, ?_, ?_, ?_, ?_, ?_, ?_, ?_, ?_⟩ <;> decide +kernel

theorem witness_LinkTimersComplete :
    ((((running { links := [(3, { state := 3, rx := { sleep := 1 }, tx := { buffer := [{}] } })] }).hw.link (3 : Fin 64)).state = 3) ∧ (((running { links := [(3, { state := 3, rx := { sleep := 1 }, tx := { buffer := [{}] } })] }).hw.link (3 : Fin 64)).rx.sleep = 1) ∧ (((running { links := [(3, { state := 3, rx := { sleep := 1 }, tx := { buffer := [{}] } })] }).hw.link (3 : Fin 64)).tx.buffer ≠ [])) ∧
    ((((running { links := [(3, { state := 3, tx := { ctrl := some (1, 2, 3) } })] }).hw.link (3 : Fin 64)).state = 3) ∧ (((running { links := [(3, { state := 3, tx := { ctrl := some (1, 2, 3) } })] }).hw.link (3 : Fin 64)).tx.ctrl = some (1, 2, 3))) ∧
    ((((running { links := [(3, { state := 3, tx := { ctrl := some (1, 2, 3) } })] }).hw.link (3 : Fin 64)).state = 3) ∧ (((running { links := [(3, { state := 3, tx := { ctrl := some (1, 2, 3) } })] }).hw.link (3 : Fin 64)).tx.ctrl = some (1, 2, 3))) ∧
    ((((running { links := [(3, { state := 3, tx := { ctrl := some (4, 2, 3) } })] }).hw.link (3 : Fin 64)).tx.ctrl = some (4, 2, 3))) ∧
    ((((running { links := [(3, { state := 3, rate := 1, lanes := 3, tr := { phase := 2, lanes := 15, mine := false } })] }).hw.link (3 : Fin 64)).state = 3) ∧ (((running { links := [(3, { state := 3, rate := 1, lanes := 3, tr := { phase := 2, lanes := 15, mine := false } })] }).hw.link (3 : Fin 64)).tr.mine = false) ∧ (((running { links := [(3, { state := 3, rate := 1, lanes := 3, tr := { phase := 2, lanes := 15, mine := false } })] }).hw.link (3 : Fin 64)).tr.phase = 2) ∧ (laneSubset (((running { links := [(3, { state := 3, rate := 1, lanes := 3, tr := { phase := 2, lanes := 15, mine := false } })] }).hw.link (3 : Fin 64)).tr.lanes - Nat.land ((running { links := [(3, { state := 3, rate := 1, lanes := 3, tr := { phase := 2, lanes := 15, mine := false } })] }).hw.link (3 : Fin 64)).tr.lanes ((running { links := [(3, { state := 3, rate := 1, lanes := 3, tr := { phase := 2, lanes := 15, mine := false } })] }).hw.link (3 : Fin 64)).lanes) (passingLanes ((List.range 4).map fun i => { rate := 1, lane := i, windows := List.replicate 16 40, final := 32 }) ((running { links := [(3, { state := 3, rate := 1, lanes := 3, tr := { phase := 2, lanes := 15, mine := false } })] }).hw.link (3 : Fin 64)).rate) = true)) ∧
    ((((running { links := [(3, { state := 3, rate := 1, lanes := 3, tr := { phase := 4, lanes := 15, mine := true } })] }).hw.link (3 : Fin 64)).state = 3) ∧ (((running { links := [(3, { state := 3, rate := 1, lanes := 3, tr := { phase := 4, lanes := 15, mine := true } })] }).hw.link (3 : Fin 64)).tr.mine = true) ∧ (((running { links := [(3, { state := 3, rate := 1, lanes := 3, tr := { phase := 4, lanes := 15, mine := true } })] }).hw.link (3 : Fin 64)).tr.phase = 4) ∧ (laneSubset (((running { links := [(3, { state := 3, rate := 1, lanes := 3, tr := { phase := 4, lanes := 15, mine := true } })] }).hw.link (3 : Fin 64)).tr.lanes - Nat.land ((running { links := [(3, { state := 3, rate := 1, lanes := 3, tr := { phase := 4, lanes := 15, mine := true } })] }).hw.link (3 : Fin 64)).tr.lanes ((running { links := [(3, { state := 3, rate := 1, lanes := 3, tr := { phase := 4, lanes := 15, mine := true } })] }).hw.link (3 : Fin 64)).lanes) (passingLanes ((List.range 4).map fun i => { rate := 1, lane := i, windows := List.replicate 16 40, final := 32 }) ((running { links := [(3, { state := 3, rate := 1, lanes := 3, tr := { phase := 4, lanes := 15, mine := true } })] }).hw.link (3 : Fin 64)).rate) = true)) ∧
    ((((running { links := [(3, { state := 3, tr := { phase := 2 } })] }).hw.link (3 : Fin 64)).state = 3) ∧ (((running { links := [(3, { state := 3, tr := { phase := 2 } })] }).hw.link (3 : Fin 64)).tr.mine = false) ∧ (((running { links := [(3, { state := 3, tr := { phase := 2 } })] }).hw.link (3 : Fin 64)).tr.phase = 2)) := by
  refine ⟨?_, ?_, ?_, ?_, ?_, ?_, ?_⟩ <;> decide +kernel

theorem witness_LinkCommandsComplete :
    ((Asks (asked 0xA01 [3, 1]) 0 0xA01 [.f 64, .f 1] false [3, 1]) ∧ ((bitsOf 64 3).any (fun k => bistHolds (asked 0xA01 [3, 1]).hw (5 * 64 + k)) = false) ∧ ((asked 0xA01 [3, 1]).hw.pwr.state = 0)) ∧
    ((Asks (asked 0xA01 [3, 0]) 0 0xA01 [.f 64, .f 1] false [3, 0])) ∧
    ((Asks (asked 0xA02 [5 + 256 * 2]) 0 0xA02 [.f 6, .f 3] false [5, 2]) ∧ ((2 = 1 ∨ 2 = 2 ∨ 2 = 4)) ∧ (((asked 0xA02 [5 + 256 * 2]).hw.link 5).state = 0)) ∧
    ((Asks (asked 0xA03 [3, 4 + 2 ^ 32 * 600, 1]) 0 0xA03 [.f 64, .f 4, .f 32, .f 1] false [3, 4, 600, 1]) ∧ (4 ≠ 0) ∧ ((500 ≤ 600 ∧ 600 ≤ 100000))) ∧
    ((Asks (asked 0xA04 [5] { links := [(5, { state := 3 })] }) 0 0xA04 [.f 6, .f 2] false [5, 0]) ∧ (((asked 0xA04 [5] { links := [(5, { state := 3 })] }).hw.link 5).state = 3) ∧ (((asked 0xA04 [5] { links := [(5, { state := 3 })] }).hw.link 5).tr.phase = 0) ∧ (((asked 0xA04 [5] { links := [(5, { state := 3 })] }).hw.link 5).tx.ctrl = none)) ∧
    ((Asks (asked 0xA05 [5 + 256 * 3] { links := [(5, { state := 3, rate := 0, lanes := 15 })] }) 0 0xA05 [.f 6, .f 4] false [5, 3]) ∧ (permittedSets.contains 3 = true) ∧ (laneCount 3 ≤ ((asked 0xA05 [5 + 256 * 3] { links := [(5, { state := 3, rate := 0, lanes := 15 })] }).hw.link 5).widthMax) ∧ (((asked 0xA05 [5 + 256 * 3] { links := [(5, { state := 3, rate := 0, lanes := 15 })] }).hw.link 5).state = 3) ∧ (((asked 0xA05 [5 + 256 * 3] { links := [(5, { state := 3, rate := 0, lanes := 15 })] }).hw.link 5).rate ≠ 3) ∧ (((asked 0xA05 [5 + 256 * 3] { links := [(5, { state := 3, rate := 0, lanes := 15 })] }).hw.link 5).tr.phase = 0) ∧ (3 ≠ ((asked 0xA05 [5 + 256 * 3] { links := [(5, { state := 3, rate := 0, lanes := 15 })] }).hw.link 5).lanes) ∧ (((asked 0xA05 [5 + 256 * 3] { links := [(5, { state := 3, rate := 0, lanes := 15 })] }).hw.link 5).tx.ctrl = none)) ∧
    ((Asks (asked 0xA06 [5 + 256]) 0 0xA06 [.f 8, .f 1] false [5, 1]) ∧ (5 ≤ 63)) := by
  refine ⟨?_, ?_, ?_, ?_, ?_, ?_, ?_⟩ <;> decide +kernel

theorem witness_LaneEventsComplete :
    ((((running { links := [(5, { state := 3, lanes := 15, rx := { sleep := 1 } })], lanes := [(20, { low := 3 })] }).hw.link ((20 : Fin 256) / 4)).state = 3) ∧ (tbit ((running { links := [(5, { state := 3, lanes := 15, rx := { sleep := 1 } })], lanes := [(20, { low := 3 })] }).hw.link ((20 : Fin 256) / 4)).lanes ((20 : Fin 256) % 4) = true) ∧ (((running { links := [(5, { state := 3, lanes := 15, rx := { sleep := 1 } })], lanes := [(20, { low := 3 })] }).hw.link ((20 : Fin 256) / 4)).rx.sleep = 1) ∧ (1000 ≠ 0) ∧ (((running { links := [(5, { state := 3, lanes := 15, rx := { sleep := 1 } })], lanes := [(20, { low := 3 })] }).hw.lane (20 : Fin 256)).degraded = false) ∧ (efmOf ([(1, 0), (1, 0), (1, 0)]) 1000 < efmLow ((running { links := [(5, { state := 3, lanes := 15, rx := { sleep := 1 } })], lanes := [(20, { low := 3 })] }).hw.link ((20 : Fin 256) / 4))) ∧ (3 ≤ ((running { links := [(5, { state := 3, lanes := 15, rx := { sleep := 1 } })], lanes := [(20, { low := 3 })] }).hw.lane (20 : Fin 256)).low)) ∧
    ((16 ≤ (20 : Fin 64).val) ∧ ((senseLight (running { links := [(20, { gate := 1, autoShut := true })] }).hw (20 : Fin 64) ([-1600, -1600, -1600, -1600])).link (20 : Fin 64) = (running { links := [(20, { gate := 1, autoShut := true })] }).hw.link (20 : Fin 64)) ∧ (((running { links := [(20, { gate := 1, autoShut := true })] }).hw.link (20 : Fin 64)).gate = 1) ∧ (((running { links := [(20, { gate := 1, autoShut := true })] }).hw.link (20 : Fin 64)).autoShut = true) ∧ (allDark (senseLight (running { links := [(20, { gate := 1, autoShut := true })] }).hw (20 : Fin 64) ([-1600, -1600, -1600, -1600])) (20 : Fin 64) = true)) ∧
    ((16 ≤ (20 : Fin 64).val) ∧ ((senseLight (running { links := [(20, { gate := 2 })] }).hw (20 : Fin 64) ([-900, -900, -900, -900])).link (20 : Fin 64) = (running { links := [(20, { gate := 2 })] }).hw.link (20 : Fin 64)) ∧ (((running { links := [(20, { gate := 2 })] }).hw.link (20 : Fin 64)).gate = 2) ∧ (allLight (senseLight (running { links := [(20, { gate := 2 })] }).hw (20 : Fin 64) ([-900, -900, -900, -900])) (20 : Fin 64) = true)) ∧
    ((16 ≤ (20 : Fin 64).val) ∧ (((running { links := [(20, { gate := 2 })] }).hw.link (20 : Fin 64)).gate = 2)) ∧
    ((16 ≤ (20 : Fin 64).val) ∧ (((running { links := [(20, { gate := 3 })] }).hw.link (20 : Fin 64)).gate = 3)) ∧
    ((85 < 86)) ∧
    ((16 ≤ (20 : Fin 64).val) ∧ (1500 < 1600) ∧ (((running { links := [(20, {})] }).hw.link (20 : Fin 64)).laserLow = false)) ∧
    ((16 ≤ (20 : Fin 64).val) ∧ (1700 ≤ 1700)) := by
  refine ⟨?_, ?_, ?_, ?_, ?_, ?_, ?_, ?_⟩ <;> decide +kernel

theorem witness_LaneCommandsComplete :
    ((Asks (asked 0x901 [5 + 256 + 65536 * 2]) 0 0x901 [.f 6, .f 2, .f 2] false [5, 1, 2]) ∧ (((asked 0x901 [5 + 256 + 65536 * 2]).hw.link 5).state = 0) ∧ (1 ≠ 3) ∧ (2 ≠ 3)) ∧
    ((Asks (asked 0x902 [32, 100 + 2 ^ 32 * 10, 30]) 0 0x902 [.f 64, .f 16, .f 32, .f 8] false [32, 100, 10, 30]) ∧ (32 ≠ 0) ∧ ((100 = 0 ∨ 100 ≤ 100 ∧ 100 ≤ 65000)) ∧ ((10 = 0 ∨ 10 ≤ 10 ∧ 10 ≤ 1000000))) ∧
    ((Asks (asked 0x903 [20]) 0 0x903 [.f 8, .f 1] false [20, 0]) ∧ (20 ≤ 63)) ∧
    ((Asks (asked 0x904 [3 + 256]) 0 0x904 [.f 4, .f 1] false [3, 1]) ∧ (3 ≤ 11) ∧ (((asked 0x904 [3 + 256]).hw.engine 3).on = false)) ∧
    ((((running { engines := [(1, { on := true, heating := some 2 })], mbx := [(2, { state := 1, work := some { opcode := 0x904, args := [1] } })] }).hw.engine (1 : Fin 12)).on = true) ∧ (((running { engines := [(1, { on := true, heating := some 2 })], mbx := [(2, { state := 1, work := some { opcode := 0x904, args := [1] } })] }).hw.engine (1 : Fin 12)).heating = some 2) ∧ ((workOf (running { engines := [(1, { on := true, heating := some 2 })], mbx := [(2, { state := 1, work := some { opcode := 0x904, args := [1] } })] }).hw 2 0x904).map (·.args) = some [(1 : Fin 12).val])) ∧
    ((Asks (asked 0x905 [1, 1 + 256] { engines := [(0, { on := true })] }) 0 0x905 [.f 48, .f 1, .f 1] false [1, 1, 1]) ∧ (1 ≠ 0) ∧ ((bitsOf 48 1).any (fun i => !((asked 0x905 [1, 1 + 256] { engines := [(0, { on := true })] }).hw.engine (i / 4)).on) = false) ∧ ((bitsOf 48 1).any (fun i => ((asked 0x905 [1, 1 + 256] { engines := [(0, { on := true })] }).hw.link (16 + i)).gate == 4 && 80 < ((asked 0x905 [1, 1 + 256] { engines := [(0, { on := true })] }).hw.engine (i / 4)).temp) = false)) ∧
    ((Asks (asked 0x905 [1, 0] { engines := [(0, { on := true })] }) 0 0x905 [.f 48, .f 1, .f 1] false [1, 0, 0]) ∧ (1 ≠ 0) ∧ ((bitsOf 48 1).any (fun i => !((asked 0x905 [1, 0] { engines := [(0, { on := true })] }).hw.engine (i / 4)).on) = false)) ∧
    ((Asks (asked 0x906 [3]) 0 0x906 [.f 8] false [3]) ∧ (3 ≤ 11)) := by
  refine ⟨?_, ?_, ?_, ?_, ?_, ?_, ?_, ?_⟩ <;> decide +kernel

theorem witness_RouterEventsComplete :
    (((running { sys := { routerOn := true, moduleId := 2 } }).hw.sys.routerOn = true) ∧ (64 ≤ (70 : Fin 98).val) ∧ (police (running { sys := { routerOn := true, moduleId := 2 } }).hw (70 : Fin 98) (mkPacket 0x40 4 0 2 1 5 (leBytes 16 0)) = (false, (running { sys := { routerOn := true, moduleId := 2 } }).hw)) ∧ (malformed (mkPacket 0x40 4 0 2 1 5 (leBytes 16 0)) = false) ∧ (heldService (running { sys := { routerOn := true, moduleId := 2 } }).hw (mkPacket 0x40 4 0 2 1 5 (leBytes 16 0)).dst = false) ∧ (isOwn (running { sys := { routerOn := true, moduleId := 2 } }).hw (mkPacket 0x40 4 0 2 1 5 (leBytes 16 0)).dst = true)) ∧
    (((running { sys := { routerOn := true, moduleId := 3 } }).hw.sys.routerOn = true) ∧ (64 ≤ (70 : Fin 98).val) ∧ (police (running { sys := { routerOn := true, moduleId := 3 } }).hw (70 : Fin 98) ({ (mkPacket 0x40 4 0 2 1 5 (leBytes 16 0)) with ttl := 9 }) = (false, (running { sys := { routerOn := true, moduleId := 3 } }).hw)) ∧ (malformed ({ (mkPacket 0x40 4 0 2 1 5 (leBytes 16 0)) with ttl := 9 }) = false) ∧ (heldService (running { sys := { routerOn := true, moduleId := 3 } }).hw ({ (mkPacket 0x40 4 0 2 1 5 (leBytes 16 0)) with ttl := 9 }).dst = false) ∧ (isOwn (running { sys := { routerOn := true, moduleId := 3 } }).hw ({ (mkPacket 0x40 4 0 2 1 5 (leBytes 16 0)) with ttl := 9 }).dst = false) ∧ (({ (mkPacket 0x40 4 0 2 1 5 (leBytes 16 0)) with ttl := 9 }).vc ≠ 7) ∧ (({ (mkPacket 0x40 4 0 2 1 5 (leBytes 16 0)) with ttl := 9 }).ttl ≠ 0)) ∧
    ((nextStart (forBelow 7 (fun v h => tagHead h (70 : Fin 98) v) (running { router := { egress := [(Queued.mk 70 (mkPacket 0x40 4 0 2 1 5 (leBytes 16 0)) false none)] } }).hw) (70 : Fin 98) = some (Queued.mk 70 (mkPacket 0x40 4 0 2 1 5 (leBytes 16 0)) false (some 256))) ∧ (64 ≤ (70 : Fin 98).val) ∧ (isStray (Queued.mk 70 (mkPacket 0x40 4 0 2 1 5 (leBytes 16 0)) false (some 256)).packet.opcode = false)) ∧
    ((nextStart (forBelow 7 (fun v h => tagHead h (5 : Fin 98) v) (running { router := { egress := [(Queued.mk 5 (mkPacket 0x40 4 0 2 1 5 (leBytes 16 0)) false none)] }, links := [(5, { state := 3, tx := { sleep := 1, credits := [(4, 9)] } })] }).hw) (5 : Fin 98) = some (Queued.mk 5 (mkPacket 0x40 4 0 2 1 5 (leBytes 16 0)) false (some 256))) ∧ ((5 : Fin 98).val < 64)) ∧
    ((nextStart (forBelow 7 (fun v h => tagHead h (5 : Fin 98) v) (running { links := [(5, { state := 3, tx := { sleep := 1 } })] }).hw) (5 : Fin 98) = none) ∧ ((5 : Fin 98).val < 64) ∧ (((forBelow 7 (fun v h => tagHead h (5 : Fin 98) v) (running { links := [(5, { state := 3, tx := { sleep := 1 } })] }).hw).link (5 : Fin 98)).state = 3) ∧ (((forBelow 7 (fun v h => tagHead h (5 : Fin 98) v) (running { links := [(5, { state := 3, tx := { sleep := 1 } })] }).hw).link (5 : Fin 98)).tx.sleep = 1)) ∧
    (((running { router := { salvage := [(mkPacket 0x40 4 0 2 1 5 (leBytes 16 0))] } }).hw.router.salvage = (mkPacket 0x40 4 0 2 1 5 (leBytes 16 0)) :: ([]))) ∧
    ((((running { router := { horizons := [(5, { next := some (0, [(1000, 12)]) })] } }).hw.horizon (5 : Fin 64)).next = some (0, ([(1000, 12)]))) ∧ (((running { router := { horizons := [(5, { next := some (0, [(1000, 12)]) })] } }).hw.horizon (5 : Fin 64)).due ≤ (running { router := { horizons := [(5, { next := some (0, [(1000, 12)]) })] } }).hw.time.now)) ∧
    ((((running { router := { horizons := [(5, { running := true, entries := [(1000, 12), (10, 4)] })] } }).hw.horizon (5 : Fin 64)).running = true) ∧ (((running { router := { horizons := [(5, { running := true, entries := [(1000, 12), (10, 4)] })] } }).hw.horizon (5 : Fin 64)).entry + 1 < ((running { router := { horizons := [(5, { running := true, entries := [(1000, 12), (10, 4)] })] } }).hw.horizon (5 : Fin 64)).entries.length)) := by
  refine ⟨?_, ?_, ?_, ?_, ?_, ?_, ?_, ?_⟩ <;> decide +kernel

theorem witness_RouterCommandsComplete :
    ((Asks (asked 0xB01 [9 + 2 ^ 32 * 10, 100, 3]) 0 0xB01 [.f 8, .f 32, .f 32, .f 64] false [9, 10, 100, 3]) ∧ (9 ≠ 0) ∧ ((10 ≤ 10 ∧ 10 ≤ 100000)) ∧ ((100 ≤ 100 ∧ 100 ≤ 1000000)) ∧ ((bitsOf 64 (nxor 3 (asked 0xB01 [9 + 2 ^ 32 * 10, 100, 3]).hw.router.roles)).any (fun k => ((asked 0xB01 [9 + 2 ^ 32 * 10, 100, 3]).hw.link k).state != 0) = false)) ∧
    ((Asks (asked 0xB02 [5 + 65536, 0x40]) 0 0xB02 [.f 12, .f 8, .arr 1 8] false [5, 1, 0x40]) ∧ ((List.range 1).map (fun i => fld 0x40 (64 * i) 64) = ([0x40])) ∧ ((0 < 1 ∧ 1 ≤ 128)) ∧ (5 + 1 ≤ 4096) ∧ (([0x40]).all entryLegal = true) ∧ ((asked 0xB02 [5 + 65536, 0x40]).hw.router.holding = false) ∧ ((asked 0xB02 [5 + 65536, 0x40]).hw.router.epoch = 0)) ∧
    ((Asks (asked 0xB03 []) 0 0xB03 [] false [])) ∧
    ((Asks (asked 0xB04 []) 0 0xB04 [] false []) ∧ ((asked 0xB04 []).hw.router.holding = false)) ∧
    ((Asks (asked 0xB05 [5 + 2 ^ 32 * 16384, 20]) 0 0xB05 [.f 4, .f 20, .f 20] false [5, 16384, 20]) ∧ (20 < 16384) ∧ (16384 ≤ 16384)) ∧
    ((Asks (asked 0xB06 [70, 0x01010101010101, 0, 0, 0, 0]) 0 0xB06 [.f 7, .blk 7, .blk 28] false [70, 0x01010101010101, 0]) ∧ (64 ≤ 70) ∧ (70 ≤ 97) ∧ (((List.range 7).map (fun v => fld 0x01010101010101 (8 * v) 8)).any (fun w => w == 0) = false) ∧ (0 = 0)) ∧
    ((Asks (asked 0xB07 [5 + 65536 * 7 + 2 ^ 32 * 9]) 0 0xB07 [.f 6, .f 16, .f 16] false [5, 7, 9])) ∧
    ((Asks (asked 0xB08 [5, 77, 0] { router := { horizons := [(5, { entries := [(1, 2)] })] } }) 0 0xB08 [.f 6, .f 64, .f 9, .arr 2 4] false [5, 77, 0, 0]) ∧ (((asked 0xB08 [5, 77, 0] { router := { horizons := [(5, { entries := [(1, 2)] })] } }).hw.horizon 5).entries ≠ [])) := by
  refine ⟨?_, ?_, ?_, ?_, ?_, ?_, ?_, ?_⟩ <;> decide +kernel

theorem witness_MemoryControllersComplete :
    ((Asks (asked 0x801 [3 + 2 ^ 32 * 250, 100 + 2 ^ 32 * 8]) 0 0x801 [.f 32, .f 16, .f 20, .f 4] false [3, 250, 100, 8]) ∧ (3 ≠ 0) ∧ ((250 ≤ 250 ∧ 250 ≤ 65000)) ∧ ((100 = 0 ∨ 100 ≤ 100 ∧ 100 ≤ 1000000)) ∧ (8 ≤ 8)) ∧
    ((Asks (asked 0x802 [31]) 0 0x802 [.f 8] false [31]) ∧ (31 < 32)) ∧
    ((Asks (asked 0x803 [1, 0x80000, 1] { mems := { slices := [(5, { pcs := [(3, { state := 3 })] })] } }) 0 0x803 [.f 3, .f 64, .f 1] false [1, 0x80000, 1]) ∧ ((bitsOf 64 0x80000).map (fun i => 16 * (4 * 1 + i / 16) + i % 16) = ([83])) ∧ (([83]) ≠ []) ∧ (([83]).all (fun i => (((asked 0x803 [1, 0x80000, 1] { mems := { slices := [(5, { pcs := [(3, { state := 3 })] })] } }).hw.slice (i / 16)).pc (i % 16)).state == 2 || (((asked 0x803 [1, 0x80000, 1] { mems := { slices := [(5, { pcs := [(3, { state := 3 })] })] } }).hw.slice (i / 16)).pc (i % 16)).state == 3) = true) ∧ ((1 = 1 → ([83]).any (fun i => ((asked 0x803 [1, 0x80000, 1] { mems := { slices := [(5, { pcs := [(3, { state := 3 })] })] } }).hw.slice (i / 16)).enabled) = false))) ∧
    (((((running { mems := { slices := [(5, { pcs := [(3, { state := 3, queue := [{ bank := 2, row := 9 }] })] })] } }).hw.slice (5 : Fin 32)).pc (3 : Fin 16)).serves = true) ∧ ((running { mems := { slices := [(5, { pcs := [(3, { state := 3, queue := [{ bank := 2, row := 9 }] })] })] } }).hw.clk.loss = false) ∧ ((((running { mems := { slices := [(5, { pcs := [(3, { state := 3, queue := [{ bank := 2, row := 9 }] })] })] } }).hw.slice (5 : Fin 32)).pc (3 : Fin 16)).due = []) ∧ ((((running { mems := { slices := [(5, { pcs := [(3, { state := 3, queue := [{ bank := 2, row := 9 }] })] })] } }).hw.slice (5 : Fin 32)).pc (3 : Fin 16)).queue = [({ bank := 2, row := 9 } : McsReq)]) ∧ (({ bank := 2, row := 9 } : McsReq).bursts ≤ 1) ∧ (chooseBurst (((running { mems := { slices := [(5, { pcs := [(3, { state := 3, queue := [{ bank := 2, row := 9 }] })] })] } }).hw.slice (5 : Fin 32)).pc (3 : Fin 16)) ((running { mems := { slices := [(5, { pcs := [(3, { state := 3, queue := [{ bank := 2, row := 9 }] })] })] } }).hw.slice (5 : Fin 32)).ageLimit = some (0, 3)) ∧ ((((running { mems := { slices := [(5, { pcs := [(3, { state := 3, queue := [{ bank := 2, row := 9 }] })] })] } }).hw.slice (5 : Fin 32)).pc (3 : Fin 16)).wipes = []) ∧ (((running { mems := { slices := [(5, { pcs := [(3, { state := 3, queue := [{ bank := 2, row := 9 }] })] })] } }).hw.slice (5 : Fin 32)).upstream = []) ∧ (({ bank := 2, row := 9 } : McsReq).wipes = none)) ∧
    (((((running { mems := { slices := [(5, { pcs := [(3, { state := 3, queue := [{ write := true, sclass := 3, wipes := some 7 }] })] })] } }).hw.slice (5 : Fin 32)).pc (3 : Fin 16)).serves = true) ∧ ((running { mems := { slices := [(5, { pcs := [(3, { state := 3, queue := [{ write := true, sclass := 3, wipes := some 7 }] })] })] } }).hw.clk.loss = false) ∧ ((((running { mems := { slices := [(5, { pcs := [(3, { state := 3, queue := [{ write := true, sclass := 3, wipes := some 7 }] })] })] } }).hw.slice (5 : Fin 32)).pc (3 : Fin 16)).due = []) ∧ ((((running { mems := { slices := [(5, { pcs := [(3, { state := 3, queue := [{ write := true, sclass := 3, wipes := some 7 }] })] })] } }).hw.slice (5 : Fin 32)).pc (3 : Fin 16)).queue = [({ write := true, sclass := 3, wipes := some 7 } : McsReq)]) ∧ (({ write := true, sclass := 3, wipes := some 7 } : McsReq).bursts ≤ 1) ∧ (chooseBurst (((running { mems := { slices := [(5, { pcs := [(3, { state := 3, queue := [{ write := true, sclass := 3, wipes := some 7 }] })] })] } }).hw.slice (5 : Fin 32)).pc (3 : Fin 16)) ((running { mems := { slices := [(5, { pcs := [(3, { state := 3, queue := [{ write := true, sclass := 3, wipes := some 7 }] })] })] } }).hw.slice (5 : Fin 32)).ageLimit = some (0, 3)) ∧ ((((running { mems := { slices := [(5, { pcs := [(3, { state := 3, queue := [{ write := true, sclass := 3, wipes := some 7 }] })] })] } }).hw.slice (5 : Fin 32)).pc (3 : Fin 16)).wipes = []) ∧ (((running { mems := { slices := [(5, { pcs := [(3, { state := 3, queue := [{ write := true, sclass := 3, wipes := some 7 }] })] })] } }).hw.slice (5 : Fin 32)).upstream = []) ∧ (({ write := true, sclass := 3, wipes := some 7 } : McsReq).wipes = some 7)) ∧
    (((((running { mems := { slices := [(5, { pcs := [(3, { state := 4, back := 3, queue := [{}] })] })] } }).hw.slice (5 : Fin 32)).pc (3 : Fin 16)).state = 4)) ∧
    (((((running { mems := { slices := [(5, { pcs := [(3, { state := 3, queue := [{ bank := 2, row := 9 }], banks := [(2, { postpone := 8 })] })] })] } }).hw.slice (5 : Fin 32)).pc (3 : Fin 16)).serves = true) ∧ ((((running { mems := { slices := [(5, { pcs := [(3, { state := 3, queue := [{ bank := 2, row := 9 }], banks := [(2, { postpone := 8 })] })] })] } }).hw.slice (5 : Fin 32)).pc (3 : Fin 16)).queue.any (fun r => r.bank == (2 : Fin 64).val) = true) ∧ (((((running { mems := { slices := [(5, { pcs := [(3, { state := 3, queue := [{ bank := 2, row := 9 }], banks := [(2, { postpone := 8 })] })] })] } }).hw.slice (5 : Fin 32)).pc (3 : Fin 16)).bank (2 : Fin 64)).debt + 1 < ((((running { mems := { slices := [(5, { pcs := [(3, { state := 3, queue := [{ bank := 2, row := 9 }], banks := [(2, { postpone := 8 })] })] })] } }).hw.slice (5 : Fin 32)).pc (3 : Fin 16)).bank (2 : Fin 64)).postpone) ∧ ((((running { mems := { slices := [(5, { pcs := [(3, { state := 3, queue := [{ bank := 2, row := 9 }], banks := [(2, { postpone := 8 })] })] })] } }).hw.slice (5 : Fin 32)).pc (3 : Fin 16)).pd = false)) ∧
    ((255 ≤ 255)) ∧
    (((((running { mems := { slices := [(5, { pcs := [(3, { state := 3 })] })] } }).hw.slice (5 : Fin 32)).pc (3 : Fin 16)).serves = true) ∧ ((((running { mems := { slices := [(5, { pcs := [(3, { state := 3 })] })] } }).hw.slice (5 : Fin 32)).pc (3 : Fin 16)).pdIdle ≠ 0) ∧ ((((running { mems := { slices := [(5, { pcs := [(3, { state := 3 })] })] } }).hw.slice (5 : Fin 32)).pc (3 : Fin 16)).queue = []) ∧ ((((running { mems := { slices := [(5, { pcs := [(3, { state := 3 })] })] } }).hw.slice (5 : Fin 32)).pc (3 : Fin 16)).pd = false)) ∧
    ((1280 ∈ ((running { mems := { slices := [(5, { hot := [1280] })] } }).hw.slice (5 : Fin 32)).hot) ∧ (tileOf (16 * 1280) = (5 : Fin 32))) ∧
    (((((running { mems := { slices := [(5, { pcs := [(3, { state := 4, back := 3 })] })] } }).hw.slice (5 : Fin 32)).pc (3 : Fin 16)).state = 4) ∧ (retrainsFully (running { mems := { slices := [(5, { pcs := [(3, { state := 4, back := 3 })] })] } }).hw (5 : Fin 32) (3 : Fin 16) = false) ∧ (sweepAll quickLane (((running { mems := { slices := [(5, { pcs := [(3, { state := 4, back := 3 })] })] } }).hw.slice (5 : Fin 32)).pc (3 : Fin 16)) ([]) = (({ state := 4, back := 3 } : PseudoChannel), true))) := by
  refine ⟨?_, ?_, ?_, ?_, ?_, ?_, ?_, ?_, ?_, ?_, ?_⟩ <;> decide +kernel

theorem witness_MemoryErrorsComplete :
    ((Asks (asked 0x804 [3 + 2 ^ 32 * 7 + 2 ^ 48 * 60000]) 0 0x804 [.f 32, .f 8, .f 16] false [3, 7, 60000]) ∧ (3 ≠ 0) ∧ ((1 ≤ 60000 ∧ 60000 ≤ 60000))) ∧
    ((Asks (asked 0x805 [31]) 0 0x805 [.f 8] false [31]) ∧ (31 < 32)) ∧
    ((Asks (asked 0x806 [5 + 2 ^ 16 * 3 + 2 ^ 24 * 2 + 2 ^ 32 * 9]) 0 0x806 [.f 5, .f 1, .f 4, .f 6, .f 14] false [5, 0, 3, 2, 9]) ∧ (remapAt ((asked 0x806 [5 + 2 ^ 16 * 3 + 2 ^ 24 * 2 + 2 ^ 32 * 9]).hw.slice 5) 3 2 9 = none) ∧ (freeRemap ((asked 0x806 [5 + 2 ^ 16 * 3 + 2 ^ 24 * 2 + 2 ^ 32 * 9]).hw.slice 5) 3 = some (0, 0))) ∧
    ((Asks (asked 0x806 [5 + 2 ^ 8 + 2 ^ 16 * 3 + 2 ^ 24 * 2 + 2 ^ 32 * 9] { mems := { slices := [(5, { remaps := [(4, { pc := 3, bank := 2, row := 9 })] })] } }) 0 0x806 [.f 5, .f 1, .f 4, .f 6, .f 14] false [5, 1, 3, 2, 9]) ∧ (remapAt ((asked 0x806 [5 + 2 ^ 8 + 2 ^ 16 * 3 + 2 ^ 24 * 2 + 2 ^ 32 * 9] { mems := { slices := [(5, { remaps := [(4, { pc := 3, bank := 2, row := 9 })] })] } }).hw.slice 5) 3 2 9 = some 4)) ∧
    ((Asks (asked 0x807 [5 + 2 ^ 8 * 3 + 2 ^ 16 * 2 + 2 ^ 32 * 9] { mems := { slices := [(5, { remaps := [(4, { pc := 3, bank := 2, row := 9 })] })] } }) 0 0x807 [.f 5, .f 4, .f 6, .f 14, .f 1] false [5, 3, 2, 9, 0]) ∧ (remapAt ((asked 0x807 [5 + 2 ^ 8 * 3 + 2 ^ 16 * 2 + 2 ^ 32 * 9] { mems := { slices := [(5, { remaps := [(4, { pc := 3, bank := 2, row := 9 })] })] } }).hw.slice 5) 3 2 9 = some 4)) := by
  refine ⟨?_, ?_, ?_, ?_, ?_⟩ <;> decide +kernel

theorem witness_ClocksComplete :
    ((Asks (asked 0xE01 [256 * 5 + 65536] { clk := { gateTile := 0 } }) 0 0xE01 [.f 2, .f 6, .f 1] false [0, 5, 1]) ∧ (5 < 32) ∧ ((asked 0xE01 [256 * 5 + 65536] { clk := { gateTile := 0 } }).hw.pwr.state = 0) ∧ (groupActive (asked 0xE01 [256 * 5 + 65536] { clk := { gateTile := 0 } }).hw = false) ∧ (tbit (asked 0xE01 [256 * 5 + 65536] { clk := { gateTile := 0 } }).hw.clk.gateTile 5 = false)) ∧
    ((Asks (asked 0xE01 [1 + 256 * 5] { clk := { gateLink := 32 } }) 0 0xE01 [.f 2, .f 6, .f 1] false [1, 5, 0]) ∧ (isolated (asked 0xE01 [1 + 256 * 5] { clk := { gateLink := 32 } }).hw (5 * 64 + 5) = false) ∧ (tbit (asked 0xE01 [1 + 256 * 5] { clk := { gateLink := 32 } }).hw.clk.gateLink 5 = true)) ∧
    ((Asks (asked 0xE02 [3 + 256 + 65536 * 2] { clk := { refOk := true } }) 0 0xE02 [.f 3, .f 2, .f 8] false [3, 1, 2]) ∧ ((1 ≤ 3 ∧ 3 ≤ 4)) ∧ (1 < 3) ∧ (2 ≠ 0) ∧ (sourceKhz (asked 0xE02 [3 + 256 + 65536 * 2] { clk := { refOk := true } }).hw 1 ≤ 6000000 / fullDivider 3 * 2) ∧ ((3 = 4 → sourceKhz (asked 0xE02 [3 + 256 + 65536 * 2] { clk := { refOk := true } }).hw 1 = 100000 * 2)) ∧ (domainInUse (asked 0xE02 [3 + 256 + 65536 * 2] { clk := { refOk := true } }).hw 3 = false) ∧ (((asked 0xE02 [3 + 256 + 65536 * 2] { clk := { refOk := true } }).hw.clk.loss = false ∧ (asked 0xE02 [3 + 256 + 65536 * 2] { clk := { refOk := true } }).hw.clk.returning = false)) ∧ (sourceReady (asked 0xE02 [3 + 256 + 65536 * 2] { clk := { refOk := true } }).hw 1 = true) ∧ (((switchDomain (asked 0xE02 [3 + 256 + 65536 * 2] { clk := { refOk := true } }).hw 3 1 2).domain 3).ramping = false)) ∧
    ((Asks (asked 0xE03 []) 0 0xE03 [] false [])) ∧
    (((running).hw.clk.obsEnable = false)) ∧
    (((running { clk := { obsEnable := true } }).hw.clk.obsEnable = true)) ∧
    (((80 ≤ 80 ∧ 80 ≤ 120)) ∧ ((running { clk := { refOk := true } }).hw.clk.refOk = true)) ∧
    (((121 < 80 ∨ 120 < 121)) ∧ ((running { clk := { refOk := true, pllState := 2 }, always := { badRun := 1 } }).hw.clk.refOk = true) ∧ (1 ≤ (running { clk := { refOk := true, pllState := 2 }, always := { badRun := 1 } }).hw.always.badRun) ∧ ((running { clk := { refOk := true, pllState := 2 }, always := { badRun := 1 } }).hw.clk.pllState = 2)) ∧
    (((running { clk := { pllState := 1, returning := true, refOk := true } }).hw.clk.pllState = 1) ∧ ((running { clk := { pllState := 1, returning := true, refOk := true } }).hw.clk.returning = true) ∧ ((running { clk := { pllState := 1, returning := true, refOk := true } }).hw.clk.refOk = true)) ∧
    (((running { clk := { pllState := 1, refOk := true } }).hw.clk.pllState = 1) ∧ ((running { clk := { pllState := 1, refOk := true } }).hw.clk.refOk = true)) ∧
    (((running { clk := { pllState := 2, refOk := true } }).hw.clk.pllState = 2) ∧ ((running { clk := { pllState := 2, refOk := true } }).hw.clk.refOk = true)) ∧
    ((((running { clk := { pllState := 2, domains := [(2, { source := 0, ramping := true, divider := 5, target := 3 })] } }).hw.domain (2 : Fin 5)).ramping = true) ∧ (((running { clk := { pllState := 2, domains := [(2, { source := 0, ramping := true, divider := 5, target := 3 })] } }).hw.domain (2 : Fin 5)).target + 1 < ((running { clk := { pllState := 2, domains := [(2, { source := 0, ramping := true, divider := 5, target := 3 })] } }).hw.domain (2 : Fin 5)).divider) ∧ ((((running { clk := { pllState := 2, domains := [(2, { source := 0, ramping := true, divider := 5, target := 3 })] } }).hw.domain (2 : Fin 5)).source == 0 && (running { clk := { pllState := 2, domains := [(2, { source := 0, ramping := true, divider := 5, target := 3 })] } }).hw.clk.pllState != 2) = false)) ∧
    ((((running { clk := { pllState := 3, domains := [(2, { source := 0, ramping := true, divider := 5, target := 3 })] } }).hw.domain (2 : Fin 5)).source = 0) ∧ ((running { clk := { pllState := 3, domains := [(2, { source := 0, ramping := true, divider := 5, target := 3 })] } }).hw.clk.pllState ≠ 2)) ∧
    ((((running { clk := { pllState := 2, domains := [(2, { source := 0, ramping := true, divider := 4, target := 3 })] } }).hw.domain (2 : Fin 5)).ramping = true) ∧ (((running { clk := { pllState := 2, domains := [(2, { source := 0, ramping := true, divider := 4, target := 3 })] } }).hw.domain (2 : Fin 5)).divider ≤ ((running { clk := { pllState := 2, domains := [(2, { source := 0, ramping := true, divider := 4, target := 3 })] } }).hw.domain (2 : Fin 5)).target + 1) ∧ ((((running { clk := { pllState := 2, domains := [(2, { source := 0, ramping := true, divider := 4, target := 3 })] } }).hw.domain (2 : Fin 5)).source == 0 && (running { clk := { pllState := 2, domains := [(2, { source := 0, ramping := true, divider := 4, target := 3 })] } }).hw.clk.pllState != 2) = false)) ∧
    (((running { clk := { gateRequests := [{ unit := 1, index := 5, mailbox := 2 }] } }).hw.clk.gateRequests.find? (fun x => x.unit == (1 : Fin 3).val && x.index == 5) = some ({ unit := 1, index := 5, mailbox := 2 } : GateRequest)) ∧ (quiescent ((running { clk := { gateRequests := [{ unit := 1, index := 5, mailbox := 2 }] } }).hw.onClk fun c => { c with gateRequests := c.gateRequests.filter (fun x => x != ({ unit := 1, index := 5, mailbox := 2 } : GateRequest)) }) (1 : Fin 3) 5 = true) ∧ (workOf (running { clk := { gateRequests := [{ unit := 1, index := 5, mailbox := 2 }] } }).hw ({ unit := 1, index := 5, mailbox := 2 } : GateRequest).mailbox 0xE01 = none)) ∧
    (((running { clk := { gateRequests := [{ unit := 1, index := 5, mailbox := 2 }] }, mbx := [(2, { state := 1, work := some { opcode := 0xE01 } })] }).hw.clk.gateRequests.find? (fun x => x.unit == (1 : Fin 3).val && x.index == 5) = some ({ unit := 1, index := 5, mailbox := 2 } : GateRequest)) ∧ (quiescent ((running { clk := { gateRequests := [{ unit := 1, index := 5, mailbox := 2 }] }, mbx := [(2, { state := 1, work := some { opcode := 0xE01 } })] }).hw.onClk fun c => { c with gateRequests := c.gateRequests.filter (fun x => x != ({ unit := 1, index := 5, mailbox := 2 } : GateRequest)) }) (1 : Fin 3) 5 = true) ∧ (workOf (running { clk := { gateRequests := [{ unit := 1, index := 5, mailbox := 2 }] }, mbx := [(2, { state := 1, work := some { opcode := 0xE01 } })] }).hw ({ unit := 1, index := 5, mailbox := 2 } : GateRequest).mailbox 0xE01 = some ({ opcode := 0xE01 } : Work))) ∧
    (((running { sys := { fusesSensed := true } }).hw.sys.fusesSensed = true) ∧ (((2 : Fin 5).val = 0 → (running { sys := { fusesSensed := true } }).hw.pcie.perstLow = false))) := by
  refine ⟨?_, ?_, ?_, ?_, ?_, ?_, ?_, ?_, ?_, ?_, ?_, ?_, ?_, ?_, ?_, ?_, ?_⟩ <;> decide +kernel

theorem witness_ResetsComplete :
    (((running { sys := { resetLow := true } }).hw.sys.resetLow = true) ∧ (extInstruction (running { sys := { resetLow := true } }).hw.tap.instruction = false)) ∧
    (((running { sys := { resetLow := true }, tap := { instruction := 3 } }).hw.sys.resetLow = true) ∧ (extInstruction (running { sys := { resetLow := true }, tap := { instruction := 3 } }).hw.tap.instruction = true)) ∧
    (((running { sys := { resetLow := false } }).hw.sys.resetLow = false)) ∧
    (((running {}).hw.fw.restart = false) ∧ ((running {}).hw.fw.reload = false)) ∧
    ((((running { fw := { reload := true } }).hw.fw.restart = true ∨ (running { fw := { reload := true } }).hw.fw.reload = true))) := by
  refine ⟨?_, ?_, ?_, ?_, ?_⟩ <;> decide +kernel

theorem witness_FeedsComplete :
    (((if false then (running { pwr := { bGood := true } }).hw.pwr.bGood else (running { pwr := { bGood := true } }).hw.pwr.aGood) = false)) ∧
    (((if true then (running { pwr := { aGood := true, bGood := true } }).hw.pwr.bGood else (running { pwr := { aGood := true, bGood := true } }).hw.pwr.aGood) = true) ∧ ((if true then (running { pwr := { aGood := true, bGood := true } }).hw.pwr.aGood else (running { pwr := { aGood := true, bGood := true } }).hw.pwr.bGood) = true)) ∧
    (((if true then (running { pwr := { bGood := true } }).hw.pwr.bGood else (running { pwr := { bGood := true } }).hw.pwr.aGood) = true) ∧ ((if true then (running { pwr := { bGood := true } }).hw.pwr.aGood else (running { pwr := { bGood := true } }).hw.pwr.bGood) = false)) ∧
    (((running { pwr := { alwaysOn := true } }).hw.pwr.holdup = false) ∧ ((running { pwr := { alwaysOn := true } }).hw.pwr.alwaysOn = true)) ∧
    (((running { pwr := { alwaysOn := false } }).hw.pwr.holdup = false) ∧ ((running { pwr := { alwaysOn := false } }).hw.pwr.alwaysOn = false)) ∧
    (((running { pwr := { alwaysOn := true, holdup := true, feedReset := true } }).hw.pwr.holdup = true) ∧ ((running { pwr := { alwaysOn := true, holdup := true, feedReset := true } }).hw.pwr.alwaysOn = true)) ∧
    (((running { pwr := { alwaysOn := false, holdup := true, feedReset := true } }).hw.pwr.holdup = true) ∧ ((running { pwr := { alwaysOn := false, holdup := true, feedReset := true } }).hw.pwr.alwaysOn = false)) ∧
    (((running { pwr := { holdup := true } }).hw.pwr.holdup = true)) ∧
    (((running { pwr := { holdup := false } }).hw.pwr.holdup = false)) ∧
    (((running { pwr := { feedReset := true } }).hw.pwr.feedReset = true)) ∧
    (((running { pwr := { feedReset := false } }).hw.pwr.feedReset = false)) ∧
    (((running { pwr := { alwaysOn := false, aGood := true } }).hw.pwr.alwaysOn = false) ∧ (((running { pwr := { alwaysOn := false, aGood := true } }).hw.pwr.aGood = true ∨ (running { pwr := { alwaysOn := false, aGood := true } }).hw.pwr.bGood = true))) ∧
    ((((running { pwr := { alwaysOn := true } }).hw.pwr.alwaysOn = true ∨ (running { pwr := { alwaysOn := true } }).hw.pwr.aGood = false ∧ (running { pwr := { alwaysOn := true } }).hw.pwr.bGood = false))) := by
  refine ⟨?_, ?_, ?_, ?_, ?_, ?_, ?_, ?_, ?_, ?_, ?_, ?_, ?_⟩ <;> decide +kernel

theorem witness_PowerComplete :
    ((Asks (asked 0xF02 [300]) 0 0xF02 [.f 12] false [300]) ∧ ((300 ≤ 300 ∧ 300 ≤ 1200))) ∧
    ((Asks (asked 0xF03 []) 0 0xF03 [] false [])) ∧
    ((Asks (asked 0xF01 [1] { sys := { memory := 1 } }) 0 0xF01 [.f 2] false [1]) ∧ ((asked 0xF01 [1] { sys := { memory := 1 } }).hw.pwr.state = 0) ∧ (poolOpen (asked 0xF01 [1] { sys := { memory := 1 } }).hw = true) ∧ (((asked 0xF01 [1] { sys := { memory := 1 } }).hw.pair.state ≠ 1 ∧ (asked 0xF01 [1] { sys := { memory := 1 } }).hw.pair.state ≠ 2)) ∧ (descriptorExecuting (asked 0xF01 [1] { sys := { memory := 1 } }).hw = false) ∧ (instanceOpen (asked 0xF01 [1] { sys := { memory := 1 } }).hw = false) ∧ ((asked 0xF01 [1] { sys := { memory := 1 } }).hw.bist.running = []) ∧ ((List.range 32).any (fun t => !tbit (asked 0xF01 [1] { sys := { memory := 1 } }).hw.clk.gateTile t && tileBusy (asked 0xF01 [1] { sys := { memory := 1 } }).hw t) = false)) ∧
    ((Asks (asked 0xF01 [0] { sys := { memory := 1 }, pwr := { state := 1 } }) 0 0xF01 [.f 2] false [0]) ∧ ((asked 0xF01 [0] { sys := { memory := 1 }, pwr := { state := 1 } }).hw.pwr.state = 1) ∧ (poolOpen (asked 0xF01 [0] { sys := { memory := 1 }, pwr := { state := 1 } }).hw = true)) ∧
    (((running { pwr := { state := 1, wake := true } }).hw.pwr.state = 1) ∧ ((running { pwr := { state := 1, wake := true } }).hw.pwr.wake = true)) ∧
    ((570 < (running { pwr := { limitW := 600 } }).hw.pwr.limitW) ∧ (95 * (running { pwr := { limitW := 600 } }).hw.pwr.limitW ≤ 100 * 570) ∧ ((running { pwr := { limitW := 600 } }).hw.pwr.throttle = false)) ∧
    (((running { pwr := { limitW := 600 } }).hw.pwr.limitW < 601) ∧ ((running { pwr := { limitW := 600 } }).hw.pwr.limitDiv < 16) ∧ ((running { pwr := { limitW := 600 } }).hw.pwr.throttle = false)) ∧
    (((running).hw.pwr.throttle = false) ∧ (47 < 48)) ∧
    (((running { pwr := { thermTrip := true, tripResetSeen := true } }).hw.pwr.thermTrip = true) ∧ ((running { pwr := { thermTrip := true, tripResetSeen := true } }).hw.pwr.tripResetSeen = true)) := by
  refine ⟨?_, ?_, ?_, ?_, ?_, ?_, ?_, ?_, ?_⟩ <;> decide +kernel

theorem witness_PmbusStatusComplete :
    ((smbOn (running).hw = true) ∧ (({ read := false, data := [11] } : SmbXfer).read = false) ∧ (({ read := false, data := [11] } : SmbXfer).data = [(11 : Byte)]) ∧ (((11 : Byte).toNat ≤ 11 ∨ (11 : Byte).toNat = 255)) ∧ (({ read := false, data := [11] } : SmbXfer).badPec = false)) ∧
    ((smbOn (running).hw = true) ∧ (({ read := true } : SmbXfer).read = true) ∧ (({ read := true } : SmbXfer).data = [])) ∧
    ((smbOn (running).hw = true) ∧ (({ read := false, data := [11], badPec := true } : SmbXfer).read = false) ∧ (({ read := false, data := [11], badPec := true } : SmbXfer).data = [(11 : Byte)]) ∧ (({ read := false, data := [11], badPec := true } : SmbXfer).badPec = true)) ∧
    ((smbOn (running).hw = true) ∧ (({ read := false, badPec := true } : SmbXfer).read = false) ∧ (({ read := false, badPec := true } : SmbXfer).data = []) ∧ (({ read := false, badPec := true } : SmbXfer).badPec = true)) ∧
    ((smbOn (running).hw = true) ∧ (({ read := false } : SmbXfer).read = false) ∧ (({ read := false } : SmbXfer).data = []) ∧ (({ read := false } : SmbXfer).badPec = false)) ∧
    ((smbOn (running { smb := { page := 1 } }).hw = true) ∧ (({ read := true } : SmbXfer).read = true) ∧ (({ read := true } : SmbXfer).data = []) ∧ (allPages (running { smb := { page := 1 } }).hw.smb.page = true)) ∧
    ((smbOn (running { smb := { page := 2 } }).hw = true) ∧ (({ read := true } : SmbXfer).read = true) ∧ (({ read := true } : SmbXfer).data = []) ∧ (railPages (running { smb := { page := 2 } }).hw.smb.page = true)) ∧
    ((smbOn (running { smb := { page := 1 } }).hw = true) ∧ (({ read := true } : SmbXfer).read = true) ∧ (({ read := true } : SmbXfer).data = []) ∧ (railPages (running { smb := { page := 1 } }).hw.smb.page = false)) ∧
    ((smbOn (running { smb := { page := 1 } }).hw = true) ∧ (({ read := true } : SmbXfer).read = true) ∧ (({ read := true } : SmbXfer).data = []) ∧ (allPages (running { smb := { page := 1 } }).hw.smb.page = true)) ∧
    ((smbOn (running { smb := { page := 1 } }).hw = true) ∧ (({ read := true } : SmbXfer).read = true) ∧ (({ read := true } : SmbXfer).data = []) ∧ (allPages (running { smb := { page := 1 } }).hw.smb.page = true)) ∧
    ((smbOn (running { smb := { page := 2 } }).hw = true) ∧ (({ read := true } : SmbXfer).read = true) ∧ (({ read := true } : SmbXfer).data = []) ∧ (railPages (running { smb := { page := 2 } }).hw.smb.page = true)) ∧
    ((smbOn (running { smb := { page := 2 } }).hw = true) ∧ (({ read := true } : SmbXfer).read = true) ∧ (({ read := true } : SmbXfer).data = []) ∧ (railPages (running { smb := { page := 2 } }).hw.smb.page = true)) ∧
    ((smbOn (running { smb := { page := 1 } }).hw = true) ∧ (({ read := true } : SmbXfer).read = true) ∧ (({ read := true } : SmbXfer).data = []) ∧ (inputPages (running { smb := { page := 1 } }).hw.smb.page = true)) ∧
    ((smbOn (running { smb := { page := 1 } }).hw = true) ∧ (({ read := true } : SmbXfer).read = true) ∧ (({ read := true } : SmbXfer).data = []) ∧ (allPages (running { smb := { page := 1 } }).hw.smb.page = true)) ∧
    ((smbOn (running { smb := { page := 1 } }).hw = true) ∧ (({ read := true } : SmbXfer).read = true) ∧ (({ read := true } : SmbXfer).data = []) ∧ (allPages (running { smb := { page := 1 } }).hw.smb.page = true)) ∧
    ((smbOn (running).hw = true)) ∧
    ((smbOn (running { smb := { cml := 2 } }).hw = true) ∧ (alertN (running { smb := { cml := 2 } }).hw = true)) ∧
    ((smbOn (running).hw = true)) := by
  refine ⟨?_, ?_, ?_, ?_, ?_, ?_, ?_, ?_, ?_, ?_, ?_, ?_, ?_, ?_, ?_, ?_, ?_, ?_⟩ <;> decide +kernel

theorem witness_PmbusReadingsComplete :
    ((smbOn (running { smb := { page := 1 } }).hw = true) ∧ (({ read := true } : SmbXfer).read = true) ∧ (({ read := true } : SmbXfer).data = []) ∧ (inputPages (running { smb := { page := 1 } }).hw.smb.page = true)) ∧
    ((smbOn (running { smb := { page := 1 } }).hw = true) ∧ (({ read := true } : SmbXfer).read = true) ∧ (({ read := true } : SmbXfer).data = []) ∧ (inputPages (running { smb := { page := 1 } }).hw.smb.page = true)) ∧
    ((smbOn (running { smb := { page := 1 } }).hw = true) ∧ (({ read := true } : SmbXfer).read = true) ∧ (({ read := true } : SmbXfer).data = []) ∧ (inputPages (running { smb := { page := 1 } }).hw.smb.page = true)) ∧
    ((smbOn (running { smb := { page := 2 } }).hw = true) ∧ (({ read := true } : SmbXfer).read = true) ∧ (({ read := true } : SmbXfer).data = []) ∧ (railPages (running { smb := { page := 2 } }).hw.smb.page = true)) ∧
    ((smbOn (running { smb := { page := 2 } }).hw = true) ∧ (({ read := true } : SmbXfer).read = true) ∧ (({ read := true } : SmbXfer).data = []) ∧ (railPages (running { smb := { page := 2 } }).hw.smb.page = true)) ∧
    ((smbOn (running { smb := { page := 2 } }).hw = true) ∧ (({ read := true } : SmbXfer).read = true) ∧ (({ read := true } : SmbXfer).data = []) ∧ (railPages (running { smb := { page := 2 } }).hw.smb.page = true)) ∧
    ((smbOn (running { smb := { page := 1 } }).hw = true) ∧ (({ read := true } : SmbXfer).read = true) ∧ (({ read := true } : SmbXfer).data = []) ∧ (allPages (running { smb := { page := 1 } }).hw.smb.page = true)) ∧
    ((smbOn (running { smb := { page := 1 } }).hw = true) ∧ (({ read := true } : SmbXfer).read = true) ∧ (({ read := true } : SmbXfer).data = [])) ∧
    ((smbOn (running { smb := { page := 1 } }).hw = true) ∧ (({ read := true } : SmbXfer).read = true) ∧ (({ read := true } : SmbXfer).data = [])) ∧
    ((smbOn (running { smb := { page := 1 } }).hw = true) ∧ (({ read := true } : SmbXfer).read = true) ∧ (({ read := true } : SmbXfer).data = [])) ∧
    ((smbOn (running { smb := { page := 1 } }).hw = true) ∧ (({ read := true } : SmbXfer).read = true) ∧ (({ read := true } : SmbXfer).data = [])) ∧
    ((smbOn (running { sys := { fusesSensed := true } }).hw = true) ∧ (({ read := true } : SmbXfer).read = true) ∧ (({ read := true } : SmbXfer).data = []) ∧ ((running { sys := { fusesSensed := true } }).hw.sys.fusesSensed = true)) ∧
    ((smbOn (running { smb := { page := 1 } }).hw = true) ∧ (({ read := true } : SmbXfer).read = true) ∧ (({ read := true } : SmbXfer).data = [])) ∧
    ((smbOn (running { smb := { page := 1 } }).hw = true) ∧ (({ read := true } : SmbXfer).read = true) ∧ (({ read := true } : SmbXfer).data = [])) ∧
    ((smbOn (running { smb := { page := 1 } }).hw = true) ∧ (({ read := true } : SmbXfer).read = true) ∧ (({ read := true } : SmbXfer).data = [])) := by
  refine ⟨?_, ?_, ?_, ?_, ?_, ?_, ?_, ?_, ?_, ?_, ?_, ?_, ?_, ?_, ?_⟩ <;> decide +kernel

theorem witness_JtagInstructionsComplete :
    (((running { sys := { resetLow := true } }).hw.sys.resetLow = true)) ∧
    (((running { sys := { resetLow := true } }).hw.sys.resetLow = true)) ∧
    (((running { sys := { resetLow := true } }).hw.sys.resetLow = true)) ∧
    (((running { sys := { resetLow := true } }).hw.sys.resetLow = true)) ∧
    (((running { sys := { resetLow := true } }).hw.sys.resetLow = true)) ∧
    (((running { sys := { resetLow := false } }).hw.sys.resetLow = false)) ∧
    (((running { tap := { nonce := some 77 }, sys := { memory := 1 } }).hw.tap.nonce = some 77) ∧ ((running { tap := { nonce := some 77 }, sys := { memory := 1 } }).hw.tap.fails < 8) ∧ ((running { tap := { nonce := some 77 }, sys := { memory := 1 } }).hw.sys.phase = 1) ∧ (poolOpen (running { tap := { nonce := some 77 }, sys := { memory := 1 } }).hw = true)) := by
  refine ⟨?_, ?_, ?_, ?_, ?_, ?_, ?_⟩ <;> decide +kernel

theorem witness_BringupComplete :
    ((({ hw := { sys := { step := 2, loaded := some (1, false) } } } : State).hw.sys.step = 2) ∧ (({ hw := { sys := { step := 2, loaded := some (1, false) } } } : State).hw.sys.phase = 0) ∧ (({ hw := { sys := { step := 2, loaded := some (1, false) } } } : State).hw.sys.loaded = some ((1, false) : Nat × Bool))) ∧
    (((running { sys := { step := 3 } }).hw.sys.step = 3) ∧ ((running { sys := { step := 3 } }).hw.sys.phase = 1)) ∧
    (((running { sys := { step := 5, halfDone := [0, 1] } }).hw.sys.step = 5) ∧ ((2 : Fin 8).val = (running { sys := { step := 5, halfDone := [0, 1] } }).hw.sys.halfDone.length) ∧ ((2 : Fin 8).val < 7)) ∧
    (((running { sys := { step := 6 } }).hw.sys.step = 6) ∧ ((running { sys := { step := 6 } }).hw.sys.fullDone.contains (3 : Fin 8).val = false) ∧ (((fullRate (running { sys := { step := 6 } }).hw (3 : Fin 8) ([])).sys.fullDone ++ [(3 : Fin 8).val]).length ≠ 8)) ∧
    (((running { sys := { step := 7 } }).hw.sys.step = 7)) ∧
    (((running { sys := { step := 9 } }).hw.sys.step = 9)) ∧
    (((running { sys := { fusesSensed := true, step := 9 } }).hw.sys.fusesSensed = true) ∧ ((running { sys := { fusesSensed := true, step := 9 } }).hw.sys.phase = 1) ∧ ((running { sys := { fusesSensed := true, step := 9 } }).hw.sys.step = 9)) ∧
    ((({ hw := { sys := { step := 1 } } } : State).hw.sys.step = 1) ∧ (({ hw := { sys := { step := 1 } } } : State).hw.sys.phase = 0) ∧ ((selection ({ hw := { sys := { step := 1 } } } : State).hw.fw.flash).2.1 = false)) ∧
    (((running).hw.sys.phase = 1) ∧ (0 / 4096 < imagePages (running).hw.fw.flash (running).hw.sys.slot)) := by
  refine ⟨?_, ?_, ?_, ?_, ?_, ?_, ?_, ?_, ?_⟩ <;> decide +kernel

theorem witness_SelfTestAndFirmwareComplete :
    ((Asks (asked 0xD01 [256 * 5 + 65536]) 0 0xD01 [.f 4, .f 6, .f 2] false [0, 5, 1]) ∧ ((0 = 0 ∧ 5 < 32 ∧ 1 ≤ 1)) ∧ (tileIdle (asked 0xD01 [256 * 5 + 65536]).hw 5 = true) ∧ (KMap.has (asked 0xD01 [256 * 5 + 65536]).hw.bist.running (0 * 64 + 5) = false)) ∧
    ((Asks (asked 0xD02 [256 * 5]) 0 0xD02 [.f 4, .f 6] true [0, 5]) ∧ (blockNamed 0 5 = true)) ∧
    ((Asks (asked 0xD03 []) 0 0xD03 [] false []) ∧ ((asked 0xD03 []).hw.bist.running = []) ∧ (((asked 0xD03 []).hw.bist.repairs.filter (fun r => r.kind == 0)).length ≤ fuseEntries - (asked 0xD03 []).hw.fuses.repairs.length)) ∧
    ((Asks (asked 0xD04 []) 0 0xD04 [] true [])) ∧
    ((KMap.find? (running { bist := { running := [(5, 2)] }, mbx := [(2, { state := 1, work := some { opcode := 0xD01, waits := [5] } })] }).hw.bist.running (({ block := 0, index := 5 } : TestOutcome).block * 64 + ({ block := 0, index := 5 } : TestOutcome).index) = some (2 : Fin 16).val) ∧ (({ block := 0, index := 5 } : TestOutcome).block ≠ 7) ∧ (({ block := 0, index := 5 } : TestOutcome).result = 0) ∧ (workOf (running { bist := { running := [(5, 2)] }, mbx := [(2, { state := 1, work := some { opcode := 0xD01, waits := [5] } })] }).hw (2 : Fin 16) 0xD01 = some ({ opcode := 0xD01, waits := [5] } : Work)) ∧ (({ opcode := 0xD01, waits := [5] } : Work).waits = [({ block := 0, index := 5 } : TestOutcome).block * 64 + ({ block := 0, index := 5 } : TestOutcome).index]) ∧ (workOf (reinit ((running { bist := { running := [(5, 2)] }, mbx := [(2, { state := 1, work := some { opcode := 0xD01, waits := [5] } })] }).hw.onBist fun x => { x with running := KMap.erase x.running (({ block := 0, index := 5 } : TestOutcome).block * 64 + ({ block := 0, index := 5 } : TestOutcome).index), records := KMap.set x.records (({ block := 0, index := 5 } : TestOutcome).block * 64 + ({ block := 0, index := 5 } : TestOutcome).index) (testRecord (running { bist := { running := [(5, 2)] }, mbx := [(2, { state := 1, work := some { opcode := 0xD01, waits := [5] } })] }).hw ({ block := 0, index := 5 } : TestOutcome) 0) }) ({ block := 0, index := 5 } : TestOutcome).block ({ block := 0, index := 5 } : TestOutcome).index) (2 : Fin 16) 0xD01 = some ({ opcode := 0xD01, waits := [5] } : Work))) ∧
    (((running { tap := { unlock := 1 } }).hw.tap.unlock = 1)) ∧
    ((Asks (asked 0xD05 [0, 0]) 0 0xD05 [.f 2, .f 2, .f 32, .f 16, .arr 3 1] false [0, 0, 0, 0, 0]) ∧ (0 ≤ 1) ∧ ((asked 0xD05 [0, 0]).hw.fw.update = none)) ∧
    ((Asks (asked 0xD06 [0, 0, 0, 0]) 0 0xD06 [.blk 32] false [0])) ∧
    ((Asks (asked 0xD07 [1]) 0 0xD07 [.f 2] false [1])) := by
  refine ⟨?_, ?_, ?_, ?_, ?_, ?_, ?_, ?_, ?_⟩ <;> decide +kernel

theorem witness_PcieAndWindowComplete :
    (((running { pcie := { link := 1 } }).hw.pcie.link ≠ 0)) ∧
    (((running { pcie := { link := 1 } }).hw.pcie.link ≠ 0)) ∧
    (((running { pcie := { link := 1 } }).hw.pcie.link = 1)) ∧
    (((running { pcie := { link := 2 } }).hw.pcie.link = 2)) ∧
    (((running { pcie := { link := 1 } }).hw.pcie.link ≠ 0)) ∧
    (((running { pcie := { link := 1 } }).hw.pcie.link = 1) ∧ (configWord (running { pcie := { link := 1 } }).hw (0 / 4 * 4 % 4096) = some 0x64001F4C)) ∧
    (((running { pcie := { link := 1 } }).hw.pcie.link = 1)) ∧
    (((running { pcie := { link := 1, command := 2 } }).hw.pcie.link = 1) ∧ ((running { pcie := { link := 1, command := 2 } }).hw.pcie.d3hot = false) ∧ (tbit (running { pcie := { link := 1, command := 2 } }).hw.pcie.command 1 = true) ∧ (windowOpen (running { pcie := { link := 1, command := 2 } }).hw = true) ∧ ((running { pcie := { link := 1, command := 2 } }).hw.pcie.bar ≤ 0x5008) ∧ (0x5008 < (running { pcie := { link := 1, command := 2 } }).hw.pcie.bar + 0x1000000)) ∧
    (((running { pcie := { link := 1, command := 2 } }).hw.pcie.link = 1) ∧ ((running { pcie := { link := 1, command := 2 } }).hw.pcie.d3hot = false) ∧ (tbit (running { pcie := { link := 1, command := 2 } }).hw.pcie.command 1 = true) ∧ (windowOpen (running { pcie := { link := 1, command := 2 } }).hw = true) ∧ ((running { pcie := { link := 1, command := 2 } }).hw.pcie.bar ≤ 0x5008) ∧ (0x5008 < (running { pcie := { link := 1, command := 2 } }).hw.pcie.bar + 0x1000000)) ∧
    (((running { pcie := { link := 1, d3hot := true } }).hw.pcie.link = 1) ∧ ((running { pcie := { link := 1, d3hot := true } }).hw.pcie.d3hot = true)) ∧
    ((windowOpen (running).hw = true) ∧ (0x10000 < 0x1000000) ∧ (mayReach (running).hw Requester.pcie true 0x10000 = true)) ∧
    (((mkPacket 0x60 6 0 2 1 5 (leBytes 16 (2 * 2 ^ 48 + 0xFF0000010000 + 8 * 2 ^ 64))).opcode = 0x60) ∧ (isOwn (running { sys := { moduleId := 2, mgmt := [1] } }).hw (mkPacket 0x60 6 0 2 1 5 (leBytes 16 (2 * 2 ^ 48 + 0xFF0000010000 + 8 * 2 ^ 64))).dst = true) ∧ (windowOpen (running { sys := { moduleId := 2, mgmt := [1] } }).hw = true) ∧ ((takeInbox (running { sys := { moduleId := 2, mgmt := [1] } }).hw (mkPacket 0x60 6 0 2 1 5 (leBytes 16 (2 * 2 ^ 48 + 0xFF0000010000 + 8 * 2 ^ 64)))).dead.contains (mkPacket 0x60 6 0 2 1 5 (leBytes 16 (2 * 2 ^ 48 + 0xFF0000010000 + 8 * 2 ^ 64))).src = false) ∧ (badWindow (mkPacket 0x60 6 0 2 1 5 (leBytes 16 (2 * 2 ^ 48 + 0xFF0000010000 + 8 * 2 ^ 64))) = false) ∧ (¬ fpaOffset (Packet.addr (mkPacket 0x60 6 0 2 1 5 (leBytes 16 (2 * 2 ^ 48 + 0xFF0000010000 + 8 * 2 ^ 64)))) < poolSize) ∧ (inWindow (fpaOffset (Packet.addr (mkPacket 0x60 6 0 2 1 5 (leBytes 16 (2 * 2 ^ 48 + 0xFF0000010000 + 8 * 2 ^ 64))))) = true) ∧ (windowVc (mkPacket 0x60 6 0 2 1 5 (leBytes 16 (2 * 2 ^ 48 + 0xFF0000010000 + 8 * 2 ^ 64))) (fpaOffset (Packet.addr (mkPacket 0x60 6 0 2 1 5 (leBytes 16 (2 * 2 ^ 48 + 0xFF0000010000 + 8 * 2 ^ 64)))) - 0xFF0000000000) = true) ∧ ((mkPacket 0x60 6 0 2 1 5 (leBytes 16 (2 * 2 ^ 48 + 0xFF0000010000 + 8 * 2 ^ 64))).dst = (takeInbox (running { sys := { moduleId := 2, mgmt := [1] } }).hw (mkPacket 0x60 6 0 2 1 5 (leBytes 16 (2 * 2 ^ 48 + 0xFF0000010000 + 8 * 2 ^ 64)))).sys.moduleId) ∧ (mayReach (takeInbox (running { sys := { moduleId := 2, mgmt := [1] } }).hw (mkPacket 0x60 6 0 2 1 5 (leBytes 16 (2 * 2 ^ 48 + 0xFF0000010000 + 8 * 2 ^ 64)))) (.fabric (mkPacket 0x60 6 0 2 1 5 (leBytes 16 (2 * 2 ^ 48 + 0xFF0000010000 + 8 * 2 ^ 64))).src) false (fpaOffset (Packet.addr (mkPacket 0x60 6 0 2 1 5 (leBytes 16 (2 * 2 ^ 48 + 0xFF0000010000 + 8 * 2 ^ 64)))) - 0xFF0000000000) = true)) ∧
    (((mkPacket 0x61 6 0 2 1 5 (leBytes 16 (2 * 2 ^ 48 + 0xFF0000010000 + 8 * 2 ^ 64) ++ leBytes 8 1)).opcode = 0x61) ∧ (isOwn (running { sys := { moduleId := 2, mgmt := [1] } }).hw (mkPacket 0x61 6 0 2 1 5 (leBytes 16 (2 * 2 ^ 48 + 0xFF0000010000 + 8 * 2 ^ 64) ++ leBytes 8 1)).dst = true) ∧ (windowOpen (running { sys := { moduleId := 2, mgmt := [1] } }).hw = true) ∧ ((takeInbox (running { sys := { moduleId := 2, mgmt := [1] } }).hw (mkPacket 0x61 6 0 2 1 5 (leBytes 16 (2 * 2 ^ 48 + 0xFF0000010000 + 8 * 2 ^ 64) ++ leBytes 8 1))).dead.contains (mkPacket 0x61 6 0 2 1 5 (leBytes 16 (2 * 2 ^ 48 + 0xFF0000010000 + 8 * 2 ^ 64) ++ leBytes 8 1)).src = false) ∧ (badWindow (mkPacket 0x61 6 0 2 1 5 (leBytes 16 (2 * 2 ^ 48 + 0xFF0000010000 + 8 * 2 ^ 64) ++ leBytes 8 1)) = false) ∧ (¬ fpaOffset (Packet.addr (mkPacket 0x61 6 0 2 1 5 (leBytes 16 (2 * 2 ^ 48 + 0xFF0000010000 + 8 * 2 ^ 64) ++ leBytes 8 1))) < poolSize) ∧ (inWindow (fpaOffset (Packet.addr (mkPacket 0x61 6 0 2 1 5 (leBytes 16 (2 * 2 ^ 48 + 0xFF0000010000 + 8 * 2 ^ 64) ++ leBytes 8 1)))) = true) ∧ (windowVc (mkPacket 0x61 6 0 2 1 5 (leBytes 16 (2 * 2 ^ 48 + 0xFF0000010000 + 8 * 2 ^ 64) ++ leBytes 8 1)) (fpaOffset (Packet.addr (mkPacket 0x61 6 0 2 1 5 (leBytes 16 (2 * 2 ^ 48 + 0xFF0000010000 + 8 * 2 ^ 64) ++ leBytes 8 1))) - 0xFF0000000000) = true) ∧ ((mkPacket 0x61 6 0 2 1 5 (leBytes 16 (2 * 2 ^ 48 + 0xFF0000010000 + 8 * 2 ^ 64) ++ leBytes 8 1)).dst = (takeInbox (running { sys := { moduleId := 2, mgmt := [1] } }).hw (mkPacket 0x61 6 0 2 1 5 (leBytes 16 (2 * 2 ^ 48 + 0xFF0000010000 + 8 * 2 ^ 64) ++ leBytes 8 1))).sys.moduleId) ∧ (mayReach (takeInbox (running { sys := { moduleId := 2, mgmt := [1] } }).hw (mkPacket 0x61 6 0 2 1 5 (leBytes 16 (2 * 2 ^ 48 + 0xFF0000010000 + 8 * 2 ^ 64) ++ leBytes 8 1))) (.fabric (mkPacket 0x61 6 0 2 1 5 (leBytes 16 (2 * 2 ^ 48 + 0xFF0000010000 + 8 * 2 ^ 64) ++ leBytes 8 1)).src) true (fpaOffset (Packet.addr (mkPacket 0x61 6 0 2 1 5 (leBytes 16 (2 * 2 ^ 48 + 0xFF0000010000 + 8 * 2 ^ 64) ++ leBytes 8 1))) - 0xFF0000000000) = true)) ∧
    (((mkPacket 0x62 3 0 2 1 5 (leBytes 16 (8 * 2 ^ 64) ++ leBytes 8 1)).opcode = 0x62) ∧ (isOwn (running { sys := { moduleId := 2 }, pair := { state := 3, partner := 1, probeTid := 5 } }).hw (mkPacket 0x62 3 0 2 1 5 (leBytes 16 (8 * 2 ^ 64) ++ leBytes 8 1)).dst = true) ∧ (badBulkAnswer (mkPacket 0x62 3 0 2 1 5 (leBytes 16 (8 * 2 ^ 64) ++ leBytes 8 1)) = false) ∧ (Packet.cf (mkPacket 0x62 3 0 2 1 5 (leBytes 16 (8 * 2 ^ 64) ++ leBytes 8 1)) 80 4 = 0) ∧ ((mkPacket 0x62 3 0 2 1 5 (leBytes 16 (8 * 2 ^ 64) ++ leBytes 8 1)).data.length = 16 + Packet.cf (mkPacket 0x62 3 0 2 1 5 (leBytes 16 (8 * 2 ^ 64) ++ leBytes 8 1)) 64 13) ∧ ((takeInbox (running { sys := { moduleId := 2 }, pair := { state := 3, partner := 1, probeTid := 5 } }).hw (mkPacket 0x62 3 0 2 1 5 (leBytes 16 (8 * 2 ^ 64) ++ leBytes 8 1))).pair.state ≠ 0) ∧ ((mkPacket 0x62 3 0 2 1 5 (leBytes 16 (8 * 2 ^ 64) ++ leBytes 8 1)).src = (takeInbox (running { sys := { moduleId := 2 }, pair := { state := 3, partner := 1, probeTid := 5 } }).hw (mkPacket 0x62 3 0 2 1 5 (leBytes 16 (8 * 2 ^ 64) ++ leBytes 8 1))).pair.partner) ∧ ((mkPacket 0x62 3 0 2 1 5 (leBytes 16 (8 * 2 ^ 64) ++ leBytes 8 1)).tid = (takeInbox (running { sys := { moduleId := 2 }, pair := { state := 3, partner := 1, probeTid := 5 } }).hw (mkPacket 0x62 3 0 2 1 5 (leBytes 16 (8 * 2 ^ 64) ++ leBytes 8 1))).pair.probeTid)) := by
  refine ⟨?_, ?_, ?_, ?_, ?_, ?_, ?_, ?_, ?_, ?_, ?_, ?_, ?_, ?_⟩ <;> decide +kernel

theorem witness_ContextsAndTranslationComplete :
    ((Asks (asked 0x201 [7 + 65536 * 9 + 2 ^ 32, 0, 3, 2 * 2 ^ 48 + 4096, 4, 0, 100] { sys := { memory := 2, moduleId := 2 }, regions := [(3, { state := 1, granules := 1 })] }) 0 0x201 [.f 16, .f 12, .f 1, .f 60, .f 16, .f 60, .f 5, .f 60, .f 32] false [7, 9, 1, 0, 3, (2 * 2 ^ 48 + 4096), 4, 0, 100]) ∧ (poolOpen (asked 0x201 [7 + 65536 * 9 + 2 ^ 32, 0, 3, 2 * 2 ^ 48 + 4096, 4, 0, 100] { sys := { memory := 2, moduleId := 2 }, regions := [(3, { state := 1, granules := 1 })] }).hw = true) ∧ (((asked 0x201 [7 + 65536 * 9 + 2 ^ 32, 0, 3, 2 * 2 ^ 48 + 4096, 4, 0, 100] { sys := { memory := 2, moduleId := 2 }, regions := [(3, { state := 1, granules := 1 })] }).hw.ctx 7).bound = false) ∧ (((2 * 2 ^ 48 + 4096) % 4096 = 0 ∧ inPoolFor (asked 0x201 [7 + 65536 * 9 + 2 ^ 32, 0, 3, 2 * 2 ^ 48 + 4096, 4, 0, 100] { sys := { memory := 2, moduleId := 2 }, regions := [(3, { state := 1, granules := 1 })] }).hw 0 (2 * 2 ^ 48 + 4096) = true)) ∧ ((4 ≤ 4 ∧ 4 ≤ 16)) ∧ (fpaOffset (2 * 2 ^ 48 + 4096) + 64 * 2 ^ 4 ≤ poolSize) ∧ (100 ≤ 60000) ∧ ((3 ≠ 0 ∧ ((asked 0x201 [7 + 65536 * 9 + 2 ^ 32, 0, 3, 2 * 2 ^ 48 + 4096, 4, 0, 100] { sys := { memory := 2, moduleId := 2 }, regions := [(3, { state := 1, granules := 1 })] }).hw.region 3).state = 1)) ∧ (createService (asked 0x201 [7 + 65536 * 9 + 2 ^ 32, 0, 3, 2 * 2 ^ 48 + 4096, 4, 0, 100] { sys := { memory := 2, moduleId := 2 }, regions := [(3, { state := 1, granules := 1 })] }).hw = some 0)) ∧
    ((Asks (asked 0x201 [7 + 65536 * 9, 2 * 2 ^ 48 + 4096, 0, 2 * 2 ^ 48 + 4096, 4, 0, 100] { sys := { memory := 2, moduleId := 2 }, regions := [(3, { state := 1, granules := 1, acl := [{ id := 9, r := true }] })] }) 0 0x201 [.f 16, .f 12, .f 1, .f 60, .f 16, .f 60, .f 5, .f 60, .f 32] false [7, 9, 0, (2 * 2 ^ 48 + 4096), 0, (2 * 2 ^ 48 + 4096), 4, 0, 100]) ∧ (poolOpen (asked 0x201 [7 + 65536 * 9, 2 * 2 ^ 48 + 4096, 0, 2 * 2 ^ 48 + 4096, 4, 0, 100] { sys := { memory := 2, moduleId := 2 }, regions := [(3, { state := 1, granules := 1, acl := [{ id := 9, r := true }] })] }).hw = true) ∧ (((asked 0x201 [7 + 65536 * 9, 2 * 2 ^ 48 + 4096, 0, 2 * 2 ^ 48 + 4096, 4, 0, 100] { sys := { memory := 2, moduleId := 2 }, regions := [(3, { state := 1, granules := 1, acl := [{ id := 9, r := true }] })] }).hw.ctx 7).bound = false) ∧ (((2 * 2 ^ 48 + 4096) % 4096 = 0 ∧ inPoolFor (asked 0x201 [7 + 65536 * 9, 2 * 2 ^ 48 + 4096, 0, 2 * 2 ^ 48 + 4096, 4, 0, 100] { sys := { memory := 2, moduleId := 2 }, regions := [(3, { state := 1, granules := 1, acl := [{ id := 9, r := true }] })] }).hw 0 (2 * 2 ^ 48 + 4096) = true)) ∧ ((4 ≤ 4 ∧ 4 ≤ 16)) ∧ (fpaOffset (2 * 2 ^ 48 + 4096) + 64 * 2 ^ 4 ≤ poolSize) ∧ (100 ≤ 60000) ∧ (((2 * 2 ^ 48 + 4096) % 4096 = 0 ∧ inPoolFor (asked 0x201 [7 + 65536 * 9, 2 * 2 ^ 48 + 4096, 0, 2 * 2 ^ 48 + 4096, 4, 0, 100] { sys := { memory := 2, moduleId := 2 }, regions := [(3, { state := 1, granules := 1, acl := [{ id := 9, r := true }] })] }).hw 0 (2 * 2 ^ 48 + 4096) = true)) ∧ (regionAt (asked 0x201 [7 + 65536 * 9, 2 * 2 ^ 48 + 4096, 0, 2 * 2 ^ 48 + 4096, 4, 0, 100] { sys := { memory := 2, moduleId := 2 }, regions := [(3, { state := 1, granules := 1, acl := [{ id := 9, r := true }] })] }).hw (granuleOf (fpaOffset (2 * 2 ^ 48 + 4096))) = some 3) ∧ ((3 ≠ 0 ∧ hasRight (asked 0x201 [7 + 65536 * 9, 2 * 2 ^ 48 + 4096, 0, 2 * 2 ^ 48 + 4096, 4, 0, 100] { sys := { memory := 2, moduleId := 2 }, regions := [(3, { state := 1, granules := 1, acl := [{ id := 9, r := true }] })] }).hw ((asked 0x201 [7 + 65536 * 9, 2 * 2 ^ 48 + 4096, 0, 2 * 2 ^ 48 + 4096, 4, 0, 100] { sys := { memory := 2, moduleId := 2 }, regions := [(3, { state := 1, granules := 1, acl := [{ id := 9, r := true }] })] }).hw.region 3) 9 .read = true)) ∧ ((asked 0x201 [7 + 65536 * 9, 2 * 2 ^ 48 + 4096, 0, 2 * 2 ^ 48 + 4096, 4, 0, 100] { sys := { memory := 2, moduleId := 2 }, regions := [(3, { state := 1, granules := 1, acl := [{ id := 9, r := true }] })] }).hw.pair.state = 0)) ∧
    ((Asks (asked 0x202 [7, 0, 60000] { contexts := [(7, { bound := true })] }) 0 0x202 [.f 16, .f 60, .f 32] false [7, 0, 60000]) ∧ (((asked 0x202 [7, 0, 60000] { contexts := [(7, { bound := true })] }).hw.ctx 7).bound = true) ∧ (60000 ≤ 60000)) ∧
    ((Asks (asked 0x204 [7]) 0 0x204 [.f 16] false [7])) ∧
    ((Asks (asked 0x203 [7] { contexts := [(7, { bound := true })] }) 0 0x203 [.f 16, .f 1] false [7, 0]) ∧ (((asked 0x203 [7] { contexts := [(7, { bound := true })] }).hw.ctx 7).bound = true) ∧ (outstandingOf (asked 0x203 [7] { contexts := [(7, { bound := true })] }).hw 7 = 0) ∧ ((groupsOf (asked 0x203 [7] { contexts := [(7, { bound := true })] }).hw 7).any (fun g => g.2.inst.isSome) = false)) ∧
    ((Asks (asked 0x205 [7 + 65536, 1, 0] { contexts := [(7, { bound := true, mirrored := true })] }) 0 0x205 [.f 16, .f 7, .arr 1 16] false [7, 1, 1]) ∧ ((0 < 1 ∧ 1 ≤ 120)) ∧ (((asked 0x205 [7 + 65536, 1, 0] { contexts := [(7, { bound := true, mirrored := true })] }).hw.ctx 7).bound = true) ∧ (((asked 0x205 [7 + 65536, 1, 0] { contexts := [(7, { bound := true, mirrored := true })] }).hw.ctx 7).mirrored = true) ∧ ((Tables.updates (asked 0x205 [7 + 65536, 1, 0] { contexts := [(7, { bound := true, mirrored := true })] }).hw (syncUpdates 1 1) 0 (syncTables (asked 0x205 [7 + 65536, 1, 0] { contexts := [(7, { bound := true, mirrored := true })] }) 7)).toOption = some (syncTables (asked 0x205 [7 + 65536, 1, 0] { contexts := [(7, { bound := true, mirrored := true })] }) 7))) ∧
    ((Asks (asked 0x206 [7 + 2 ^ 32 * 5, 4096, 4096, 0]) 0 0x206 [.blk 32] false [(7 + 2 ^ 32 * 5 + 2 ^ 64 * 4096 + 2 ^ 128 * 4096)]) ∧ ((fld (7 + 2 ^ 32 * 5 + 2 ^ 64 * 4096 + 2 ^ 128 * 4096) 18 14 = 0 ∧ fld (7 + 2 ^ 32 * 5 + 2 ^ 64 * 4096 + 2 ^ 128 * 4096) 192 64 = 0)) ∧ (parseInvalidation (asked 0x206 [7 + 2 ^ 32 * 5, 4096, 4096, 0]).hw (if ((asked 0x206 [7 + 2 ^ 32 * 5, 4096, 4096, 0]).hw.mailbox 0).pcie then none else some ((asked 0x206 [7 + 2 ^ 32 * 5, 4096, 4096, 0]).hw.mailbox 0).ringer) (7 + 2 ^ 32 * 5 + 2 ^ 64 * 4096 + 2 ^ 128 * 4096) = some ({ ctx := 7, ranges := [(4096, 4096)], tag := 5 } : Invalidation))) ∧
    (((mkPacket 0x64 0 0 2 1 5 (leBytes 32 (7 + 2 ^ 32 * 5 + 2 ^ 64 * 4096 + 2 ^ 128 * 4096))).opcode = 0x64) ∧ (isOwn (running { sys := { moduleId := 2 } }).hw (mkPacket 0x64 0 0 2 1 5 (leBytes 32 (7 + 2 ^ 32 * 5 + 2 ^ 64 * 4096 + 2 ^ 128 * 4096))).dst = true) ∧ ((mkPacket 0x64 0 0 2 1 5 (leBytes 32 (7 + 2 ^ 32 * 5 + 2 ^ 64 * 4096 + 2 ^ 128 * 4096))).data.length = 32) ∧ (isDead (takeInbox (running { sys := { moduleId := 2 } }).hw (mkPacket 0x64 0 0 2 1 5 (leBytes 32 (7 + 2 ^ 32 * 5 + 2 ^ 64 * 4096 + 2 ^ 128 * 4096)))) (mkPacket 0x64 0 0 2 1 5 (leBytes 32 (7 + 2 ^ 32 * 5 + 2 ^ 64 * 4096 + 2 ^ 128 * 4096))).src = false) ∧ (parseInvalidation (takeInbox (running { sys := { moduleId := 2 } }).hw (mkPacket 0x64 0 0 2 1 5 (leBytes 32 (7 + 2 ^ 32 * 5 + 2 ^ 64 * 4096 + 2 ^ 128 * 4096)))) (some (mkPacket 0x64 0 0 2 1 5 (leBytes 32 (7 + 2 ^ 32 * 5 + 2 ^ 64 * 4096 + 2 ^ 128 * 4096))).src) (leNat (mkPacket 0x64 0 0 2 1 5 (leBytes 32 (7 + 2 ^ 32 * 5 + 2 ^ 64 * 4096 + 2 ^ 128 * 4096))).data) = some ({ ctx := 7, ranges := [(4096, 4096)], tag := 5 } : Invalidation))) ∧
    (((running { invalidations := [{ ctx := 7, serial := 4, packet := { src := 1, tid := 5 } }] }).hw.invalidations.find? (fun x => x.mailbox.isNone && x.packet.src == 1 && x.packet.tid == 5 && !invalidationWaits (running { invalidations := [{ ctx := 7, serial := 4, packet := { src := 1, tid := 5 } }] }).hw x) = some ({ ctx := 7, serial := 4, packet := { src := 1, tid := 5 } } : Invalidation))) := by
  refine ⟨?_, ?_, ?_, ?_, ?_, ?_, ?_, ?_, ?_⟩ <;> decide +kernel

theorem witness_RegionsAndAgentsComplete :
    ((Asks (asked 0x301 ([5 + 65536 + 2 ^ 32 * 0x3FFFF, 3, 77, 1] ++ [9 + 2 ^ 13] ++ List.replicate 63 0) { sys := { memory := 2, moduleId := 2 } }) 0 0x301 [.f 16, .f 2, .f 1, .f 18, .f 18, .f 18, .f 64, .f 7, .blk 512] false [5, 1, 0, 0x3FFFF, 3, 0, 77, 1, (9 + 2 ^ 13)]) ∧ (poolOpen (asked 0x301 ([5 + 65536 + 2 ^ 32 * 0x3FFFF, 3, 77, 1] ++ [9 + 2 ^ 13] ++ List.replicate 63 0) { sys := { memory := 2, moduleId := 2 } }).hw = true) ∧ (parseAcl 1 (9 + 2 ^ 13) = (0, ([({ id := 9, r := true } : AclEntry)]))) ∧ ((0 < 3 ∧ 3 ≤ systemBase)) ∧ (1 ≤ 1) ∧ ((5 ≠ 0 ∧ ((asked 0x301 ([5 + 65536 + 2 ^ 32 * 0x3FFFF, 3, 77, 1] ++ [9 + 2 ^ 13] ++ List.replicate 63 0) { sys := { memory := 2, moduleId := 2 } }).hw.region 5).state = 0)) ∧ (createService (asked 0x301 ([5 + 65536 + 2 ^ 32 * 0x3FFFF, 3, 77, 1] ++ [9 + 2 ^ 13] ++ List.replicate 63 0) { sys := { memory := 2, moduleId := 2 } }).hw = some 0) ∧ (lowestRun (asked 0x301 ([5 + 65536 + 2 ^ 32 * 0x3FFFF, 3, 77, 1] ++ [9 + 2 ^ 13] ++ List.replicate 63 0) { sys := { memory := 2, moduleId := 2 } }).hw 3 [1, 2, 3] = some 0)) ∧
    ((Asks (asked 0x303 [5]) 0 0x303 [.f 16] true [5])) ∧
    ((Asks (asked 0x304 ([5 + 65536] ++ [9 + 2 ^ 13] ++ List.replicate 63 0) { sys := { memory := 2, moduleId := 2 }, regions := [(5, { state := 1, granules := 1, acl := [{ id := 9, r := true }] })] }) 0 0x304 [.f 16, .f 7, .blk 512] false [5, 1, (9 + 2 ^ 13)]) ∧ (parseAcl 1 (9 + 2 ^ 13) = (0, ([({ id := 9, r := true } : AclEntry)]))) ∧ ((5 ≠ 0 ∧ ((asked 0x304 ([5 + 65536] ++ [9 + 2 ^ 13] ++ List.replicate 63 0) { sys := { memory := 2, moduleId := 2 }, regions := [(5, { state := 1, granules := 1, acl := [{ id := 9, r := true }] })] }).hw.region 5).state = 1)) ∧ (((asked 0x304 ([5 + 65536] ++ [9 + 2 ^ 13] ++ List.replicate 63 0) { sys := { memory := 2, moduleId := 2 }, regions := [(5, { state := 1, granules := 1, acl := [{ id := 9, r := true }] })] }).hw.region 5).kind ≠ 2) ∧ ((([({ id := 9, r := true } : AclEntry)]) ≠ [] ∧ ([({ id := 9, r := true } : AclEntry)]).length ≤ 64))) ∧
    ((Asks (asked 0x305 [5 + 65536, 7 + 2 ^ 14] { sys := { memory := 2, moduleId := 2 }, regions := [(5, { state := 1, granules := 1, acl := [{ id := 9, r := true }] })] }) 0 0x305 [.f 16, .f 7, .arr 1 8] false [5, 1, (7 + 2 ^ 14)]) ∧ (parseEntries (arrayWords 1 (7 + 2 ^ 14)) 1 = (0, ([({ id := 7, w := true } : AclEntry)]))) ∧ ((5 ≠ 0 ∧ ((asked 0x305 [5 + 65536, 7 + 2 ^ 14] { sys := { memory := 2, moduleId := 2 }, regions := [(5, { state := 1, granules := 1, acl := [{ id := 9, r := true }] })] }).hw.region 5).state = 1)) ∧ (((asked 0x305 [5 + 65536, 7 + 2 ^ 14] { sys := { memory := 2, moduleId := 2 }, regions := [(5, { state := 1, granules := 1, acl := [{ id := 9, r := true }] })] }).hw.region 5).kind ≠ 2) ∧ ((([({ id := 7, w := true } : AclEntry)]).foldl addEntry ((asked 0x305 [5 + 65536, 7 + 2 ^ 14] { sys := { memory := 2, moduleId := 2 }, regions := [(5, { state := 1, granules := 1, acl := [{ id := 9, r := true }] })] }).hw.region 5).acl ≠ [] ∧ (([({ id := 7, w := true } : AclEntry)]).foldl addEntry ((asked 0x305 [5 + 65536, 7 + 2 ^ 14] { sys := { memory := 2, moduleId := 2 }, regions := [(5, { state := 1, granules := 1, acl := [{ id := 9, r := true }] })] }).hw.region 5).acl).length ≤ 64))) ∧
    ((Asks (asked 0x306 [5 + 65536, 7] { sys := { memory := 2, moduleId := 2 }, regions := [(5, { state := 1, granules := 1, acl := [{ id := 9, r := true }] })] }) 0 0x306 [.f 16, .f 7, .arr 1 8] false [5, 1, 7]) ∧ (parseEntries (arrayWords 1 7) 1 = (0, ([({ id := 7 } : AclEntry)]))) ∧ ((5 ≠ 0 ∧ ((asked 0x306 [5 + 65536, 7] { sys := { memory := 2, moduleId := 2 }, regions := [(5, { state := 1, granules := 1, acl := [{ id := 9, r := true }] })] }).hw.region 5).state = 1)) ∧ (((asked 0x306 [5 + 65536, 7] { sys := { memory := 2, moduleId := 2 }, regions := [(5, { state := 1, granules := 1, acl := [{ id := 9, r := true }] })] }).hw.region 5).kind ≠ 2) ∧ (([({ id := 7 } : AclEntry)]).any (fun e => e.r || e.w || e.atomic) = false) ∧ (((asked 0x306 [5 + 65536, 7] { sys := { memory := 2, moduleId := 2 }, regions := [(5, { state := 1, granules := 1, acl := [{ id := 9, r := true }] })] }).hw.region 5).acl.filter (fun e => !([({ id := 7 } : AclEntry)]).any (fun d => d.id == e.id && d.group == e.group)) = ([({ id := 9, r := true } : AclEntry)])) ∧ ((([({ id := 9, r := true } : AclEntry)]) ≠ [] ∧ ([({ id := 9, r := true } : AclEntry)]).length ≤ 64))) ∧
    ((Asks (asked 0x302 [5] { sys := { memory := 2, moduleId := 2 }, regions := [(5, { state := 1, granules := 1, acl := [{ id := 9, r := true }] })] }) 0 0x302 [.f 16, .f 1] false [5, 0]) ∧ ((5 ≠ 0 ∧ ((asked 0x302 [5] { sys := { memory := 2, moduleId := 2 }, regions := [(5, { state := 1, granules := 1, acl := [{ id := 9, r := true }] })] }).hw.region 5).state = 1)) ∧ (((asked 0x302 [5] { sys := { memory := 2, moduleId := 2 }, regions := [(5, { state := 1, granules := 1, acl := [{ id := 9, r := true }] })] }).hw.region 5).kind ≠ 3) ∧ (regionNamed (asked 0x302 [5] { sys := { memory := 2, moduleId := 2 }, regions := [(5, { state := 1, granules := 1, acl := [{ id := 9, r := true }] })] }).hw 5 = false)) ∧
    ((Asks (asked 0x307 ([7] ++ [3] ++ List.replicate 63 0)) 0 0x307 [.f 12, .blk 512] false [7, 3])) ∧
    ((Asks (asked 0x308 ([2, 7, 9] ++ List.replicate 14 0) { sys := { mgmt := [0] } }) 0 0x308 [.f 5, .blk 128] false [2, (7 + 2 ^ 64 * 9)]) ∧ (arrayWords 16 (7 + 2 ^ 64 * 9) = ([7, 9] ++ List.replicate 14 0)) ∧ ((((asked 0x308 ([2, 7, 9] ++ List.replicate 14 0) { sys := { mgmt := [0] } }).hw.mailbox 0).pcie = true ∨ (asked 0x308 ([2, 7, 9] ++ List.replicate 14 0) { sys := { mgmt := [0] } }).hw.sys.mgmt.contains ((asked 0x308 ([2, 7, 9] ++ List.replicate 14 0) { sys := { mgmt := [0] } }).hw.mailbox 0).ringer = true)) ∧ (2 ≤ 16) ∧ ((([7, 9] ++ List.replicate 14 0).take 2).any (fun w => decide (4096 ≤ w)) = false) ∧ ((([7, 9] ++ List.replicate 14 0).drop 2).any (fun w => w != 0) = false)) ∧
    ((Asks (asked 0x309 [7]) 0 0x309 [.f 12] false [7])) ∧
    ((Asks (asked 0x30A [7]) 0 0x30A [.f 12] false [7])) ∧
    (((running { changes := [{ kind := 1, mailbox := 2, regions := [5], scanned := 2 ^ 32 - 1 }] }).hw.changes.find? (fun x => x.mailbox == (2 : Fin 16).val && x.kind != 2) = some ({ kind := 1, mailbox := 2, regions := [5], scanned := 2 ^ 32 - 1 } : Change)) ∧ (drains (running { changes := [{ kind := 1, mailbox := 2, regions := [5], scanned := 2 ^ 32 - 1 }] }).hw ({ kind := 1, mailbox := 2, regions := [5], scanned := 2 ^ 32 - 1 } : Change) = false) ∧ (recalls (running { changes := [{ kind := 1, mailbox := 2, regions := [5], scanned := 2 ^ 32 - 1 }] }).hw ({ kind := 1, mailbox := 2, regions := [5], scanned := 2 ^ 32 - 1 } : Change) = false) ∧ (partnerBehind (running { changes := [{ kind := 1, mailbox := 2, regions := [5], scanned := 2 ^ 32 - 1 }] }).hw ({ kind := 1, mailbox := 2, regions := [5], scanned := 2 ^ 32 - 1 } : Change).regions = false) ∧ (({ kind := 1, mailbox := 2, regions := [5], scanned := 2 ^ 32 - 1 } : Change).kind = 1) ∧ (({ kind := 1, mailbox := 2, regions := [5], scanned := 2 ^ 32 - 1 } : Change).answers = true)) ∧
    (((running { sys := { memory := 2 }, changes := [{ kind := 2, mailbox := 2, node := 7 }] }).hw.changes.find? (fun x => x.mailbox == (2 : Fin 16).val) = some ({ kind := 2, mailbox := 2, node := 7 } : Change)) ∧ (({ kind := 2, mailbox := 2, node := 7 } : Change).kind = 2)) ∧
    ((((running { sys := { memory := 2 }, regions := [(5, { state := 3, granules := 1 })] }).hw.region 5).state = 3) ∧ (((running { sys := { memory := 2 }, regions := [(5, { state := 3, granules := 1 })] }).hw.region 5).mirrored = false)) ∧
    (((running { changes := [{ kind := 2, mailbox := 2, node := 7, scanned := 2 ^ 32 - 1 }] }).hw.changes.find? (fun x => x.kind == 2 && x.node == 7) = some ({ kind := 2, mailbox := 2, node := 7, scanned := 2 ^ 32 - 1 } : Change)) ∧ (({ kind := 2, mailbox := 2, node := 7, scanned := 2 ^ 32 - 1 } : Change).scanned = 2 ^ 32 - 1) ∧ (((running { changes := [{ kind := 2, mailbox := 2, node := 7, scanned := 2 ^ 32 - 1 }] }).hw.dirs.any fun p => p.2.entries.any fun e => !e.2.vector && e.2.ptrs.contains 7) = false) ∧ (stillOpen (running { changes := [{ kind := 2, mailbox := 2, node := 7, scanned := 2 ^ 32 - 1 }] }).hw 7 ({ kind := 2, mailbox := 2, node := 7, scanned := 2 ^ 32 - 1 } : Change).serial = false) ∧ (({ kind := 2, mailbox := 2, node := 7, scanned := 2 ^ 32 - 1 } : Change).answers = true)) := by
  refine ⟨?_, ?_, ?_, ?_, ?_, ?_, ?_, ?_, ?_, ?_, ?_, ?_, ?_, ?_⟩ <;> decide +kernel

theorem witness_PlainRequestsComplete :
    ((Admitted badRequest (running { sys := { memory := 2, moduleId := 2 }, regions := [(3, { state := 1, kind := 1, granules := 1, acl := [{ id := 1, r := true, w := true, atomic := true }] })] }) 1 (mkPacket 1 0 0 2 1 5 (leBytes 16 (2 * 2 ^ 48))) 3 1 0 0 0 ((taken (running { sys := { memory := 2, moduleId := 2 }, regions := [(3, { state := 1, kind := 1, granules := 1, acl := [{ id := 1, r := true, w := true, atomic := true }] })] }) (mkPacket 1 0 0 2 1 5 (leBytes 16 (2 * 2 ^ 48)))).hw)) ∧ (1 ≠ 0) ∧ (mcsServesAll (entered (running { sys := { memory := 2, moduleId := 2 }, regions := [(3, { state := 1, kind := 1, granules := 1, acl := [{ id := 1, r := true, w := true, atomic := true }] })] }) (mkPacket 1 0 0 2 1 5 (leBytes 16 (2 * 2 ^ 48))) ((taken (running { sys := { memory := 2, moduleId := 2 }, regions := [(3, { state := 1, kind := 1, granules := 1, acl := [{ id := 1, r := true, w := true, atomic := true }] })] }) (mkPacket 1 0 0 2 1 5 (leBytes 16 (2 * 2 ^ 48)))).hw)).hw 0 1 = true)) ∧
    ((Admitted badRequest (running { sys := { memory := 2, moduleId := 2 }, regions := [(3, { state := 1, kind := 1, granules := 1, acl := [{ id := 1, r := true, w := true, atomic := true }] })] }) 2 (mkPacket 2 0 0 2 1 5 (leBytes 16 (2 * 2 ^ 48))) 3 1 0 0 0 ((taken (running { sys := { memory := 2, moduleId := 2 }, regions := [(3, { state := 1, kind := 1, granules := 1, acl := [{ id := 1, r := true, w := true, atomic := true }] })] }) (mkPacket 2 0 0 2 1 5 (leBytes 16 (2 * 2 ^ 48)))).hw)) ∧ (1 ≠ 0) ∧ (mcsServesAll (entered (running { sys := { memory := 2, moduleId := 2 }, regions := [(3, { state := 1, kind := 1, granules := 1, acl := [{ id := 1, r := true, w := true, atomic := true }] })] }) (mkPacket 2 0 0 2 1 5 (leBytes 16 (2 * 2 ^ 48))) ((taken (running { sys := { memory := 2, moduleId := 2 }, regions := [(3, { state := 1, kind := 1, granules := 1, acl := [{ id := 1, r := true, w := true, atomic := true }] })] }) (mkPacket 2 0 0 2 1 5 (leBytes 16 (2 * 2 ^ 48)))).hw)).hw 0 1 = true)) ∧
    ((Admitted badRequest (running { sys := { memory := 2, moduleId := 2 }, regions := [(3, { state := 1, kind := 1, granules := 1, acl := [{ id := 1, r := true, w := true, atomic := true }] })] }) 3 (mkPacket 3 0 0 2 1 5 (leBytes 16 (2 * 2 ^ 48))) 3 1 0 0 0 ((taken (running { sys := { memory := 2, moduleId := 2 }, regions := [(3, { state := 1, kind := 1, granules := 1, acl := [{ id := 1, r := true, w := true, atomic := true }] })] }) (mkPacket 3 0 0 2 1 5 (leBytes 16 (2 * 2 ^ 48)))).hw)) ∧ (1 ≠ 0) ∧ (mcsServesAll (entered (running { sys := { memory := 2, moduleId := 2 }, regions := [(3, { state := 1, kind := 1, granules := 1, acl := [{ id := 1, r := true, w := true, atomic := true }] })] }) (mkPacket 3 0 0 2 1 5 (leBytes 16 (2 * 2 ^ 48))) ((taken (running { sys := { memory := 2, moduleId := 2 }, regions := [(3, { state := 1, kind := 1, granules := 1, acl := [{ id := 1, r := true, w := true, atomic := true }] })] }) (mkPacket 3 0 0 2 1 5 (leBytes 16 (2 * 2 ^ 48)))).hw)).hw 0 1 = true)) ∧
    ((Admitted badRequest (running { sys := { memory := 2, moduleId := 2 }, regions := [(3, { state := 1, kind := 1, granules := 1, acl := [{ id := 1, r := true, w := true, atomic := true }] })] }) 4 (mkPacket 4 0 0 2 1 5 (leBytes 16 (2 * 2 ^ 48))) 3 1 0 0 0 ((taken (running { sys := { memory := 2, moduleId := 2 }, regions := [(3, { state := 1, kind := 1, granules := 1, acl := [{ id := 1, r := true, w := true, atomic := true }] })] }) (mkPacket 4 0 0 2 1 5 (leBytes 16 (2 * 2 ^ 48)))).hw)) ∧ (1 ≠ 0) ∧ (mcsServesAll (entered (running { sys := { memory := 2, moduleId := 2 }, regions := [(3, { state := 1, kind := 1, granules := 1, acl := [{ id := 1, r := true, w := true, atomic := true }] })] }) (mkPacket 4 0 0 2 1 5 (leBytes 16 (2 * 2 ^ 48))) ((taken (running { sys := { memory := 2, moduleId := 2 }, regions := [(3, { state := 1, kind := 1, granules := 1, acl := [{ id := 1, r := true, w := true, atomic := true }] })] }) (mkPacket 4 0 0 2 1 5 (leBytes 16 (2 * 2 ^ 48)))).hw)).hw 0 1 = true)) ∧
    ((Admitted badRequest (running { sys := { memory := 2, moduleId := 2 }, regions := [(3, { state := 1, kind := 1, granules := 1, acl := [{ id := 1, r := true, w := true, atomic := true }] })] }) 5 (mkPacket 5 0 0 2 1 5 (leBytes 16 (2 * 2 ^ 48) ++ leBytes 128 7)) 3 1 0 0 0 ((taken (running { sys := { memory := 2, moduleId := 2 }, regions := [(3, { state := 1, kind := 1, granules := 1, acl := [{ id := 1, r := true, w := true, atomic := true }] })] }) (mkPacket 5 0 0 2 1 5 (leBytes 16 (2 * 2 ^ 48) ++ leBytes 128 7))).hw)) ∧ (1 ≠ 0) ∧ (mcsServesAll (entered (running { sys := { memory := 2, moduleId := 2 }, regions := [(3, { state := 1, kind := 1, granules := 1, acl := [{ id := 1, r := true, w := true, atomic := true }] })] }) (mkPacket 5 0 0 2 1 5 (leBytes 16 (2 * 2 ^ 48) ++ leBytes 128 7)) ((taken (running { sys := { memory := 2, moduleId := 2 }, regions := [(3, { state := 1, kind := 1, granules := 1, acl := [{ id := 1, r := true, w := true, atomic := true }] })] }) (mkPacket 5 0 0 2 1 5 (leBytes 16 (2 * 2 ^ 48) ++ leBytes 128 7))).hw)).hw 0 1 = true)) ∧
    ((Admitted badRequest (running { sys := { memory := 2, moduleId := 2 }, regions := [(3, { state := 1, kind := 1, granules := 1, acl := [{ id := 1, r := true, w := true, atomic := true }] })] }) 6 (mkPacket 6 0 0 2 1 5 (leBytes 16 (2 * 2 ^ 48) ++ leBytes 16 255 ++ leBytes 128 7)) 3 1 0 0 0 ((taken (running { sys := { memory := 2, moduleId := 2 }, regions := [(3, { state := 1, kind := 1, granules := 1, acl := [{ id := 1, r := true, w := true, atomic := true }] })] }) (mkPacket 6 0 0 2 1 5 (leBytes 16 (2 * 2 ^ 48) ++ leBytes 16 255 ++ leBytes 128 7))).hw)) ∧ (1 ≠ 0) ∧ (mcsServesAll (entered (running { sys := { memory := 2, moduleId := 2 }, regions := [(3, { state := 1, kind := 1, granules := 1, acl := [{ id := 1, r := true, w := true, atomic := true }] })] }) (mkPacket 6 0 0 2 1 5 (leBytes 16 (2 * 2 ^ 48) ++ leBytes 16 255 ++ leBytes 128 7)) ((taken (running { sys := { memory := 2, moduleId := 2 }, regions := [(3, { state := 1, kind := 1, granules := 1, acl := [{ id := 1, r := true, w := true, atomic := true }] })] }) (mkPacket 6 0 0 2 1 5 (leBytes 16 (2 * 2 ^ 48) ++ leBytes 16 255 ++ leBytes 128 7))).hw)).hw 0 1 = true)) ∧
    ((Admitted badRequest (running { sys := { memory := 2, moduleId := 2 }, regions := [(3, { state := 1, kind := 1, granules := 1, acl := [{ id := 1, r := true, w := true, atomic := true }] })] }) 7 (mkPacket 7 0 0 2 1 5 (leBytes 16 (2 * 2 ^ 48) ++ leBytes 48 1)) 3 1 0 0 0 ((taken (running { sys := { memory := 2, moduleId := 2 }, regions := [(3, { state := 1, kind := 1, granules := 1, acl := [{ id := 1, r := true, w := true, atomic := true }] })] }) (mkPacket 7 0 0 2 1 5 (leBytes 16 (2 * 2 ^ 48) ++ leBytes 48 1))).hw)) ∧ (1 ≠ 0) ∧ (mcsServesAll (entered (running { sys := { memory := 2, moduleId := 2 }, regions := [(3, { state := 1, kind := 1, granules := 1, acl := [{ id := 1, r := true, w := true, atomic := true }] })] }) (mkPacket 7 0 0 2 1 5 (leBytes 16 (2 * 2 ^ 48) ++ leBytes 48 1)) ((taken (running { sys := { memory := 2, moduleId := 2 }, regions := [(3, { state := 1, kind := 1, granules := 1, acl := [{ id := 1, r := true, w := true, atomic := true }] })] }) (mkPacket 7 0 0 2 1 5 (leBytes 16 (2 * 2 ^ 48) ++ leBytes 48 1))).hw)).hw 0 1 = true)) ∧
    ((Admitted badRequest (running { sys := { memory := 2, moduleId := 2 }, regions := [(3, { state := 1, kind := 1, granules := 1, acl := [{ id := 1, r := true, w := true, atomic := true }] })] }) 8 (mkPacket 8 0 0 2 1 5 (leBytes 16 (2 * 2 ^ 48))) 3 1 0 0 0 ((taken (running { sys := { memory := 2, moduleId := 2 }, regions := [(3, { state := 1, kind := 1, granules := 1, acl := [{ id := 1, r := true, w := true, atomic := true }] })] }) (mkPacket 8 0 0 2 1 5 (leBytes 16 (2 * 2 ^ 48)))).hw)) ∧ (1 ≠ 0)) := by
  refine ⟨?_, ?_, ?_, ?_, ?_, ?_, ?_, ?_⟩ <;> decide +kernel

theorem witness_GrantsAndBulkComplete :
    ((Admitted badRequest (running { sys := { memory := 2, moduleId := 2 }, regions := [(3, { state := 1, kind := 0, granules := 1, acl := [{ id := 1, r := true, w := true, atomic := true }] })] }) 1 (mkPacket 1 0 0 2 1 5 (leBytes 16 (2 * 2 ^ 48))) 3 0 0 0 0 ((taken (running { sys := { memory := 2, moduleId := 2 }, regions := [(3, { state := 1, kind := 0, granules := 1, acl := [{ id := 1, r := true, w := true, atomic := true }] })] }) (mkPacket 1 0 0 2 1 5 (leBytes 16 (2 * 2 ^ 48)))).hw)) ∧ (0 = 0) ∧ (((entered (running { sys := { memory := 2, moduleId := 2 }, regions := [(3, { state := 1, kind := 0, granules := 1, acl := [{ id := 1, r := true, w := true, atomic := true }] })] }) (mkPacket 1 0 0 2 1 5 (leBytes 16 (2 * 2 ^ 48))) ((taken (running { sys := { memory := 2, moduleId := 2 }, regions := [(3, { state := 1, kind := 0, granules := 1, acl := [{ id := 1, r := true, w := true, atomic := true }] })] }) (mkPacket 1 0 0 2 1 5 (leBytes 16 (2 * 2 ^ 48)))).hw)).hw.dir (homeTile (mkPacket 1 0 0 2 1 5 (leBytes 16 (2 * 2 ^ 48))))).overflow = []) ∧ (((entered (running { sys := { memory := 2, moduleId := 2 }, regions := [(3, { state := 1, kind := 0, granules := 1, acl := [{ id := 1, r := true, w := true, atomic := true }] })] }) (mkPacket 1 0 0 2 1 5 (leBytes 16 (2 * 2 ^ 48))) ((taken (running { sys := { memory := 2, moduleId := 2 }, regions := [(3, { state := 1, kind := 0, granules := 1, acl := [{ id := 1, r := true, w := true, atomic := true }] })] }) (mkPacket 1 0 0 2 1 5 (leBytes 16 (2 * 2 ^ 48)))).hw)).hw.dir (homeTile (mkPacket 1 0 0 2 1 5 (leBytes 16 (2 * 2 ^ 48))))).txnOf (0 / 128) = none) ∧ (((entered (running { sys := { memory := 2, moduleId := 2 }, regions := [(3, { state := 1, kind := 0, granules := 1, acl := [{ id := 1, r := true, w := true, atomic := true }] })] }) (mkPacket 1 0 0 2 1 5 (leBytes 16 (2 * 2 ^ 48))) ((taken (running { sys := { memory := 2, moduleId := 2 }, regions := [(3, { state := 1, kind := 0, granules := 1, acl := [{ id := 1, r := true, w := true, atomic := true }] })] }) (mkPacket 1 0 0 2 1 5 (leBytes 16 (2 * 2 ^ 48)))).hw)).hw.dir (homeTile (mkPacket 1 0 0 2 1 5 (leBytes 16 (2 * 2 ^ 48))))).broken.contains (0 / 128) = false) ∧ (KMap.find? ((entered (running { sys := { memory := 2, moduleId := 2 }, regions := [(3, { state := 1, kind := 0, granules := 1, acl := [{ id := 1, r := true, w := true, atomic := true }] })] }) (mkPacket 1 0 0 2 1 5 (leBytes 16 (2 * 2 ^ 48))) ((taken (running { sys := { memory := 2, moduleId := 2 }, regions := [(3, { state := 1, kind := 0, granules := 1, acl := [{ id := 1, r := true, w := true, atomic := true }] })] }) (mkPacket 1 0 0 2 1 5 (leBytes 16 (2 * 2 ^ 48)))).hw)).hw.dir (homeTile (mkPacket 1 0 0 2 1 5 (leBytes 16 (2 * 2 ^ 48))))).entries (0 / 128) = none) ∧ (wayFree ((entered (running { sys := { memory := 2, moduleId := 2 }, regions := [(3, { state := 1, kind := 0, granules := 1, acl := [{ id := 1, r := true, w := true, atomic := true }] })] }) (mkPacket 1 0 0 2 1 5 (leBytes 16 (2 * 2 ^ 48))) ((taken (running { sys := { memory := 2, moduleId := 2 }, regions := [(3, { state := 1, kind := 0, granules := 1, acl := [{ id := 1, r := true, w := true, atomic := true }] })] }) (mkPacket 1 0 0 2 1 5 (leBytes 16 (2 * 2 ^ 48)))).hw)).hw.dir (homeTile (mkPacket 1 0 0 2 1 5 (leBytes 16 (2 * 2 ^ 48))))) (0 / 128) = true) ∧ (takeSlot (entered (running { sys := { memory := 2, moduleId := 2 }, regions := [(3, { state := 1, kind := 0, granules := 1, acl := [{ id := 1, r := true, w := true, atomic := true }] })] }) (mkPacket 1 0 0 2 1 5 (leBytes 16 (2 * 2 ^ 48))) ((taken (running { sys := { memory := 2, moduleId := 2 }, regions := [(3, { state := 1, kind := 0, granules := 1, acl := [{ id := 1, r := true, w := true, atomic := true }] })] }) (mkPacket 1 0 0 2 1 5 (leBytes 16 (2 * 2 ^ 48)))).hw)).hw (homeTile (mkPacket 1 0 0 2 1 5 (leBytes 16 (2 * 2 ^ 48)))) none (txnFor (messageReq 3 (enteredSerial (mkPacket 1 0 0 2 1 5 (leBytes 16 (2 * 2 ^ 48))) ((taken (running { sys := { memory := 2, moduleId := 2 }, regions := [(3, { state := 1, kind := 0, granules := 1, acl := [{ id := 1, r := true, w := true, atomic := true }] })] }) (mkPacket 1 0 0 2 1 5 (leBytes 16 (2 * 2 ^ 48)))).hw)) 0 (mkPacket 1 0 0 2 1 5 (leBytes 16 (2 * 2 ^ 48)))) 6) = some (0, ((entered (running { sys := { memory := 2, moduleId := 2 }, regions := [(3, { state := 1, kind := 0, granules := 1, acl := [{ id := 1, r := true, w := true, atomic := true }] })] }) (mkPacket 1 0 0 2 1 5 (leBytes 16 (2 * 2 ^ 48))) (taken (running { sys := { memory := 2, moduleId := 2 }, regions := [(3, { state := 1, kind := 0, granules := 1, acl := [{ id := 1, r := true, w := true, atomic := true }] })] }) (mkPacket 1 0 0 2 1 5 (leBytes 16 (2 * 2 ^ 48)))).hw).hw.modDir 0 fun d => { d with txns := KMap.ins d.txns 0 (txnFor (messageReq 3 (enteredSerial (mkPacket 1 0 0 2 1 5 (leBytes 16 (2 * 2 ^ 48))) (taken (running { sys := { memory := 2, moduleId := 2 }, regions := [(3, { state := 1, kind := 0, granules := 1, acl := [{ id := 1, r := true, w := true, atomic := true }] })] }) (mkPacket 1 0 0 2 1 5 (leBytes 16 (2 * 2 ^ 48)))).hw) 0 (mkPacket 1 0 0 2 1 5 (leBytes 16 (2 * 2 ^ 48)))) 6) })))) ∧
    ((Admitted badRequest (running { sys := { memory := 2, moduleId := 2 }, regions := [(3, { state := 1, kind := 0, granules := 1, acl := [{ id := 1, r := true, w := true, atomic := true }] })] }) 2 (mkPacket 2 0 0 2 1 5 (leBytes 16 (2 * 2 ^ 48))) 3 0 0 0 0 ((taken (running { sys := { memory := 2, moduleId := 2 }, regions := [(3, { state := 1, kind := 0, granules := 1, acl := [{ id := 1, r := true, w := true, atomic := true }] })] }) (mkPacket 2 0 0 2 1 5 (leBytes 16 (2 * 2 ^ 48)))).hw)) ∧ (0 = 0) ∧ (((entered (running { sys := { memory := 2, moduleId := 2 }, regions := [(3, { state := 1, kind := 0, granules := 1, acl := [{ id := 1, r := true, w := true, atomic := true }] })] }) (mkPacket 2 0 0 2 1 5 (leBytes 16 (2 * 2 ^ 48))) ((taken (running { sys := { memory := 2, moduleId := 2 }, regions := [(3, { state := 1, kind := 0, granules := 1, acl := [{ id := 1, r := true, w := true, atomic := true }] })] }) (mkPacket 2 0 0 2 1 5 (leBytes 16 (2 * 2 ^ 48)))).hw)).hw.dir (homeTile (mkPacket 2 0 0 2 1 5 (leBytes 16 (2 * 2 ^ 48))))).overflow = []) ∧ (((entered (running { sys := { memory := 2, moduleId := 2 }, regions := [(3, { state := 1, kind := 0, granules := 1, acl := [{ id := 1, r := true, w := true, atomic := true }] })] }) (mkPacket 2 0 0 2 1 5 (leBytes 16 (2 * 2 ^ 48))) ((taken (running { sys := { memory := 2, moduleId := 2 }, regions := [(3, { state := 1, kind := 0, granules := 1, acl := [{ id := 1, r := true, w := true, atomic := true }] })] }) (mkPacket 2 0 0 2 1 5 (leBytes 16 (2 * 2 ^ 48)))).hw)).hw.dir (homeTile (mkPacket 2 0 0 2 1 5 (leBytes 16 (2 * 2 ^ 48))))).txnOf (0 / 128) = none) ∧ (((entered (running { sys := { memory := 2, moduleId := 2 }, regions := [(3, { state := 1, kind := 0, granules := 1, acl := [{ id := 1, r := true, w := true, atomic := true }] })] }) (mkPacket 2 0 0 2 1 5 (leBytes 16 (2 * 2 ^ 48))) ((taken (running { sys := { memory := 2, moduleId := 2 }, regions := [(3, { state := 1, kind := 0, granules := 1, acl := [{ id := 1, r := true, w := true, atomic := true }] })] }) (mkPacket 2 0 0 2 1 5 (leBytes 16 (2 * 2 ^ 48)))).hw)).hw.dir (homeTile (mkPacket 2 0 0 2 1 5 (leBytes 16 (2 * 2 ^ 48))))).broken.contains (0 / 128) = false) ∧ (KMap.find? ((entered (running { sys := { memory := 2, moduleId := 2 }, regions := [(3, { state := 1, kind := 0, granules := 1, acl := [{ id := 1, r := true, w := true, atomic := true }] })] }) (mkPacket 2 0 0 2 1 5 (leBytes 16 (2 * 2 ^ 48))) ((taken (running { sys := { memory := 2, moduleId := 2 }, regions := [(3, { state := 1, kind := 0, granules := 1, acl := [{ id := 1, r := true, w := true, atomic := true }] })] }) (mkPacket 2 0 0 2 1 5 (leBytes 16 (2 * 2 ^ 48)))).hw)).hw.dir (homeTile (mkPacket 2 0 0 2 1 5 (leBytes 16 (2 * 2 ^ 48))))).entries (0 / 128) = none) ∧ (wayFree ((entered (running { sys := { memory := 2, moduleId := 2 }, regions := [(3, { state := 1, kind := 0, granules := 1, acl := [{ id := 1, r := true, w := true, atomic := true }] })] }) (mkPacket 2 0 0 2 1 5 (leBytes 16 (2 * 2 ^ 48))) ((taken (running { sys := { memory := 2, moduleId := 2 }, regions := [(3, { state := 1, kind := 0, granules := 1, acl := [{ id := 1, r := true, w := true, atomic := true }] })] }) (mkPacket 2 0 0 2 1 5 (leBytes 16 (2 * 2 ^ 48)))).hw)).hw.dir (homeTile (mkPacket 2 0 0 2 1 5 (leBytes 16 (2 * 2 ^ 48))))) (0 / 128) = true) ∧ (takeSlot (entered (running { sys := { memory := 2, moduleId := 2 }, regions := [(3, { state := 1, kind := 0, granules := 1, acl := [{ id := 1, r := true, w := true, atomic := true }] })] }) (mkPacket 2 0 0 2 1 5 (leBytes 16 (2 * 2 ^ 48))) ((taken (running { sys := { memory := 2, moduleId := 2 }, regions := [(3, { state := 1, kind := 0, granules := 1, acl := [{ id := 1, r := true, w := true, atomic := true }] })] }) (mkPacket 2 0 0 2 1 5 (leBytes 16 (2 * 2 ^ 48)))).hw)).hw (homeTile (mkPacket 2 0 0 2 1 5 (leBytes 16 (2 * 2 ^ 48)))) none (txnFor (messageReq 3 (enteredSerial (mkPacket 2 0 0 2 1 5 (leBytes 16 (2 * 2 ^ 48))) ((taken (running { sys := { memory := 2, moduleId := 2 }, regions := [(3, { state := 1, kind := 0, granules := 1, acl := [{ id := 1, r := true, w := true, atomic := true }] })] }) (mkPacket 2 0 0 2 1 5 (leBytes 16 (2 * 2 ^ 48)))).hw)) 0 (mkPacket 2 0 0 2 1 5 (leBytes 16 (2 * 2 ^ 48)))) 6) = some (0, ((entered (running { sys := { memory := 2, moduleId := 2 }, regions := [(3, { state := 1, kind := 0, granules := 1, acl := [{ id := 1, r := true, w := true, atomic := true }] })] }) (mkPacket 2 0 0 2 1 5 (leBytes 16 (2 * 2 ^ 48))) (taken (running { sys := { memory := 2, moduleId := 2 }, regions := [(3, { state := 1, kind := 0, granules := 1, acl := [{ id := 1, r := true, w := true, atomic := true }] })] }) (mkPacket 2 0 0 2 1 5 (leBytes 16 (2 * 2 ^ 48)))).hw).hw.modDir 0 fun d => { d with txns := KMap.ins d.txns 0 (txnFor (messageReq 3 (enteredSerial (mkPacket 2 0 0 2 1 5 (leBytes 16 (2 * 2 ^ 48))) (taken (running { sys := { memory := 2, moduleId := 2 }, regions := [(3, { state := 1, kind := 0, granules := 1, acl := [{ id := 1, r := true, w := true, atomic := true }] })] }) (mkPacket 2 0 0 2 1 5 (leBytes 16 (2 * 2 ^ 48)))).hw) 0 (mkPacket 2 0 0 2 1 5 (leBytes 16 (2 * 2 ^ 48)))) 6) })))) ∧
    ((Admitted badRequest (running { sys := { memory := 2, moduleId := 2 }, regions := [(3, { state := 1, kind := 0, granules := 1, acl := [{ id := 1, r := true, w := true, atomic := true }] })] }) 3 (mkPacket 3 0 0 2 1 5 (leBytes 16 (2 * 2 ^ 48))) 3 0 0 0 0 ((taken (running { sys := { memory := 2, moduleId := 2 }, regions := [(3, { state := 1, kind := 0, granules := 1, acl := [{ id := 1, r := true, w := true, atomic := true }] })] }) (mkPacket 3 0 0 2 1 5 (leBytes 16 (2 * 2 ^ 48)))).hw)) ∧ (0 = 0) ∧ (((entered (running { sys := { memory := 2, moduleId := 2 }, regions := [(3, { state := 1, kind := 0, granules := 1, acl := [{ id := 1, r := true, w := true, atomic := true }] })] }) (mkPacket 3 0 0 2 1 5 (leBytes 16 (2 * 2 ^ 48))) ((taken (running { sys := { memory := 2, moduleId := 2 }, regions := [(3, { state := 1, kind := 0, granules := 1, acl := [{ id := 1, r := true, w := true, atomic := true }] })] }) (mkPacket 3 0 0 2 1 5 (leBytes 16 (2 * 2 ^ 48)))).hw)).hw.dir (homeTile (mkPacket 3 0 0 2 1 5 (leBytes 16 (2 * 2 ^ 48))))).overflow = []) ∧ (((entered (running { sys := { memory := 2, moduleId := 2 }, regions := [(3, { state := 1, kind := 0, granules := 1, acl := [{ id := 1, r := true, w := true, atomic := true }] })] }) (mkPacket 3 0 0 2 1 5 (leBytes 16 (2 * 2 ^ 48))) ((taken (running { sys := { memory := 2, moduleId := 2 }, regions := [(3, { state := 1, kind := 0, granules := 1, acl := [{ id := 1, r := true, w := true, atomic := true }] })] }) (mkPacket 3 0 0 2 1 5 (leBytes 16 (2 * 2 ^ 48)))).hw)).hw.dir (homeTile (mkPacket 3 0 0 2 1 5 (leBytes 16 (2 * 2 ^ 48))))).txnOf (0 / 128) = none) ∧ (((entered (running { sys := { memory := 2, moduleId := 2 }, regions := [(3, { state := 1, kind := 0, granules := 1, acl := [{ id := 1, r := true, w := true, atomic := true }] })] }) (mkPacket 3 0 0 2 1 5 (leBytes 16 (2 * 2 ^ 48))) ((taken (running { sys := { memory := 2, moduleId := 2 }, regions := [(3, { state := 1, kind := 0, granules := 1, acl := [{ id := 1, r := true, w := true, atomic := true }] })] }) (mkPacket 3 0 0 2 1 5 (leBytes 16 (2 * 2 ^ 48)))).hw)).hw.dir (homeTile (mkPacket 3 0 0 2 1 5 (leBytes 16 (2 * 2 ^ 48))))).broken.contains (0 / 128) = false) ∧ (KMap.find? ((entered (running { sys := { memory := 2, moduleId := 2 }, regions := [(3, { state := 1, kind := 0, granules := 1, acl := [{ id := 1, r := true, w := true, atomic := true }] })] }) (mkPacket 3 0 0 2 1 5 (leBytes 16 (2 * 2 ^ 48))) ((taken (running { sys := { memory := 2, moduleId := 2 }, regions := [(3, { state := 1, kind := 0, granules := 1, acl := [{ id := 1, r := true, w := true, atomic := true }] })] }) (mkPacket 3 0 0 2 1 5 (leBytes 16 (2 * 2 ^ 48)))).hw)).hw.dir (homeTile (mkPacket 3 0 0 2 1 5 (leBytes 16 (2 * 2 ^ 48))))).entries (0 / 128) = none) ∧ (wayFree ((entered (running { sys := { memory := 2, moduleId := 2 }, regions := [(3, { state := 1, kind := 0, granules := 1, acl := [{ id := 1, r := true, w := true, atomic := true }] })] }) (mkPacket 3 0 0 2 1 5 (leBytes 16 (2 * 2 ^ 48))) ((taken (running { sys := { memory := 2, moduleId := 2 }, regions := [(3, { state := 1, kind := 0, granules := 1, acl := [{ id := 1, r := true, w := true, atomic := true }] })] }) (mkPacket 3 0 0 2 1 5 (leBytes 16 (2 * 2 ^ 48)))).hw)).hw.dir (homeTile (mkPacket 3 0 0 2 1 5 (leBytes 16 (2 * 2 ^ 48))))) (0 / 128) = true) ∧ (takeSlot (entered (running { sys := { memory := 2, moduleId := 2 }, regions := [(3, { state := 1, kind := 0, granules := 1, acl := [{ id := 1, r := true, w := true, atomic := true }] })] }) (mkPacket 3 0 0 2 1 5 (leBytes 16 (2 * 2 ^ 48))) ((taken (running { sys := { memory := 2, moduleId := 2 }, regions := [(3, { state := 1, kind := 0, granules := 1, acl := [{ id := 1, r := true, w := true, atomic := true }] })] }) (mkPacket 3 0 0 2 1 5 (leBytes 16 (2 * 2 ^ 48)))).hw)).hw (homeTile (mkPacket 3 0 0 2 1 5 (leBytes 16 (2 * 2 ^ 48)))) none (txnFor (messageReq 3 (enteredSerial (mkPacket 3 0 0 2 1 5 (leBytes 16 (2 * 2 ^ 48))) ((taken (running { sys := { memory := 2, moduleId := 2 }, regions := [(3, { state := 1, kind := 0, granules := 1, acl := [{ id := 1, r := true, w := true, atomic := true }] })] }) (mkPacket 3 0 0 2 1 5 (leBytes 16 (2 * 2 ^ 48)))).hw)) 0 (mkPacket 3 0 0 2 1 5 (leBytes 16 (2 * 2 ^ 48)))) 6) = some (0, ((entered (running { sys := { memory := 2, moduleId := 2 }, regions := [(3, { state := 1, kind := 0, granules := 1, acl := [{ id := 1, r := true, w := true, atomic := true }] })] }) (mkPacket 3 0 0 2 1 5 (leBytes 16 (2 * 2 ^ 48))) (taken (running { sys := { memory := 2, moduleId := 2 }, regions := [(3, { state := 1, kind := 0, granules := 1, acl := [{ id := 1, r := true, w := true, atomic := true }] })] }) (mkPacket 3 0 0 2 1 5 (leBytes 16 (2 * 2 ^ 48)))).hw).hw.modDir 0 fun d => { d with txns := KMap.ins d.txns 0 (txnFor (messageReq 3 (enteredSerial (mkPacket 3 0 0 2 1 5 (leBytes 16 (2 * 2 ^ 48))) (taken (running { sys := { memory := 2, moduleId := 2 }, regions := [(3, { state := 1, kind := 0, granules := 1, acl := [{ id := 1, r := true, w := true, atomic := true }] })] }) (mkPacket 3 0 0 2 1 5 (leBytes 16 (2 * 2 ^ 48)))).hw) 0 (mkPacket 3 0 0 2 1 5 (leBytes 16 (2 * 2 ^ 48)))) 6) })))) ∧
    ((Admitted badBulk (running { sys := { memory := 2, moduleId := 2 }, regions := [(3, { state := 1, kind := 1, granules := 1, acl := [{ id := 1, r := true, w := true, atomic := true }] })] }) 0x40 (mkPacket 0x40 4 0 2 1 5 (leBytes 16 (2 * 2 ^ 48 + 128 * 2 ^ 64))) 3 1 0 0 0 ((taken (running { sys := { memory := 2, moduleId := 2 }, regions := [(3, { state := 1, kind := 1, granules := 1, acl := [{ id := 1, r := true, w := true, atomic := true }] })] }) (mkPacket 0x40 4 0 2 1 5 (leBytes 16 (2 * 2 ^ 48 + 128 * 2 ^ 64)))).hw))) ∧
    ((Admitted badBulk (running { sys := { memory := 2, moduleId := 2 }, regions := [(3, { state := 1, kind := 1, granules := 1, acl := [{ id := 1, r := true, w := true, atomic := true }] })] }) 0x41 (mkPacket 0x41 4 0 2 1 5 (leBytes 16 (2 * 2 ^ 48 + 128 * 2 ^ 64) ++ leBytes 128 7)) 3 1 0 0 0 ((taken (running { sys := { memory := 2, moduleId := 2 }, regions := [(3, { state := 1, kind := 1, granules := 1, acl := [{ id := 1, r := true, w := true, atomic := true }] })] }) (mkPacket 0x41 4 0 2 1 5 (leBytes 16 (2 * 2 ^ 48 + 128 * 2 ^ 64) ++ leBytes 128 7))).hw))) := by
  refine ⟨?_, ?_, ?_, ?_, ?_⟩ <;> decide +kernel

theorem witness_CoherenceAnswersComplete :
    ((Awaited (running { sys := { memory := 2, moduleId := 2 }, regions := [(3, { state := 1, granules := 1, acl := [{ id := 1, r := true, w := true, atomic := true }] })], dirs := [(0, { txns := [(0, { state := 3, waits := [1, 6] })] })] }) 0x26 (mkPacket 0x26 2 0 2 1 5 (leBytes 16 (2 * 2 ^ 48))) 0 0 ({ state := 3, waits := [1, 6] } : Txn)) ∧ (({ state := 3, waits := [1, 6] } : Txn).state = 3) ∧ (({ state := 3, waits := [1, 6] } : Txn).waits.contains (mkPacket 0x26 2 0 2 1 5 (leBytes 16 (2 * 2 ^ 48))).src = true) ∧ ((({ state := 3, waits := [1, 6] } : Txn).waits.filter (fun n => n != (mkPacket 0x26 2 0 2 1 5 (leBytes 16 (2 * 2 ^ 48))).src)).isEmpty = false)) ∧
    ((Awaited (running { sys := { memory := 2, moduleId := 2 }, regions := [(3, { state := 1, granules := 1, acl := [{ id := 1, r := true, w := true, atomic := true }] })], dirs := [(0, { txns := [(0, { state := 4, owner := 1 })] })] }) 0x26 (mkPacket 0x26 2 0 2 1 5 (leBytes 16 (2 * 2 ^ 48))) 0 0 ({ state := 4, owner := 1 } : Txn)) ∧ (({ state := 4, owner := 1 } : Txn).state = 4) ∧ (({ state := 4, owner := 1 } : Txn).owner = (mkPacket 0x26 2 0 2 1 5 (leBytes 16 (2 * 2 ^ 48))).src)) ∧
    ((Awaited (running { sys := { memory := 2, moduleId := 2 }, regions := [(3, { state := 1, granules := 1, acl := [{ id := 1, r := true, w := true, atomic := true }] })], dirs := [(0, { txns := [(0, { state := 4, owner := 1, snoop := 0x10, opcode := 1, serves := .message {} })] })] }) 0x27 (mkPacket 0x27 2 0 2 1 5 (leBytes 16 (2 * 2 ^ 48))) 0 0 ({ state := 4, owner := 1, snoop := 0x10, opcode := 1, serves := .message {} } : Txn)) ∧ (({ state := 4, owner := 1, snoop := 0x10, opcode := 1, serves := .message {} } : Txn).state = 4) ∧ (({ state := 4, owner := 1, snoop := 0x10, opcode := 1, serves := .message {} } : Txn).owner = (mkPacket 0x27 2 0 2 1 5 (leBytes 16 (2 * 2 ^ 48))).src) ∧ (({ state := 4, owner := 1, snoop := 0x10, opcode := 1, serves := .message {} } : Txn).snoop = 0x10) ∧ (({ state := 4, owner := 1, snoop := 0x10, opcode := 1, serves := .message {} } : Txn).serves = .message ({} : Packet)) ∧ (({ state := 4, owner := 1, snoop := 0x10, opcode := 1, serves := .message {} } : Txn).opcode = 1)) ∧
    ((Awaited (running { sys := { memory := 2, moduleId := 2 }, regions := [(3, { state := 1, granules := 1, acl := [{ id := 1, r := true, w := true, atomic := true }] })], dirs := [(0, { txns := [(0, { state := 4, owner := 1 })] })] }) 0x28 (mkPacket 0x28 2 0 2 1 5 (leBytes 16 (2 * 2 ^ 48))) 0 0 ({ state := 4, owner := 1 } : Txn)) ∧ (({ state := 4, owner := 1 } : Txn).state = 4) ∧ (({ state := 4, owner := 1 } : Txn).owner = (mkPacket 0x28 2 0 2 1 5 (leBytes 16 (2 * 2 ^ 48))).src) ∧ (({ state := 4, owner := 1 } : Txn).data = false)) ∧
    ((Awaited (running { sys := { memory := 2, moduleId := 2 }, regions := [(3, { state := 1, granules := 1, acl := [{ id := 1, r := true, w := true, atomic := true }] })], dirs := [(0, { txns := [(0, { state := 4, owner := 1, snoop := 0x14, serves := .bulk 9 })] })] }) 0x33 (mkPacket 0x33 2 0 2 1 5 (leBytes 16 (2 * 2 ^ 48) ++ leBytes 128 7)) 0 0 ({ state := 4, owner := 1, snoop := 0x14, serves := .bulk 9 } : Txn)) ∧ (({ state := 4, owner := 1, snoop := 0x14, serves := .bulk 9 } : Txn).state = 4) ∧ (({ state := 4, owner := 1, snoop := 0x14, serves := .bulk 9 } : Txn).owner = (mkPacket 0x33 2 0 2 1 5 (leBytes 16 (2 * 2 ^ 48) ++ leBytes 128 7)).src) ∧ (({ state := 4, owner := 1, snoop := 0x14, serves := .bulk 9 } : Txn).snoop = 0x14) ∧ (({ state := 4, owner := 1, snoop := 0x14, serves := .bulk 9 } : Txn).serves = .bulk 9) ∧ (({ state := 4, owner := 1, snoop := 0x14, serves := .bulk 9 } : Txn).answered = false)) ∧
    ((Awaited (running { sys := { memory := 2, moduleId := 2 }, regions := [(3, { state := 1, granules := 1, acl := [{ id := 1, r := true, w := true, atomic := true }] })], dirs := [(0, { txns := [(0, { state := 6, requester := 1 })] })] }) 0x29 (mkPacket 0x29 2 0 2 1 5 (leBytes 16 (2 * 2 ^ 48))) 0 0 ({ state := 6, requester := 1 } : Txn)) ∧ (({ state := 6, requester := 1 } : Txn).state = 6) ∧ (({ state := 6, requester := 1 } : Txn).requester = (mkPacket 0x29 2 0 2 1 5 (leBytes 16 (2 * 2 ^ 48))).src)) ∧
    ((Awaited (running { sys := { memory := 2, moduleId := 2 }, regions := [(3, { state := 1, granules := 1, acl := [{ id := 1, r := true, w := true, atomic := true }] })], dirs := [(0, { txns := [(0, { state := 4, owner := 1, opcode := 2 })] })] }) 0x35 (mkPacket 0x35 2 0 2 1 5 (leBytes 16 (2 * 2 ^ 48) ++ leBytes 128 7)) 0 0 ({ state := 4, owner := 1, opcode := 2 } : Txn)) ∧ (({ state := 4, owner := 1, opcode := 2 } : Txn).state = 4) ∧ (({ state := 4, owner := 1, opcode := 2 } : Txn).owner = (mkPacket 0x35 2 0 2 1 5 (leBytes 16 (2 * 2 ^ 48) ++ leBytes 128 7)).src) ∧ (Packet.agentState (mkPacket 0x35 2 0 2 1 5 (leBytes 16 (2 * 2 ^ 48) ++ leBytes 128 7)) = 0)) ∧
    ((Awaited (running { sys := { memory := 2, moduleId := 2 }, regions := [(3, { state := 1, granules := 1, acl := [{ id := 1, r := true, w := true, atomic := true }] })], dirs := [(0, { txns := [(0, { state := 7, waits := [1, 6] })] })] }) 0x2A (mkPacket 0x2A 2 0 2 1 5 (leBytes 16 (2 * 2 ^ 48))) 0 0 ({ state := 7, waits := [1, 6] } : Txn)) ∧ (({ state := 7, waits := [1, 6] } : Txn).state = 7) ∧ (({ state := 7, waits := [1, 6] } : Txn).waits.contains (mkPacket 0x2A 2 0 2 1 5 (leBytes 16 (2 * 2 ^ 48))).src = true) ∧ ((({ state := 7, waits := [1, 6] } : Txn).waits.filter (fun n => n != (mkPacket 0x2A 2 0 2 1 5 (leBytes 16 (2 * 2 ^ 48))).src)).isEmpty = false)) ∧
    ((Awaited (running { sys := { memory := 2, moduleId := 2 }, regions := [(3, { state := 1, granules := 1, acl := [{ id := 1, r := true, w := true, atomic := true }] })], dirs := [(0, { txns := [(0, { state := 7, waits := [1, 6] })] })] }) 0x37 (mkPacket 0x37 2 0 2 1 5 (leBytes 16 (2 * 2 ^ 48) ++ leBytes 128 7)) 0 0 ({ state := 7, waits := [1, 6] } : Txn)) ∧ (({ state := 7, waits := [1, 6] } : Txn).state = 7) ∧ (({ state := 7, waits := [1, 6] } : Txn).waits.contains (mkPacket 0x37 2 0 2 1 5 (leBytes 16 (2 * 2 ^ 48) ++ leBytes 128 7)).src = true)) ∧
    ((Awaited (running { sys := { memory := 2, moduleId := 2 }, regions := [(3, { state := 1, granules := 1, acl := [{ id := 1, r := true, w := true, atomic := true }] })], dirs := [(0, { txns := [(0, { state := 7, waits := [1] })] })] }) 0x2A (mkPacket 0x2A 2 0 2 1 5 (leBytes 16 (2 * 2 ^ 48 + 2 ^ 107))) 0 0 ({ state := 7, waits := [1] } : Txn)) ∧ (({ state := 7, waits := [1] } : Txn).state = 7) ∧ (({ state := 7, waits := [1] } : Txn).waits = [(mkPacket 0x2A 2 0 2 1 5 (leBytes 16 (2 * 2 ^ 48 + 2 ^ 107))).src]) ∧ (({ state := 7, waits := [1] } : Txn).found = []) ∧ ((Packet.agentState (mkPacket 0x2A 2 0 2 1 5 (leBytes 16 (2 * 2 ^ 48 + 2 ^ 107))) = 2 ∨ Packet.agentState (mkPacket 0x2A 2 0 2 1 5 (leBytes 16 (2 * 2 ^ 48 + 2 ^ 107))) = 3 ∧ ({ state := 7, waits := [1] } : Txn).copied = [((mkPacket 0x2A 2 0 2 1 5 (leBytes 16 (2 * 2 ^ 48 + 2 ^ 107))).src, ({} : Packet))]))) ∧
    (((mkPacket 0x34 2 0 2 1 5 (leBytes 16 (2 * 2 ^ 48) ++ leBytes 128 7)).opcode = 0x34) ∧ (isOwn (running { sys := { memory := 2, moduleId := 2 }, regions := [(3, { state := 1, granules := 1, acl := [{ id := 1, r := true, w := true, atomic := true }] })], dirs := [(0, { txns := [(0, { state := 6, requester := 1 })] })] }).hw (mkPacket 0x34 2 0 2 1 5 (leBytes 16 (2 * 2 ^ 48) ++ leBytes 128 7)).dst = true) ∧ (badAnswer (mkPacket 0x34 2 0 2 1 5 (leBytes 16 (2 * 2 ^ 48) ++ leBytes 128 7)) = false) ∧ (coherentAddr (taken (running { sys := { memory := 2, moduleId := 2 }, regions := [(3, { state := 1, granules := 1, acl := [{ id := 1, r := true, w := true, atomic := true }] })], dirs := [(0, { txns := [(0, { state := 6, requester := 1 })] })] }) (mkPacket 0x34 2 0 2 1 5 (leBytes 16 (2 * 2 ^ 48) ++ leBytes 128 7))).hw (mkPacket 0x34 2 0 2 1 5 (leBytes 16 (2 * 2 ^ 48) ++ leBytes 128 7)) = true) ∧ ((addressFault (taken (running { sys := { memory := 2, moduleId := 2 }, regions := [(3, { state := 1, granules := 1, acl := [{ id := 1, r := true, w := true, atomic := true }] })], dirs := [(0, { txns := [(0, { state := 6, requester := 1 })] })] }) (mkPacket 0x34 2 0 2 1 5 (leBytes 16 (2 * 2 ^ 48) ++ leBytes 128 7))).hw (mkPacket 0x34 2 0 2 1 5 (leBytes 16 (2 * 2 ^ 48) ++ leBytes 128 7))).isNone = true) ∧ (isDead (taken (running { sys := { memory := 2, moduleId := 2 }, regions := [(3, { state := 1, granules := 1, acl := [{ id := 1, r := true, w := true, atomic := true }] })], dirs := [(0, { txns := [(0, { state := 6, requester := 1 })] })] }) (mkPacket 0x34 2 0 2 1 5 (leBytes 16 (2 * 2 ^ 48) ++ leBytes 128 7))).hw (mkPacket 0x34 2 0 2 1 5 (leBytes 16 (2 * 2 ^ 48) ++ leBytes 128 7)).src = false) ∧ (((taken (running { sys := { memory := 2, moduleId := 2 }, regions := [(3, { state := 1, granules := 1, acl := [{ id := 1, r := true, w := true, atomic := true }] })], dirs := [(0, { txns := [(0, { state := 6, requester := 1 })] })] }) (mkPacket 0x34 2 0 2 1 5 (leBytes 16 (2 * 2 ^ 48) ++ leBytes 128 7))).hw.dir (homeTile (mkPacket 0x34 2 0 2 1 5 (leBytes 16 (2 * 2 ^ 48) ++ leBytes 128 7)))).txnOf (homeLine (mkPacket 0x34 2 0 2 1 5 (leBytes 16 (2 * 2 ^ 48) ++ leBytes 128 7))) = some (0, ({ state := 6, requester := 1 } : Txn))) ∧ (({ state := 6, requester := 1 } : Txn).state = 6) ∧ (({ state := 6, requester := 1 } : Txn).requester = (mkPacket 0x34 2 0 2 1 5 (leBytes 16 (2 * 2 ^ 48) ++ leBytes 128 7)).src)) ∧
    ((KMap.find? ((running { sys := { memory := 2, moduleId := 2 }, regions := [(3, { state := 1, granules := 1, acl := [{ id := 1, r := true, w := true, atomic := true }] })], dirs := [(5, { txns := [(7, { state := 6, requester := 1 })] })] }).hw.dir (5 : Fin 32)).txns 7 = some ({ state := 6, requester := 1 } : Txn)) ∧ (({ state := 6, requester := 1 } : Txn).state = 6)) ∧
    ((KMap.find? ((running { sys := { memory := 2, moduleId := 2 }, regions := [(3, { state := 1, granules := 1, acl := [{ id := 1, r := true, w := true, atomic := true }] })], dirs := [(5, { txns := [(7, { state := 4, owner := 1 })] })] }).hw.dir (5 : Fin 32)).txns 7 = some ({ state := 4, owner := 1 } : Txn)) ∧ ((({ state := 4, owner := 1 } : Txn).state = 4 ∨ ({ state := 4, owner := 1 } : Txn).state = 5)) ∧ (({ state := 4, owner := 1 } : Txn).data = false)) ∧
    ((KMap.find? ((running { sys := { memory := 2, moduleId := 2 }, regions := [(3, { state := 1, granules := 1, acl := [{ id := 1, r := true, w := true, atomic := true }] })], dirs := [(5, { txns := [(7, { state := 3, waits := [1] })] })] }).hw.dir (5 : Fin 32)).txns 7 = some ({ state := 3, waits := [1] } : Txn)) ∧ (({ state := 3, waits := [1] } : Txn).state = 3)) := by
  refine ⟨?_, ?_, ?_, ?_, ?_, ?_, ?_, ?_, ?_, ?_, ?_, ?_, ?_, ?_⟩ <;> decide +kernel

theorem witness_CoherenceUpkeepComplete :
    ((((running { sys := { memory := 2, moduleId := 2 }, regions := [(3, { state := 1, granules := 1, acl := [{ id := 1, r := true, w := true, atomic := true }] })], dirs := [(5, { overflow := [{ region := 3, packet := (mkPacket 8 0 0 2 1 5 (leBytes 16 (2 * 2 ^ 48 + 5 * 4096))) }] })] }).hw.dir (5 : Fin 32)).overflow = [({ region := 3, packet := (mkPacket 8 0 0 2 1 5 (leBytes 16 (2 * 2 ^ 48 + 5 * 4096))) } : Waiting)]) ∧ (heldByTakeover (running { sys := { memory := 2, moduleId := 2 }, regions := [(3, { state := 1, granules := 1, acl := [{ id := 1, r := true, w := true, atomic := true }] })], dirs := [(5, { overflow := [{ region := 3, packet := (mkPacket 8 0 0 2 1 5 (leBytes 16 (2 * 2 ^ 48 + 5 * 4096))) }] })] }).hw ({ region := 3, packet := (mkPacket 8 0 0 2 1 5 (leBytes 16 (2 * 2 ^ 48 + 5 * 4096))) } : Waiting).packet = false) ∧ (serveMessage (running { sys := { memory := 2, moduleId := 2 }, regions := [(3, { state := 1, granules := 1, acl := [{ id := 1, r := true, w := true, atomic := true }] })], dirs := [(5, { overflow := [{ region := 3, packet := (mkPacket 8 0 0 2 1 5 (leBytes 16 (2 * 2 ^ 48 + 5 * 4096))) }] })] }) (5 : Fin 32) (messageReq ({ region := 3, packet := (mkPacket 8 0 0 2 1 5 (leBytes 16 (2 * 2 ^ 48 + 5 * 4096))) } : Waiting).region ({ region := 3, packet := (mkPacket 8 0 0 2 1 5 (leBytes 16 (2 * 2 ^ 48 + 5 * 4096))) } : Waiting).serial (fpaOffset (Packet.addr ({ region := 3, packet := (mkPacket 8 0 0 2 1 5 (leBytes 16 (2 * 2 ^ 48 + 5 * 4096))) } : Waiting).packet) / 128 * 128 + fpaOffset (Packet.addr ({ region := 3, packet := (mkPacket 8 0 0 2 1 5 (leBytes 16 (2 * 2 ^ 48 + 5 * 4096))) } : Waiting).packet) % 128) ({ region := 3, packet := (mkPacket 8 0 0 2 1 5 (leBytes 16 (2 * 2 ^ 48 + 5 * 4096))) } : Waiting).packet) ({ region := 3, packet := (mkPacket 8 0 0 2 1 5 (leBytes 16 (2 * 2 ^ 48 + 5 * 4096))) } : Waiting).packet = (((running { sys := { memory := 2, moduleId := 2 }, regions := [(3, { state := 1, granules := 1, acl := [{ id := 1, r := true, w := true, atomic := true }] })], dirs := [(5, { overflow := [{ region := 3, packet := (mkPacket 8 0 0 2 1 5 (leBytes 16 (2 * 2 ^ 48 + 5 * 4096))) }] })] }).onHw fun h => evictLine h 5 (mkPacket 8 0 0 2 1 5 (leBytes 16 (2 * 2 ^ 48 + 5 * 4096)))), true))) ∧
    ((((running { dirs := [(5, { filter := [{ outcome := 1 }] })] }).hw.dir (5 : Fin 32)).filter = ({ outcome := 1 } : FilterEntry) :: ([])) ∧ (({ outcome := 1 } : FilterEntry).outcome ≠ 0)) ∧
    ((readsDram (running { mems := { slices := [(0, { pcs := [(0, { state := 3 })] })] } }).hw 0 = true) ∧ ((decodeWord (nxor (encodeWord (leNat ((running { mems := { slices := [(0, { pcs := [(0, { state := 3 })] })] } }).pool.bytes (8 * 0) 8)) ((running { mems := { slices := [(0, { pcs := [(0, { state := 3 })] })] } }).pool.poisoned 0)) (nxor (KMap.getD (running { mems := { slices := [(0, { pcs := [(0, { state := 3 })] })] } }).pool.errs 0 0) (7 : BitVec 80).toNat % 2 ^ 80))).flips = none) ∧ (copyHeld (running { mems := { slices := [(0, { pcs := [(0, { state := 3 })] })] } }) 0 = false)) ∧
    ((readsDram (running { mems := { slices := [(0, { pcs := [(0, { state := 3 })] })] } }).hw 0 = true) ∧ ((decodeWord (nxor (encodeWord (leNat ((running { mems := { slices := [(0, { pcs := [(0, { state := 3 })] })] } }).pool.bytes (8 * 0) 8)) ((running { mems := { slices := [(0, { pcs := [(0, { state := 3 })] })] } }).pool.poisoned 0)) (nxor (KMap.getD (running { mems := { slices := [(0, { pcs := [(0, { state := 3 })] })] } }).pool.errs 0 0) (8 : BitVec 80).toNat % 2 ^ 80))).flips = some [3]) ∧ (tbit (flipBits (nxor (encodeWord (leNat ((running { mems := { slices := [(0, { pcs := [(0, { state := 3 })] })] } }).pool.bytes (8 * 0) 8)) ((running { mems := { slices := [(0, { pcs := [(0, { state := 3 })] })] } }).pool.poisoned 0)) (nxor (KMap.getD (running { mems := { slices := [(0, { pcs := [(0, { state := 3 })] })] } }).pool.errs 0 0) (8 : BitVec 80).toNat % 2 ^ 80)) [3]) 78 = false)) ∧
    ((KMap.has (running { queues := [(3, { scratch := 1 })] }).hw.queues 3 = true) ∧ (70 < 65536 * ((running { queues := [(3, { scratch := 1 })] }).hw.queue 3).scratch)) ∧
    ((uncorrectable (7 : BitVec 80).toNat = true) ∧ (KMap.has ((running { dirs := [(0, { entries := [(3, {})] })] }).hw.dir (tileOf (3 * 128))).entries 3 = true)) ∧
    ((0x10 ≤ (mkPacket 0x12 1 0 2 1 5 (leBytes 16 0)).opcode) ∧ ((mkPacket 0x12 1 0 2 1 5 (leBytes 16 0)).opcode ≤ 0x15) ∧ (isOwn (running { sys := { moduleId := 2 } }).hw (mkPacket 0x12 1 0 2 1 5 (leBytes 16 0)).dst = true) ∧ (badAnswer (mkPacket 0x12 1 0 2 1 5 (leBytes 16 0)) = false)) ∧
    ((Asks (asked 0x401 [10]) 0 0x401 [.f 32] false [10]) ∧ ((10 ≤ 10 ∧ 10 ≤ 1000000))) ∧
    ((Asks (asked 0x402 []) 0 0x402 [] false [])) ∧
    ((Asks (asked 0x403 [2 * 2 ^ 48] { sys := { memory := 2, moduleId := 2 }, regions := [(3, { state := 1, granules := 1, acl := [{ id := 1, r := true, w := true, atomic := true }] })] }) 0 0x403 [.f 60] false [(2 * 2 ^ 48)]) ∧ (inPool (asked 0x403 [2 * 2 ^ 48] { sys := { memory := 2, moduleId := 2 }, regions := [(3, { state := 1, granules := 1, acl := [{ id := 1, r := true, w := true, atomic := true }] })] }).hw (2 * 2 ^ 48) = true) ∧ (regionAt (asked 0x403 [2 * 2 ^ 48] { sys := { memory := 2, moduleId := 2 }, regions := [(3, { state := 1, granules := 1, acl := [{ id := 1, r := true, w := true, atomic := true }] })] }).hw (granuleOf (fpaOffset (2 * 2 ^ 48))) = some 3) ∧ ((((asked 0x403 [2 * 2 ^ 48] { sys := { memory := 2, moduleId := 2 }, regions := [(3, { state := 1, granules := 1, acl := [{ id := 1, r := true, w := true, atomic := true }] })] }).hw.region 3).kind = 0 ∧ 3 ≠ 0))) ∧
    ((Asks (asked 0x404 [7]) 0 0x404 [.f 12] false [7])) := by
  refine ⟨?_, ?_, ?_, ?_, ?_, ?_, ?_, ?_, ?_, ?_, ?_⟩ <;> decide +kernel

theorem witness_SnapshotsComplete :
    ((Asks (asked 0x501 [3 + 2 ^ 16, 0] { regions := [(3, { state := 1, kind := 3, granules := 2, reserve := 17, acl := [{ id := 1, r := true, w := true }] })], snaps := [(3, { cur := 1, slots := [(0, { state := 1, version := 1 })] })] }) 0 0x501 [.f 16, .f 12, .f 1, .f 32] false [3, 1, 0, 0]) ∧ (snapActive (asked 0x501 [3 + 2 ^ 16, 0] { regions := [(3, { state := 1, kind := 3, granules := 2, reserve := 17, acl := [{ id := 1, r := true, w := true }] })], snaps := [(3, { cur := 1, slots := [(0, { state := 1, version := 1 })] })] }).hw 3 = true) ∧ (hasRight (asked 0x501 [3 + 2 ^ 16, 0] { regions := [(3, { state := 1, kind := 3, granules := 2, reserve := 17, acl := [{ id := 1, r := true, w := true }] })], snaps := [(3, { cur := 1, slots := [(0, { state := 1, version := 1 })] })] }).hw ((asked 0x501 [3 + 2 ^ 16, 0] { regions := [(3, { state := 1, kind := 3, granules := 2, reserve := 17, acl := [{ id := 1, r := true, w := true }] })], snaps := [(3, { cur := 1, slots := [(0, { state := 1, version := 1 })] })] }).hw.region 3) 1 .read = true) ∧ ((bindingOf ((asked 0x501 [3 + 2 ^ 16, 0] { regions := [(3, { state := 1, kind := 3, granules := 2, reserve := 17, acl := [{ id := 1, r := true, w := true }] })], snaps := [(3, { cur := 1, slots := [(0, { state := 1, version := 1 })] })] }).hw.snap 3) 1).isNone = true) ∧ (KMap.firstFree ((asked 0x501 [3 + 2 ^ 16, 0] { regions := [(3, { state := 1, kind := 3, granules := 2, reserve := 17, acl := [{ id := 1, r := true, w := true }] })], snaps := [(3, { cur := 1, slots := [(0, { state := 1, version := 1 })] })] }).hw.snap 3).bindings 64 = some 0)) ∧
    ((Asks (asked 0x501 [3 + 2 ^ 16 + 2 ^ 32, 0] { regions := [(3, { state := 1, kind := 3, granules := 2, reserve := 17, acl := [{ id := 1, r := true, w := true }] })], snaps := [(3, { cur := 1, slots := [(0, { state := 1, version := 1 })] })] }) 0 0x501 [.f 16, .f 12, .f 1, .f 32] false [3, 1, 1, 0]) ∧ (snapActive (asked 0x501 [3 + 2 ^ 16 + 2 ^ 32, 0] { regions := [(3, { state := 1, kind := 3, granules := 2, reserve := 17, acl := [{ id := 1, r := true, w := true }] })], snaps := [(3, { cur := 1, slots := [(0, { state := 1, version := 1 })] })] }).hw 3 = true) ∧ (hasRight (asked 0x501 [3 + 2 ^ 16 + 2 ^ 32, 0] { regions := [(3, { state := 1, kind := 3, granules := 2, reserve := 17, acl := [{ id := 1, r := true, w := true }] })], snaps := [(3, { cur := 1, slots := [(0, { state := 1, version := 1 })] })] }).hw ((asked 0x501 [3 + 2 ^ 16 + 2 ^ 32, 0] { regions := [(3, { state := 1, kind := 3, granules := 2, reserve := 17, acl := [{ id := 1, r := true, w := true }] })], snaps := [(3, { cur := 1, slots := [(0, { state := 1, version := 1 })] })] }).hw.region 3) 1 .write = true) ∧ ((bindingOf ((asked 0x501 [3 + 2 ^ 16 + 2 ^ 32, 0] { regions := [(3, { state := 1, kind := 3, granules := 2, reserve := 17, acl := [{ id := 1, r := true, w := true }] })], snaps := [(3, { cur := 1, slots := [(0, { state := 1, version := 1 })] })] }).hw.snap 3) 1).isNone = true) ∧ (KMap.firstFree ((asked 0x501 [3 + 2 ^ 16 + 2 ^ 32, 0] { regions := [(3, { state := 1, kind := 3, granules := 2, reserve := 17, acl := [{ id := 1, r := true, w := true }] })], snaps := [(3, { cur := 1, slots := [(0, { state := 1, version := 1 })] })] }).hw.snap 3).bindings 64 = some 0) ∧ ((List.range 16).find? (fun i => (((asked 0x501 [3 + 2 ^ 16 + 2 ^ 32, 0] { regions := [(3, { state := 1, kind := 3, granules := 2, reserve := 17, acl := [{ id := 1, r := true, w := true }] })], snaps := [(3, { cur := 1, slots := [(0, { state := 1, version := 1 })] })] }).hw.snap 3).slot i).state == 0) = some 1)) ∧
    ((Asks (asked 0x502 [3 + 2 ^ 16] { regions := [(3, { state := 1, kind := 3, granules := 2, reserve := 17, acl := [{ id := 1, r := true, w := true }] })], snaps := [(3, { cur := 1, slots := [(0, { state := 3, version := 1 })], bindings := [(5, { node := 1, slot := 0 })] })] }) 0 0x502 [.f 16, .f 12] false [3, 1]) ∧ (snapActive (asked 0x502 [3 + 2 ^ 16] { regions := [(3, { state := 1, kind := 3, granules := 2, reserve := 17, acl := [{ id := 1, r := true, w := true }] })], snaps := [(3, { cur := 1, slots := [(0, { state := 3, version := 1 })], bindings := [(5, { node := 1, slot := 0 })] })] }).hw 3 = true) ∧ (bindingOf ((asked 0x502 [3 + 2 ^ 16] { regions := [(3, { state := 1, kind := 3, granules := 2, reserve := 17, acl := [{ id := 1, r := true, w := true }] })], snaps := [(3, { cur := 1, slots := [(0, { state := 3, version := 1 })], bindings := [(5, { node := 1, slot := 0 })] })] }).hw.snap 3) 1 = some ((5, { node := 1, slot := 0 }) : Nat × Binding)) ∧ ((((asked 0x502 [3 + 2 ^ 16] { regions := [(3, { state := 1, kind := 3, granules := 2, reserve := 17, acl := [{ id := 1, r := true, w := true }] })], snaps := [(3, { cur := 1, slots := [(0, { state := 3, version := 1 })], bindings := [(5, { node := 1, slot := 0 })] })] }).hw.snap 3).slot ((5, { node := 1, slot := 0 }) : Nat × Binding).2.slot).state = 3) ∧ (hasRight (asked 0x502 [3 + 2 ^ 16] { regions := [(3, { state := 1, kind := 3, granules := 2, reserve := 17, acl := [{ id := 1, r := true, w := true }] })], snaps := [(3, { cur := 1, slots := [(0, { state := 3, version := 1 })], bindings := [(5, { node := 1, slot := 0 })] })] }).hw ((asked 0x502 [3 + 2 ^ 16] { regions := [(3, { state := 1, kind := 3, granules := 2, reserve := 17, acl := [{ id := 1, r := true, w := true }] })], snaps := [(3, { cur := 1, slots := [(0, { state := 3, version := 1 })], bindings := [(5, { node := 1, slot := 0 })] })] }).hw.region 3) 1 .write = true) ∧ (((asked 0x502 [3 + 2 ^ 16] { regions := [(3, { state := 1, kind := 3, granules := 2, reserve := 17, acl := [{ id := 1, r := true, w := true }] })], snaps := [(3, { cur := 1, slots := [(0, { state := 3, version := 1 })], bindings := [(5, { node := 1, slot := 0 })] })] }).hw.snap 3).cur ≠ 2 ^ 32 - 1)) ∧
    ((Asks (asked 0x503 [3 + 2 ^ 16] { regions := [(3, { state := 1, kind := 3, granules := 2, reserve := 17, acl := [{ id := 1, r := true, w := true }] })], snaps := [(3, { cur := 1, slots := [(0, { state := 3, version := 1 })], bindings := [(5, { node := 1, slot := 0 })] })] }) 0 0x503 [.f 16, .f 12] false [3, 1]) ∧ (snapActive (asked 0x503 [3 + 2 ^ 16] { regions := [(3, { state := 1, kind := 3, granules := 2, reserve := 17, acl := [{ id := 1, r := true, w := true }] })], snaps := [(3, { cur := 1, slots := [(0, { state := 3, version := 1 })], bindings := [(5, { node := 1, slot := 0 })] })] }).hw 3 = true) ∧ (bindingOf ((asked 0x503 [3 + 2 ^ 16] { regions := [(3, { state := 1, kind := 3, granules := 2, reserve := 17, acl := [{ id := 1, r := true, w := true }] })], snaps := [(3, { cur := 1, slots := [(0, { state := 3, version := 1 })], bindings := [(5, { node := 1, slot := 0 })] })] }).hw.snap 3) 1 = some ((5, { node := 1, slot := 0 }) : Nat × Binding)) ∧ ((((asked 0x503 [3 + 2 ^ 16] { regions := [(3, { state := 1, kind := 3, granules := 2, reserve := 17, acl := [{ id := 1, r := true, w := true }] })], snaps := [(3, { cur := 1, slots := [(0, { state := 3, version := 1 })], bindings := [(5, { node := 1, slot := 0 })] })] }).hw.snap 3).slot ((5, { node := 1, slot := 0 }) : Nat × Binding).2.slot).state = 3) ∧ (hasRight (asked 0x503 [3 + 2 ^ 16] { regions := [(3, { state := 1, kind := 3, granules := 2, reserve := 17, acl := [{ id := 1, r := true, w := true }] })], snaps := [(3, { cur := 1, slots := [(0, { state := 3, version := 1 })], bindings := [(5, { node := 1, slot := 0 })] })] }).hw ((asked 0x503 [3 + 2 ^ 16] { regions := [(3, { state := 1, kind := 3, granules := 2, reserve := 17, acl := [{ id := 1, r := true, w := true }] })], snaps := [(3, { cur := 1, slots := [(0, { state := 3, version := 1 })], bindings := [(5, { node := 1, slot := 0 })] })] }).hw.region 3) 1 .write = true)) ∧
    ((Asks (asked 0x504 [3 + 2 ^ 16] { regions := [(3, { state := 1, kind := 3, granules := 2, reserve := 17, acl := [{ id := 1, r := true, w := true }] })], snaps := [(3, { cur := 1, slots := [(0, { state := 1, version := 1 })], bindings := [(5, { node := 1, slot := 0 })] })] }) 0 0x504 [.f 16, .f 12] false [3, 1]) ∧ (snapActive (asked 0x504 [3 + 2 ^ 16] { regions := [(3, { state := 1, kind := 3, granules := 2, reserve := 17, acl := [{ id := 1, r := true, w := true }] })], snaps := [(3, { cur := 1, slots := [(0, { state := 1, version := 1 })], bindings := [(5, { node := 1, slot := 0 })] })] }).hw 3 = true) ∧ (bindingOf ((asked 0x504 [3 + 2 ^ 16] { regions := [(3, { state := 1, kind := 3, granules := 2, reserve := 17, acl := [{ id := 1, r := true, w := true }] })], snaps := [(3, { cur := 1, slots := [(0, { state := 1, version := 1 })], bindings := [(5, { node := 1, slot := 0 })] })] }).hw.snap 3) 1 = some ((5, { node := 1, slot := 0 }) : Nat × Binding)) ∧ ((((asked 0x504 [3 + 2 ^ 16] { regions := [(3, { state := 1, kind := 3, granules := 2, reserve := 17, acl := [{ id := 1, r := true, w := true }] })], snaps := [(3, { cur := 1, slots := [(0, { state := 1, version := 1 })], bindings := [(5, { node := 1, slot := 0 })] })] }).hw.snap 3).slot ((5, { node := 1, slot := 0 }) : Nat × Binding).2.slot).state = 1)) ∧
    (((running { switching := [{ mailbox := 2, opcode := 0x504, region := 3, node := 1 }] }).hw.switching.find? (fun x => x.mailbox == (2 : Fin 16).val) = some ({ mailbox := 2, opcode := 0x504, region := 3, node := 1 } : Switching)) ∧ (switchDrains (running { switching := [{ mailbox := 2, opcode := 0x504, region := 3, node := 1 }] }).hw ({ mailbox := 2, opcode := 0x504, region := 3, node := 1 } : Switching) = false) ∧ (({ mailbox := 2, opcode := 0x504, region := 3, node := 1 } : Switching).opcode = 0x504) ∧ (({ mailbox := 2, opcode := 0x504, region := 3, node := 1 } : Switching).answers = true)) ∧
    (((running { switching := [{ mailbox := 2, opcode := 0x502, region := 3, node := 1 }] }).hw.switching.find? (fun x => x.mailbox == (2 : Fin 16).val) = some ({ mailbox := 2, opcode := 0x502, region := 3, node := 1 } : Switching)) ∧ (switchDrains (running { switching := [{ mailbox := 2, opcode := 0x502, region := 3, node := 1 }] }).hw ({ mailbox := 2, opcode := 0x502, region := 3, node := 1 } : Switching) = false) ∧ (({ mailbox := 2, opcode := 0x502, region := 3, node := 1 } : Switching).opcode = 0x502) ∧ (({ mailbox := 2, opcode := 0x502, region := 3, node := 1 } : Switching).answers = true)) ∧
    ((Asks (asked 0x505 [3 + 2 ^ 32 * 9] { regions := [(3, { state := 1, kind := 3, granules := 2, reserve := 17, acl := [{ id := 1, r := true, w := true }] })], snaps := [(3, { cur := 1 })] }) 0 0x505 [.f 16, .f 32] false [3, 9]) ∧ (snapActive (asked 0x505 [3 + 2 ^ 32 * 9] { regions := [(3, { state := 1, kind := 3, granules := 2, reserve := 17, acl := [{ id := 1, r := true, w := true }] })], snaps := [(3, { cur := 1 })] }).hw 3 = true)) ∧
    ((Asks (asked 0x506 [3] { regions := [(3, { state := 1, kind := 3, granules := 2, reserve := 17, acl := [{ id := 1, r := true, w := true }] })], snaps := [(3, { cur := 1 })] }) 0 0x506 [.f 16] true [3]) ∧ (snapActive (asked 0x506 [3] { regions := [(3, { state := 1, kind := 3, granules := 2, reserve := 17, acl := [{ id := 1, r := true, w := true }] })], snaps := [(3, { cur := 1 })] }).hw 3 = true)) ∧
    ((((running { sys := { memory := 2 }, regions := [(3, { state := 1, kind := 3, granules := 2, reserve := 17, acl := [{ id := 1, r := true, w := true }] })], snaps := [(3, { copies := [{ slot := 0, shard := 4, psn := 9 }] })] }).hw.snap 3).copies.find? (fun x => x.slot == 0 && x.shard == 4) = some ({ slot := 0, shard := 4, psn := 9 } : Copying)) ∧ (mcsServesAll (running { sys := { memory := 2 }, regions := [(3, { state := 1, kind := 3, granules := 2, reserve := 17, acl := [{ id := 1, r := true, w := true }] })], snaps := [(3, { copies := [{ slot := 0, shard := 4, psn := 9 }] })] }).hw (((((running { sys := { memory := 2 }, regions := [(3, { state := 1, kind := 3, granules := 2, reserve := 17, acl := [{ id := 1, r := true, w := true }] })], snaps := [(3, { copies := [{ slot := 0, shard := 4, psn := 9 }] })] }).hw.snap 3).slot 0).entry ((running { sys := { memory := 2 }, regions := [(3, { state := 1, kind := 3, granules := 2, reserve := 17, acl := [{ id := 1, r := true, w := true }] })], snaps := [(3, { copies := [{ slot := 0, shard := 4, psn := 9 }] })] }).hw.region 3) 4).psn * 65536) 65536 = true) ∧ (mcsServesAll (running { sys := { memory := 2 }, regions := [(3, { state := 1, kind := 3, granules := 2, reserve := 17, acl := [{ id := 1, r := true, w := true }] })], snaps := [(3, { copies := [{ slot := 0, shard := 4, psn := 9 }] })] }).hw (({ slot := 0, shard := 4, psn := 9 } : Copying).psn * 65536) 65536 = true) ∧ ((running { sys := { memory := 2 }, regions := [(3, { state := 1, kind := 3, granules := 2, reserve := 17, acl := [{ id := 1, r := true, w := true }] })], snaps := [(3, { copies := [{ slot := 0, shard := 4, psn := 9 }] })] }).hw.pair.writeHold = false)) ∧
    (((((running { regions := [(3, { state := 1, kind := 3, granules := 2, reserve := 17, acl := [{ id := 1, r := true, w := true }] })], snaps := [(3, { slots := [(2, { state := 5 })] })] }).hw.snap 3).slot 2).state = 5)) := by
  refine ⟨?_, ?_, ?_, ?_, ?_, ?_, ?_, ?_, ?_, ?_, ?_⟩ <;> decide +kernel

theorem witness_TileAnswersComplete :
    (((mkPacket 0x42 3 0 2 1 5 (leBytes 16 (8 * 2 ^ 64) ++ leBytes 8 1)).opcode = 0x42) ∧ (isOwn (running { sys := { moduleId := 2 }, outs := [(5, { serial := 9, packet := (mkPacket 0x40 4 0 1 2 5 []) })] }).hw (mkPacket 0x42 3 0 2 1 5 (leBytes 16 (8 * 2 ^ 64) ++ leBytes 8 1)).dst = true) ∧ (badBulkAnswer (mkPacket 0x42 3 0 2 1 5 (leBytes 16 (8 * 2 ^ 64) ++ leBytes 8 1)) = false) ∧ (Packet.cf (mkPacket 0x42 3 0 2 1 5 (leBytes 16 (8 * 2 ^ 64) ++ leBytes 8 1)) 80 4 = 0) ∧ ((mkPacket 0x42 3 0 2 1 5 (leBytes 16 (8 * 2 ^ 64) ++ leBytes 8 1)).data.length = 16 + alignUp 4 (Packet.cf (mkPacket 0x42 3 0 2 1 5 (leBytes 16 (8 * 2 ^ 64) ++ leBytes 8 1)) 64 13)) ∧ (outFor (takeInbox (running { sys := { moduleId := 2 }, outs := [(5, { serial := 9, packet := (mkPacket 0x40 4 0 1 2 5 []) })] }).hw (mkPacket 0x42 3 0 2 1 5 (leBytes 16 (8 * 2 ^ 64) ++ leBytes 8 1))) (mkPacket 0x42 3 0 2 1 5 (leBytes 16 (8 * 2 ^ 64) ++ leBytes 8 1)) [0x40] = some ({ serial := 9, packet := (mkPacket 0x40 4 0 1 2 5 []) } : Out)) ∧ (({ serial := 9, packet := (mkPacket 0x40 4 0 1 2 5 []) } : Out).notify = none)) ∧
    (((mkPacket 0x43 2 0 2 1 5 (leBytes 16 (8 * 2 ^ 64))).opcode = 0x43) ∧ (isOwn (running { sys := { moduleId := 2 }, outs := [(5, { serial := 9, packet := (mkPacket 0x41 4 0 1 2 5 []) })] }).hw (mkPacket 0x43 2 0 2 1 5 (leBytes 16 (8 * 2 ^ 64))).dst = true) ∧ (badBulkAnswer (mkPacket 0x43 2 0 2 1 5 (leBytes 16 (8 * 2 ^ 64))) = false) ∧ ((mkPacket 0x43 2 0 2 1 5 (leBytes 16 (8 * 2 ^ 64))).data.length = 16) ∧ (outFor (takeInbox (running { sys := { moduleId := 2 }, outs := [(5, { serial := 9, packet := (mkPacket 0x41 4 0 1 2 5 []) })] }).hw (mkPacket 0x43 2 0 2 1 5 (leBytes 16 (8 * 2 ^ 64)))) (mkPacket 0x43 2 0 2 1 5 (leBytes 16 (8 * 2 ^ 64))) [0x41] = some ({ serial := 9, packet := (mkPacket 0x41 4 0 1 2 5 []) } : Out)) ∧ (({ serial := 9, packet := (mkPacket 0x41 4 0 1 2 5 []) } : Out).notify = none)) ∧
    (((mkPacket 0x36 3 0 2 1 5 (leBytes 32 0)).opcode = 0x36) ∧ (isOwn (running { sys := { moduleId := 2 }, outs := [(5, { serial := 9, packet := (mkPacket 0x07 4 0 1 2 5 []) })] }).hw (mkPacket 0x36 3 0 2 1 5 (leBytes 32 0)).dst = true) ∧ ((mkPacket 0x36 3 0 2 1 5 (leBytes 32 0)).data.length = 32) ∧ (Packet.cf (mkPacket 0x36 3 0 2 1 5 (leBytes 32 0)) 60 4 = 0) ∧ (outFor (takeInbox (running { sys := { moduleId := 2 }, outs := [(5, { serial := 9, packet := (mkPacket 0x07 4 0 1 2 5 []) })] }).hw (mkPacket 0x36 3 0 2 1 5 (leBytes 32 0))) (mkPacket 0x36 3 0 2 1 5 (leBytes 32 0)) [0x07] = some ({ serial := 9, packet := (mkPacket 0x07 4 0 1 2 5 []) } : Out)) ∧ (({ serial := 9, packet := (mkPacket 0x07 4 0 1 2 5 []) } : Out).notify = none)) ∧
    (((mkPacket 0x25 2 0 2 1 5 (leBytes 16 0)).opcode = 0x25) ∧ (isOwn (running { sys := { moduleId := 2 }, outs := [(5, { serial := 9, packet := (mkPacket 0x07 4 0 1 2 5 []) })] }).hw (mkPacket 0x25 2 0 2 1 5 (leBytes 16 0)).dst = true) ∧ ((mkPacket 0x25 2 0 2 1 5 (leBytes 16 0)).data.length = 16) ∧ (outFor (takeInbox (running { sys := { moduleId := 2 }, outs := [(5, { serial := 9, packet := (mkPacket 0x07 4 0 1 2 5 []) })] }).hw (mkPacket 0x25 2 0 2 1 5 (leBytes 16 0))) (mkPacket 0x25 2 0 2 1 5 (leBytes 16 0)) [0x07] = some ({ serial := 9, packet := (mkPacket 0x07 4 0 1 2 5 []) } : Out)) ∧ (({ serial := 9, packet := (mkPacket 0x07 4 0 1 2 5 []) } : Out).notify = none)) ∧
    (((mkPacket 0x21 2 0 2 1 5 (leBytes 16 0)).opcode = 0x21) ∧ (isOwn (running { sys := { moduleId := 2 }, outs := [(5, { serial := 9, packet := (mkPacket 0x07 4 0 1 2 5 []) })] }).hw (mkPacket 0x21 2 0 2 1 5 (leBytes 16 0)).dst = true) ∧ ((mkPacket 0x21 2 0 2 1 5 (leBytes 16 0)).data.length = 16) ∧ (outFor (takeInbox (running { sys := { moduleId := 2 }, outs := [(5, { serial := 9, packet := (mkPacket 0x07 4 0 1 2 5 []) })] }).hw (mkPacket 0x21 2 0 2 1 5 (leBytes 16 0))) (mkPacket 0x21 2 0 2 1 5 (leBytes 16 0)) [0x07] = some ({ serial := 9, packet := (mkPacket 0x07 4 0 1 2 5 []) } : Out))) ∧
    ((KMap.find? (running { outs := [(5, { retry := true })] }).hw.outs 5 = some ({ retry := true } : Out)) ∧ (({ retry := true } : Out).retry = true)) ∧
    ((KMap.find? (running { outs := [(5, {})] }).hw.outs 5 = some ({} : Out)) ∧ (({} : Out).tries < 3)) ∧
    ((KMap.find? (running { outs := [(5, { tries := 3 })] }).hw.outs 5 = some ({ tries := 3 } : Out)) ∧ (3 ≤ ({ tries := 3 } : Out).tries)) := by
  refine ⟨?_, ?_, ?_, ?_, ?_, ?_, ?_, ?_⟩ <;> decide +kernel

theorem witness_QueuesAndDoorbellsComplete :
    ((Asks (asked 0x601 [4 + 2 ^ 16 * 7 + 2 ^ 32 * 5, 2 * 2 ^ 48 + 4096, 4 + 2 ^ 8 * 64 + 2 ^ 16 * 8 + 2 ^ 32 * 0 + 2 ^ 32 * 100] { sys := { memory := 2, moduleId := 2 }, regions := [(3, { state := 1, kind := 1, granules := 1, acl := [{ id := 9, r := true, w := true }] })], contexts := [(7, { bound := true, agent := 9, root := 2 * 2 ^ 48 + 4096 })] }) 0 0x601 [.f 12, .f 16, .f 5, .f 60, .f 5, .f 7, .f 4, .f 16] false [4, 7, 5, (2 * 2 ^ 48 + 4096), 4, 64, 8, 100]) ∧ (poolOpen (asked 0x601 [4 + 2 ^ 16 * 7 + 2 ^ 32 * 5, 2 * 2 ^ 48 + 4096, 4 + 2 ^ 8 * 64 + 2 ^ 16 * 8 + 2 ^ 32 * 0 + 2 ^ 32 * 100] { sys := { memory := 2, moduleId := 2 }, regions := [(3, { state := 1, kind := 1, granules := 1, acl := [{ id := 9, r := true, w := true }] })], contexts := [(7, { bound := true, agent := 9, root := 2 * 2 ^ 48 + 4096 })] }).hw = true) ∧ (KMap.has (asked 0x601 [4 + 2 ^ 16 * 7 + 2 ^ 32 * 5, 2 * 2 ^ 48 + 4096, 4 + 2 ^ 8 * 64 + 2 ^ 16 * 8 + 2 ^ 32 * 0 + 2 ^ 32 * 100] { sys := { memory := 2, moduleId := 2 }, regions := [(3, { state := 1, kind := 1, granules := 1, acl := [{ id := 9, r := true, w := true }] })], contexts := [(7, { bound := true, agent := 9, root := 2 * 2 ^ 48 + 4096 })] }).hw.queues 4 = false) ∧ ((4 ≤ 4 ∧ 4 ≤ 16)) ∧ (64 ≤ 64) ∧ ((1 ≤ 8 ∧ 8 ≤ 8)) ∧ ((10 ≤ 100 ∧ 100 ≤ 5000)) ∧ ((2 * 2 ^ 48 + 4096) % 4096 = 0) ∧ (inPoolFor (asked 0x601 [4 + 2 ^ 16 * 7 + 2 ^ 32 * 5, 2 * 2 ^ 48 + 4096, 4 + 2 ^ 8 * 64 + 2 ^ 16 * 8 + 2 ^ 32 * 0 + 2 ^ 32 * 100] { sys := { memory := 2, moduleId := 2 }, regions := [(3, { state := 1, kind := 1, granules := 1, acl := [{ id := 9, r := true, w := true }] })], contexts := [(7, { bound := true, agent := 9, root := 2 * 2 ^ 48 + 4096 })] }).hw ((asked 0x601 [4 + 2 ^ 16 * 7 + 2 ^ 32 * 5, 2 * 2 ^ 48 + 4096, 4 + 2 ^ 8 * 64 + 2 ^ 16 * 8 + 2 ^ 32 * 0 + 2 ^ 32 * 100] { sys := { memory := 2, moduleId := 2 }, regions := [(3, { state := 1, kind := 1, granules := 1, acl := [{ id := 9, r := true, w := true }] })], contexts := [(7, { bound := true, agent := 9, root := 2 * 2 ^ 48 + 4096 })] }).hw.ctx 7).service (2 * 2 ^ 48 + 4096) = true) ∧ (regionOfRange (asked 0x601 [4 + 2 ^ 16 * 7 + 2 ^ 32 * 5, 2 * 2 ^ 48 + 4096, 4 + 2 ^ 8 * 64 + 2 ^ 16 * 8 + 2 ^ 32 * 0 + 2 ^ 32 * 100] { sys := { memory := 2, moduleId := 2 }, regions := [(3, { state := 1, kind := 1, granules := 1, acl := [{ id := 9, r := true, w := true }] })], contexts := [(7, { bound := true, agent := 9, root := 2 * 2 ^ 48 + 4096 })] }).hw (2 * 2 ^ 48 + 4096) (64 * 2 ^ 4) = some 3) ∧ (((asked 0x601 [4 + 2 ^ 16 * 7 + 2 ^ 32 * 5, 2 * 2 ^ 48 + 4096, 4 + 2 ^ 8 * 64 + 2 ^ 16 * 8 + 2 ^ 32 * 0 + 2 ^ 32 * 100] { sys := { memory := 2, moduleId := 2 }, regions := [(3, { state := 1, kind := 1, granules := 1, acl := [{ id := 9, r := true, w := true }] })], contexts := [(7, { bound := true, agent := 9, root := 2 * 2 ^ 48 + 4096 })] }).hw.ctx 7).bound = true) ∧ (hasRight (asked 0x601 [4 + 2 ^ 16 * 7 + 2 ^ 32 * 5, 2 * 2 ^ 48 + 4096, 4 + 2 ^ 8 * 64 + 2 ^ 16 * 8 + 2 ^ 32 * 0 + 2 ^ 32 * 100] { sys := { memory := 2, moduleId := 2 }, regions := [(3, { state := 1, kind := 1, granules := 1, acl := [{ id := 9, r := true, w := true }] })], contexts := [(7, { bound := true, agent := 9, root := 2 * 2 ^ 48 + 4096 })] }).hw ((asked 0x601 [4 + 2 ^ 16 * 7 + 2 ^ 32 * 5, 2 * 2 ^ 48 + 4096, 4 + 2 ^ 8 * 64 + 2 ^ 16 * 8 + 2 ^ 32 * 0 + 2 ^ 32 * 100] { sys := { memory := 2, moduleId := 2 }, regions := [(3, { state := 1, kind := 1, granules := 1, acl := [{ id := 9, r := true, w := true }] })], contexts := [(7, { bound := true, agent := 9, root := 2 * 2 ^ 48 + 4096 })] }).hw.region 3) ((asked 0x601 [4 + 2 ^ 16 * 7 + 2 ^ 32 * 5, 2 * 2 ^ 48 + 4096, 4 + 2 ^ 8 * 64 + 2 ^ 16 * 8 + 2 ^ 32 * 0 + 2 ^ 32 * 100] { sys := { memory := 2, moduleId := 2 }, regions := [(3, { state := 1, kind := 1, granules := 1, acl := [{ id := 9, r := true, w := true }] })], contexts := [(7, { bound := true, agent := 9, root := 2 * 2 ^ 48 + 4096 })] }).hw.ctx 7).agent .read = true) ∧ ((asked 0x601 [4 + 2 ^ 16 * 7 + 2 ^ 32 * 5, 2 * 2 ^ 48 + 4096, 4 + 2 ^ 8 * 64 + 2 ^ 16 * 8 + 2 ^ 32 * 0 + 2 ^ 32 * 100] { sys := { memory := 2, moduleId := 2 }, regions := [(3, { state := 1, kind := 1, granules := 1, acl := [{ id := 9, r := true, w := true }] })], contexts := [(7, { bound := true, agent := 9, root := 2 * 2 ^ 48 + 4096 })] }).hw.pair.state = 0) ∧ ((asked 0x601 [4 + 2 ^ 16 * 7 + 2 ^ 32 * 5, 2 * 2 ^ 48 + 4096, 4 + 2 ^ 8 * 64 + 2 ^ 16 * 8 + 2 ^ 32 * 0 + 2 ^ 32 * 100] { sys := { memory := 2, moduleId := 2 }, regions := [(3, { state := 1, kind := 1, granules := 1, acl := [{ id := 9, r := true, w := true }] })], contexts := [(7, { bound := true, agent := 9, root := 2 * 2 ^ 48 + 4096 })] }).hw.bist.failed.contains 5 = false) ∧ (bistHolds (asked 0x601 [4 + 2 ^ 16 * 7 + 2 ^ 32 * 5, 2 * 2 ^ 48 + 4096, 4 + 2 ^ 8 * 64 + 2 ^ 16 * 8 + 2 ^ 32 * 0 + 2 ^ 32 * 100] { sys := { memory := 2, moduleId := 2 }, regions := [(3, { state := 1, kind := 1, granules := 1, acl := [{ id := 9, r := true, w := true }] })], contexts := [(7, { bound := true, agent := 9, root := 2 * 2 ^ 48 + 4096 })] }).hw 5 = false) ∧ (((queuesOn (asked 0x601 [4 + 2 ^ 16 * 7 + 2 ^ 32 * 5, 2 * 2 ^ 48 + 4096, 4 + 2 ^ 8 * 64 + 2 ^ 16 * 8 + 2 ^ 32 * 0 + 2 ^ 32 * 100] { sys := { memory := 2, moduleId := 2 }, regions := [(3, { state := 1, kind := 1, granules := 1, acl := [{ id := 9, r := true, w := true }] })], contexts := [(7, { bound := true, agent := 9, root := 2 * 2 ^ 48 + 4096 })] }).hw 5).length < 128 ∧ 64 ≤ freeUnits (asked 0x601 [4 + 2 ^ 16 * 7 + 2 ^ 32 * 5, 2 * 2 ^ 48 + 4096, 4 + 2 ^ 8 * 64 + 2 ^ 16 * 8 + 2 ^ 32 * 0 + 2 ^ 32 * 100] { sys := { memory := 2, moduleId := 2 }, regions := [(3, { state := 1, kind := 1, granules := 1, acl := [{ id := 9, r := true, w := true }] })], contexts := [(7, { bound := true, agent := 9, root := 2 * 2 ^ 48 + 4096 })] }).hw 5))) ∧
    ((Asks (asked 0x602 [4] { queues := [(4, {})] }) 0 0x602 [.f 12, .f 1] false [4, 0]) ∧ (KMap.has (asked 0x602 [4] { queues := [(4, {})] }).hw.queues 4 = true) ∧ (((asked 0x602 [4] { queues := [(4, {})] }).hw.queue 4).execs = [])) ∧
    ((Asks (asked 0x603 [4] { queues := [(4, {})] }) 0 0x603 [.f 12] false [4]) ∧ (KMap.has (asked 0x603 [4] { queues := [(4, {})] }).hw.queues 4 = true)) ∧
    ((fld ((4 + 2 ^ 32 * 16 : Nat) : Word).toNat 0 12 = 4) ∧ (fld ((4 + 2 ^ 32 * 16 : Nat) : Word).toNat 32 32 = 16) ∧ (mayDoorbell (running { sys := { memory := 2, moduleId := 2 }, regions := [(3, { state := 1, kind := 1, granules := 1, acl := [{ id := 9, r := true, w := true }] })], contexts := [(7, { bound := true, agent := 9, root := 2 * 2 ^ 48 + 4096 })], queues := [(4, { ctx := 7, tile := 5, ring := 2 * 2 ^ 48 + 4096,  })] }).hw Requester.pcie (7 : Fin 65536) = true) ∧ (((running { sys := { memory := 2, moduleId := 2 }, regions := [(3, { state := 1, kind := 1, granules := 1, acl := [{ id := 9, r := true, w := true }] })], contexts := [(7, { bound := true, agent := 9, root := 2 * 2 ^ 48 + 4096 })], queues := [(4, { ctx := 7, tile := 5, ring := 2 * 2 ^ 48 + 4096,  })] }).hw.ctx (7 : Fin 65536)).bound = true) ∧ (KMap.has (running { sys := { memory := 2, moduleId := 2 }, regions := [(3, { state := 1, kind := 1, granules := 1, acl := [{ id := 9, r := true, w := true }] })], contexts := [(7, { bound := true, agent := 9, root := 2 * 2 ^ 48 + 4096 })], queues := [(4, { ctx := 7, tile := 5, ring := 2 * 2 ^ 48 + 4096,  })] }).hw.queues 4 = true) ∧ (((running { sys := { memory := 2, moduleId := 2 }, regions := [(3, { state := 1, kind := 1, granules := 1, acl := [{ id := 9, r := true, w := true }] })], contexts := [(7, { bound := true, agent := 9, root := 2 * 2 ^ 48 + 4096 })], queues := [(4, { ctx := 7, tile := 5, ring := 2 * 2 ^ 48 + 4096,  })] }).hw.queue 4).ctx = (7 : Fin 65536).val) ∧ ((((running { sys := { memory := 2, moduleId := 2 }, regions := [(3, { state := 1, kind := 1, granules := 1, acl := [{ id := 9, r := true, w := true }] })], contexts := [(7, { bound := true, agent := 9, root := 2 * 2 ^ 48 + 4096 })], queues := [(4, { ctx := 7, tile := 5, ring := 2 * 2 ^ 48 + 4096,  })] }).hw.queue 4).tail + 2 ^ 32 - ((running { sys := { memory := 2, moduleId := 2 }, regions := [(3, { state := 1, kind := 1, granules := 1, acl := [{ id := 9, r := true, w := true }] })], contexts := [(7, { bound := true, agent := 9, root := 2 * 2 ^ 48 + 4096 })], queues := [(4, { ctx := 7, tile := 5, ring := 2 * 2 ^ 48 + 4096,  })] }).hw.queue 4).head) % 2 ^ 32 ≤ (16 + 2 ^ 32 - ((running { sys := { memory := 2, moduleId := 2 }, regions := [(3, { state := 1, kind := 1, granules := 1, acl := [{ id := 9, r := true, w := true }] })], contexts := [(7, { bound := true, agent := 9, root := 2 * 2 ^ 48 + 4096 })], queues := [(4, { ctx := 7, tile := 5, ring := 2 * 2 ^ 48 + 4096,  })] }).hw.queue 4).head) % 2 ^ 32) ∧ ((16 + 2 ^ 32 - ((running { sys := { memory := 2, moduleId := 2 }, regions := [(3, { state := 1, kind := 1, granules := 1, acl := [{ id := 9, r := true, w := true }] })], contexts := [(7, { bound := true, agent := 9, root := 2 * 2 ^ 48 + 4096 })], queues := [(4, { ctx := 7, tile := 5, ring := 2 * 2 ^ 48 + 4096,  })] }).hw.queue 4).head) % 2 ^ 32 ≤ 2 ^ ((running { sys := { memory := 2, moduleId := 2 }, regions := [(3, { state := 1, kind := 1, granules := 1, acl := [{ id := 9, r := true, w := true }] })], contexts := [(7, { bound := true, agent := 9, root := 2 * 2 ^ 48 + 4096 })], queues := [(4, { ctx := 7, tile := 5, ring := 2 * 2 ^ 48 + 4096,  })] }).hw.queue 4).ringLog2)) ∧
    ((fld ((4 + 4096 : Nat) : Word).toNat 0 12 = 4) ∧ (fld ((4 + 4096 : Nat) : Word).toNat 12 2 = 1) ∧ (mayDoorbell (running { sys := { memory := 2, moduleId := 2 }, regions := [(3, { state := 1, kind := 1, granules := 1, acl := [{ id := 9, r := true, w := true }] })], contexts := [(7, { bound := true, agent := 9, root := 2 * 2 ^ 48 + 4096 })], queues := [(4, { ctx := 7, tile := 5, ring := 2 * 2 ^ 48 + 4096, halted := true })] }).hw Requester.pcie (7 : Fin 65536) = true) ∧ (((running { sys := { memory := 2, moduleId := 2 }, regions := [(3, { state := 1, kind := 1, granules := 1, acl := [{ id := 9, r := true, w := true }] })], contexts := [(7, { bound := true, agent := 9, root := 2 * 2 ^ 48 + 4096 })], queues := [(4, { ctx := 7, tile := 5, ring := 2 * 2 ^ 48 + 4096, halted := true })] }).hw.ctx (7 : Fin 65536)).bound = true) ∧ (KMap.has (running { sys := { memory := 2, moduleId := 2 }, regions := [(3, { state := 1, kind := 1, granules := 1, acl := [{ id := 9, r := true, w := true }] })], contexts := [(7, { bound := true, agent := 9, root := 2 * 2 ^ 48 + 4096 })], queues := [(4, { ctx := 7, tile := 5, ring := 2 * 2 ^ 48 + 4096, halted := true })] }).hw.queues 4 = true) ∧ (((running { sys := { memory := 2, moduleId := 2 }, regions := [(3, { state := 1, kind := 1, granules := 1, acl := [{ id := 9, r := true, w := true }] })], contexts := [(7, { bound := true, agent := 9, root := 2 * 2 ^ 48 + 4096 })], queues := [(4, { ctx := 7, tile := 5, ring := 2 * 2 ^ 48 + 4096, halted := true })] }).hw.queue 4).ctx = (7 : Fin 65536).val) ∧ (((running { sys := { memory := 2, moduleId := 2 }, regions := [(3, { state := 1, kind := 1, granules := 1, acl := [{ id := 9, r := true, w := true }] })], contexts := [(7, { bound := true, agent := 9, root := 2 * 2 ^ 48 + 4096 })], queues := [(4, { ctx := 7, tile := 5, ring := 2 * 2 ^ 48 + 4096, halted := true })] }).hw.queue 4).halted = true)) ∧
    ((mayDoorbell (running { sys := { memory := 2, moduleId := 2 }, regions := [(3, { state := 1, kind := 1, granules := 1, acl := [{ id := 9, r := true, w := true }] })], contexts := [(7, { bound := true, agent := 9, root := 2 * 2 ^ 48 + 4096 })], tiles := [(5, { faults := [(3, { isOpen := true, seq := 2, ctx := 7 })] })] }).hw Requester.pcie (7 : Fin 65536) = true) ∧ (fld ((3 + 64 * 5 + 65536 * 2 + 2 ^ 32 * 1 : Nat) : Word).toNat 32 2 = 1) ∧ (((running { sys := { memory := 2, moduleId := 2 }, regions := [(3, { state := 1, kind := 1, granules := 1, acl := [{ id := 9, r := true, w := true }] })], contexts := [(7, { bound := true, agent := 9, root := 2 * 2 ^ 48 + 4096 })], tiles := [(5, { faults := [(3, { isOpen := true, seq := 2, ctx := 7 })] })] }).hw.ctx (7 : Fin 65536)).bound = true) ∧ (KMap.get ((running { sys := { memory := 2, moduleId := 2 }, regions := [(3, { state := 1, kind := 1, granules := 1, acl := [{ id := 9, r := true, w := true }] })], contexts := [(7, { bound := true, agent := 9, root := 2 * 2 ^ 48 + 4096 })], tiles := [(5, { faults := [(3, { isOpen := true, seq := 2, ctx := 7 })] })] }).hw.tile (fld (fld ((3 + 64 * 5 + 65536 * 2 + 2 ^ 32 * 1 : Nat) : Word).toNat 0 32) 6 5)).faults (fld (fld ((3 + 64 * 5 + 65536 * 2 + 2 ^ 32 * 1 : Nat) : Word).toNat 0 32) 0 6) = ({ isOpen := true, seq := 2, ctx := 7 } : FaultSlot)) ∧ (({ isOpen := true, seq := 2, ctx := 7 } : FaultSlot).isOpen = true) ∧ (({ isOpen := true, seq := 2, ctx := 7 } : FaultSlot).seq = fld (fld ((3 + 64 * 5 + 65536 * 2 + 2 ^ 32 * 1 : Nat) : Word).toNat 0 32) 16 16) ∧ (({ isOpen := true, seq := 2, ctx := 7 } : FaultSlot).ctx = (7 : Fin 65536).val) ∧ (fld (fld ((3 + 64 * 5 + 65536 * 2 + 2 ^ 32 * 1 : Nat) : Word).toNat 0 32) 11 5 = 0)) ∧
    ((mayDoorbell (running { sys := { memory := 2, moduleId := 2 }, regions := [(3, { state := 1, kind := 1, granules := 1, acl := [{ id := 9, r := true, w := true }] })], contexts := [(7, { bound := true, agent := 9, root := 2 * 2 ^ 48 + 4096 })], tiles := [(5, { faults := [(3, { isOpen := true, seq := 2, ctx := 7 })] })] }).hw Requester.pcie (7 : Fin 65536) = true) ∧ (fld ((3 + 64 * 5 + 65536 * 2 + 2 ^ 32 * 2 : Nat) : Word).toNat 32 2 = 2) ∧ (((running { sys := { memory := 2, moduleId := 2 }, regions := [(3, { state := 1, kind := 1, granules := 1, acl := [{ id := 9, r := true, w := true }] })], contexts := [(7, { bound := true, agent := 9, root := 2 * 2 ^ 48 + 4096 })], tiles := [(5, { faults := [(3, { isOpen := true, seq := 2, ctx := 7 })] })] }).hw.ctx (7 : Fin 65536)).bound = true) ∧ (KMap.get ((running { sys := { memory := 2, moduleId := 2 }, regions := [(3, { state := 1, kind := 1, granules := 1, acl := [{ id := 9, r := true, w := true }] })], contexts := [(7, { bound := true, agent := 9, root := 2 * 2 ^ 48 + 4096 })], tiles := [(5, { faults := [(3, { isOpen := true, seq := 2, ctx := 7 })] })] }).hw.tile (fld (fld ((3 + 64 * 5 + 65536 * 2 + 2 ^ 32 * 2 : Nat) : Word).toNat 0 32) 6 5)).faults (fld (fld ((3 + 64 * 5 + 65536 * 2 + 2 ^ 32 * 2 : Nat) : Word).toNat 0 32) 0 6) = ({ isOpen := true, seq := 2, ctx := 7 } : FaultSlot)) ∧ (({ isOpen := true, seq := 2, ctx := 7 } : FaultSlot).isOpen = true) ∧ (({ isOpen := true, seq := 2, ctx := 7 } : FaultSlot).seq = fld (fld ((3 + 64 * 5 + 65536 * 2 + 2 ^ 32 * 2 : Nat) : Word).toNat 0 32) 16 16) ∧ (({ isOpen := true, seq := 2, ctx := 7 } : FaultSlot).ctx = (7 : Fin 65536).val) ∧ (fld (fld ((3 + 64 * 5 + 65536 * 2 + 2 ^ 32 * 2 : Nat) : Word).toNat 0 32) 11 5 = 0)) ∧
    ((KMap.get ((running { contexts := [(7, { bound := true, timeout := 50 })], tiles := [(5, { faults := [(3, { isOpen := true, seq := 2, ctx := 7 })] })] }).hw.tile (5 : Fin 32)).faults (3 : Fin 64) = ({ isOpen := true, seq := 2, ctx := 7 } : FaultSlot)) ∧ (({ isOpen := true, seq := 2, ctx := 7 } : FaultSlot).isOpen = true) ∧ (((running { contexts := [(7, { bound := true, timeout := 50 })], tiles := [(5, { faults := [(3, { isOpen := true, seq := 2, ctx := 7 })] })] }).hw.ctx ({ isOpen := true, seq := 2, ctx := 7 } : FaultSlot).ctx).timeout ≠ 0) ∧ (runsFor (running { contexts := [(7, { bound := true, timeout := 50 })], tiles := [(5, { faults := [(3, { isOpen := true, seq := 2, ctx := 7 })] })] }).hw ((running { contexts := [(7, { bound := true, timeout := 50 })], tiles := [(5, { faults := [(3, { isOpen := true, seq := 2, ctx := 7 })] })] }).hw.ctx ({ isOpen := true, seq := 2, ctx := 7 } : FaultSlot).ctx).service = true)) := by
  refine ⟨?_, ?_, ?_, ?_, ?_, ?_, ?_, ?_⟩ <;> decide +kernel

theorem witness_DescriptorsComplete :
    ((KMap.has (running { sys := { memory := 2, moduleId := 2 }, regions := [(3, { state := 1, kind := 1, granules := 1, acl := [{ id := 9, r := true, w := true }] })], contexts := [(7, { bound := true, agent := 9, root := 2 * 2 ^ 48 + 4096 })], queues := [(4, { ctx := 7, tile := 5, ring := 2 * 2 ^ 48 + 4096, tail := 1 })] }).hw.queues (4 : Fin 4096) = true) ∧ (runsQueue (running { sys := { memory := 2, moduleId := 2 }, regions := [(3, { state := 1, kind := 1, granules := 1, acl := [{ id := 9, r := true, w := true }] })], contexts := [(7, { bound := true, agent := 9, root := 2 * 2 ^ 48 + 4096 })], queues := [(4, { ctx := 7, tile := 5, ring := 2 * 2 ^ 48 + 4096, tail := 1 })] }).hw (4 : Fin 4096) = true) ∧ ((((running { sys := { memory := 2, moduleId := 2 }, regions := [(3, { state := 1, kind := 1, granules := 1, acl := [{ id := 9, r := true, w := true }] })], contexts := [(7, { bound := true, agent := 9, root := 2 * 2 ^ 48 + 4096 })], queues := [(4, { ctx := 7, tile := 5, ring := 2 * 2 ^ 48 + 4096, tail := 1 })] }).hw.queue (4 : Fin 4096)).halted = false ∧ ((running { sys := { memory := 2, moduleId := 2 }, regions := [(3, { state := 1, kind := 1, granules := 1, acl := [{ id := 9, r := true, w := true }] })], contexts := [(7, { bound := true, agent := 9, root := 2 * 2 ^ 48 + 4096 })], queues := [(4, { ctx := 7, tile := 5, ring := 2 * 2 ^ 48 + 4096, tail := 1 })] }).hw.queue (4 : Fin 4096)).ending = false)) ∧ (((running { sys := { memory := 2, moduleId := 2 }, regions := [(3, { state := 1, kind := 1, granules := 1, acl := [{ id := 9, r := true, w := true }] })], contexts := [(7, { bound := true, agent := 9, root := 2 * 2 ^ 48 + 4096 })], queues := [(4, { ctx := 7, tile := 5, ring := 2 * 2 ^ 48 + 4096, tail := 1 })] }).hw.queue (4 : Fin 4096)).execs.any (fun e => !e.2.fetch.isEmpty) = false) ∧ (((running { sys := { memory := 2, moduleId := 2 }, regions := [(3, { state := 1, kind := 1, granules := 1, acl := [{ id := 9, r := true, w := true }] })], contexts := [(7, { bound := true, agent := 9, root := 2 * 2 ^ 48 + 4096 })], queues := [(4, { ctx := 7, tile := 5, ring := 2 * 2 ^ 48 + 4096, tail := 1 })] }).hw.queue (4 : Fin 4096)).head ≠ ((running { sys := { memory := 2, moduleId := 2 }, regions := [(3, { state := 1, kind := 1, granules := 1, acl := [{ id := 9, r := true, w := true }] })], contexts := [(7, { bound := true, agent := 9, root := 2 * 2 ^ 48 + 4096 })], queues := [(4, { ctx := 7, tile := 5, ring := 2 * 2 ^ 48 + 4096, tail := 1 })] }).hw.queue (4 : Fin 4096)).tail) ∧ ((((running { sys := { memory := 2, moduleId := 2 }, regions := [(3, { state := 1, kind := 1, granules := 1, acl := [{ id := 9, r := true, w := true }] })], contexts := [(7, { bound := true, agent := 9, root := 2 * 2 ^ 48 + 4096 })], queues := [(4, { ctx := 7, tile := 5, ring := 2 * 2 ^ 48 + 4096, tail := 1 })] }).hw.queue (4 : Fin 4096)).head + 2 ^ 32 - ((running { sys := { memory := 2, moduleId := 2 }, regions := [(3, { state := 1, kind := 1, granules := 1, acl := [{ id := 9, r := true, w := true }] })], contexts := [(7, { bound := true, agent := 9, root := 2 * 2 ^ 48 + 4096 })], queues := [(4, { ctx := 7, tile := 5, ring := 2 * 2 ^ 48 + 4096, tail := 1 })] }).hw.queue (4 : Fin 4096)).next) % 2 ^ 32 < 8) ∧ (permitRange (running { sys := { memory := 2, moduleId := 2 }, regions := [(3, { state := 1, kind := 1, granules := 1, acl := [{ id := 9, r := true, w := true }] })], contexts := [(7, { bound := true, agent := 9, root := 2 * 2 ^ 48 + 4096 })], queues := [(4, { ctx := 7, tile := 5, ring := 2 * 2 ^ 48 + 4096, tail := 1 })] }).hw ((running { sys := { memory := 2, moduleId := 2 }, regions := [(3, { state := 1, kind := 1, granules := 1, acl := [{ id := 9, r := true, w := true }] })], contexts := [(7, { bound := true, agent := 9, root := 2 * 2 ^ 48 + 4096 })], queues := [(4, { ctx := 7, tile := 5, ring := 2 * 2 ^ 48 + 4096, tail := 1 })] }).hw.ctx ((running { sys := { memory := 2, moduleId := 2 }, regions := [(3, { state := 1, kind := 1, granules := 1, acl := [{ id := 9, r := true, w := true }] })], contexts := [(7, { bound := true, agent := 9, root := 2 * 2 ^ 48 + 4096 })], queues := [(4, { ctx := 7, tile := 5, ring := 2 * 2 ^ 48 + 4096, tail := 1 })] }).hw.queue (4 : Fin 4096)).ctx).agent (fpaNode ((running { sys := { memory := 2, moduleId := 2 }, regions := [(3, { state := 1, kind := 1, granules := 1, acl := [{ id := 9, r := true, w := true }] })], contexts := [(7, { bound := true, agent := 9, root := 2 * 2 ^ 48 + 4096 })], queues := [(4, { ctx := 7, tile := 5, ring := 2 * 2 ^ 48 + 4096, tail := 1 })] }).hw.queue (4 : Fin 4096)).ring) (fpaOffset ((running { sys := { memory := 2, moduleId := 2 }, regions := [(3, { state := 1, kind := 1, granules := 1, acl := [{ id := 9, r := true, w := true }] })], contexts := [(7, { bound := true, agent := 9, root := 2 * 2 ^ 48 + 4096 })], queues := [(4, { ctx := 7, tile := 5, ring := 2 * 2 ^ 48 + 4096, tail := 1 })] }).hw.queue (4 : Fin 4096)).ring + 64 * (((running { sys := { memory := 2, moduleId := 2 }, regions := [(3, { state := 1, kind := 1, granules := 1, acl := [{ id := 9, r := true, w := true }] })], contexts := [(7, { bound := true, agent := 9, root := 2 * 2 ^ 48 + 4096 })], queues := [(4, { ctx := 7, tile := 5, ring := 2 * 2 ^ 48 + 4096, tail := 1 })] }).hw.queue (4 : Fin 4096)).head % 2 ^ ((running { sys := { memory := 2, moduleId := 2 }, regions := [(3, { state := 1, kind := 1, granules := 1, acl := [{ id := 9, r := true, w := true }] })], contexts := [(7, { bound := true, agent := 9, root := 2 * 2 ^ 48 + 4096 })], queues := [(4, { ctx := 7, tile := 5, ring := 2 * 2 ^ 48 + 4096, tail := 1 })] }).hw.queue (4 : Fin 4096)).ringLog2)) 64 .read = (.ok ([(3, 0)]), ((running { sys := { memory := 2, moduleId := 2 }, regions := [(3, { state := 1, kind := 1, granules := 1, acl := [{ id := 9, r := true, w := true }] })], contexts := [(7, { bound := true, agent := 9, root := 2 * 2 ^ 48 + 4096 })], queues := [(4, { ctx := 7, tile := 5, ring := 2 * 2 ^ 48 + 4096, tail := 1 })] }).hw)))) ∧
    ((KMap.find? ((running { sys := { memory := 2, moduleId := 2 }, regions := [(3, { state := 1, kind := 1, granules := 1, acl := [{ id := 9, r := true, w := true }] })], contexts := [(7, { bound := true, agent := 9, root := 2 * 2 ^ 48 + 4096 })], queues := [(4, { ctx := 7, tile := 5, ring := 2 * 2 ^ 48 + 4096, execs := [(0, { desc := leBytes 64 (1 + 2 ^ 160 * 4096 + 2 ^ 192 * 2 ^ 58 + 2 ^ 320) })] })] }).hw.queue (4 : Fin 4096)).execs 0 = some ({ desc := leBytes 64 (1 + 2 ^ 160 * 4096 + 2 ^ 192 * 2 ^ 58 + 2 ^ 320) } : Exec)) ∧ ((({ desc := leBytes 64 (1 + 2 ^ 160 * 4096 + 2 ^ 192 * 2 ^ 58 + 2 ^ 320) } : Exec).desc ≠ [] ∧ ({ desc := leBytes 64 (1 + 2 ^ 160 * 4096 + 2 ^ 192 * 2 ^ 58 + 2 ^ 320) } : Exec).ended = false)) ∧ (runsQueue (running { sys := { memory := 2, moduleId := 2 }, regions := [(3, { state := 1, kind := 1, granules := 1, acl := [{ id := 9, r := true, w := true }] })], contexts := [(7, { bound := true, agent := 9, root := 2 * 2 ^ 48 + 4096 })], queues := [(4, { ctx := 7, tile := 5, ring := 2 * 2 ^ 48 + 4096, execs := [(0, { desc := leBytes 64 (1 + 2 ^ 160 * 4096 + 2 ^ 192 * 2 ^ 58 + 2 ^ 320) })] })] }).hw (4 : Fin 4096) = true) ∧ (nextPage (running { sys := { memory := 2, moduleId := 2 }, regions := [(3, { state := 1, kind := 1, granules := 1, acl := [{ id := 9, r := true, w := true }] })], contexts := [(7, { bound := true, agent := 9, root := 2 * 2 ^ 48 + 4096 })], queues := [(4, { ctx := 7, tile := 5, ring := 2 * 2 ^ 48 + 4096, execs := [(0, { desc := leBytes 64 (1 + 2 ^ 160 * 4096 + 2 ^ 192 * 2 ^ 58 + 2 ^ 320) })] })] }).hw (4 : Fin 4096) ({ desc := leBytes 64 (1 + 2 ^ 160 * 4096 + 2 ^ 192 * 2 ^ 58 + 2 ^ 320) } : Exec) = some ((2 ^ 58), 0)) ∧ ((walk ((running { sys := { memory := 2, moduleId := 2 }, regions := [(3, { state := 1, kind := 1, granules := 1, acl := [{ id := 9, r := true, w := true }] })], contexts := [(7, { bound := true, agent := 9, root := 2 * 2 ^ 48 + 4096 })], queues := [(4, { ctx := 7, tile := 5, ring := 2 * 2 ^ 48 + 4096, execs := [(0, { desc := leBytes 64 (1 + 2 ^ 160 * 4096 + 2 ^ 192 * 2 ^ 58 + 2 ^ 320) })] })] }).hw.queue (4 : Fin 4096)).tile ((running { sys := { memory := 2, moduleId := 2 }, regions := [(3, { state := 1, kind := 1, granules := 1, acl := [{ id := 9, r := true, w := true }] })], contexts := [(7, { bound := true, agent := 9, root := 2 * 2 ^ 48 + 4096 })], queues := [(4, { ctx := 7, tile := 5, ring := 2 * 2 ^ 48 + 4096, execs := [(0, { desc := leBytes 64 (1 + 2 ^ 160 * 4096 + 2 ^ 192 * 2 ^ 58 + 2 ^ 320) })] })] }).hw.queue (4 : Fin 4096)).ctx (2 ^ 58) { s := (running { sys := { memory := 2, moduleId := 2 }, regions := [(3, { state := 1, kind := 1, granules := 1, acl := [{ id := 9, r := true, w := true }] })], contexts := [(7, { bound := true, agent := 9, root := 2 * 2 ^ 48 + 4096 })], queues := [(4, { ctx := 7, tile := 5, ring := 2 * 2 ^ 48 + 4096, execs := [(0, { desc := leBytes 64 (1 + 2 ^ 160 * 4096 + 2 ^ 192 * 2 ^ 58 + 2 ^ 320) })] })] }), reads := ({ desc := leBytes 64 (1 + 2 ^ 160 * 4096 + 2 ^ 192 * 2 ^ 58 + 2 ^ 320) } : Exec).run.walkReads, sclass := ({ desc := leBytes 64 (1 + 2 ^ 160 * 4096 + 2 ^ 192 * 2 ^ 58 + 2 ^ 320) } : Exec).sclass }).1 = .fault 4 0) ∧ (KMap.find? ((walk ((running { sys := { memory := 2, moduleId := 2 }, regions := [(3, { state := 1, kind := 1, granules := 1, acl := [{ id := 9, r := true, w := true }] })], contexts := [(7, { bound := true, agent := 9, root := 2 * 2 ^ 48 + 4096 })], queues := [(4, { ctx := 7, tile := 5, ring := 2 * 2 ^ 48 + 4096, execs := [(0, { desc := leBytes 64 (1 + 2 ^ 160 * 4096 + 2 ^ 192 * 2 ^ 58 + 2 ^ 320) })] })] }).hw.queue (4 : Fin 4096)).tile ((running { sys := { memory := 2, moduleId := 2 }, regions := [(3, { state := 1, kind := 1, granules := 1, acl := [{ id := 9, r := true, w := true }] })], contexts := [(7, { bound := true, agent := 9, root := 2 * 2 ^ 48 + 4096 })], queues := [(4, { ctx := 7, tile := 5, ring := 2 * 2 ^ 48 + 4096, execs := [(0, { desc := leBytes 64 (1 + 2 ^ 160 * 4096 + 2 ^ 192 * 2 ^ 58 + 2 ^ 320) })] })] }).hw.queue (4 : Fin 4096)).ctx (2 ^ 58) { s := (running { sys := { memory := 2, moduleId := 2 }, regions := [(3, { state := 1, kind := 1, granules := 1, acl := [{ id := 9, r := true, w := true }] })], contexts := [(7, { bound := true, agent := 9, root := 2 * 2 ^ 48 + 4096 })], queues := [(4, { ctx := 7, tile := 5, ring := 2 * 2 ^ 48 + 4096, execs := [(0, { desc := leBytes 64 (1 + 2 ^ 160 * 4096 + 2 ^ 192 * 2 ^ 58 + 2 ^ 320) })] })] }), reads := ({ desc := leBytes 64 (1 + 2 ^ 160 * 4096 + 2 ^ 192 * 2 ^ 58 + 2 ^ 320) } : Exec).run.walkReads, sclass := ({ desc := leBytes 64 (1 + 2 ^ 160 * 4096 + 2 ^ 192 * 2 ^ 58 + 2 ^ 320) } : Exec).sclass }).2.s.hw.queue (4 : Fin 4096)).execs 0 = some ({ desc := leBytes 64 (1 + 2 ^ 160 * 4096 + 2 ^ 192 * 2 ^ 58 + 2 ^ 320) } : Exec))) ∧
    ((KMap.find? (({ running { sys := { memory := 2, moduleId := 2 }, regions := [(3, { state := 1, kind := 1, granules := 1, acl := [{ id := 9, r := true, w := true }] })], contexts := [(7, { bound := true, agent := 9, root := 2 * 2 ^ 48 + 4096 })], queues := [(4, { ctx := 7, tile := 5, ring := 2 * 2 ^ 48 + 4096, execs := [(0, { desc := leBytes 64 (1 + 2 ^ 160 * 4096 + 2 ^ 192 * 2 ^ 21 + 2 ^ 320) })] })] } with pool := { mem := [(4096, 7#8), (4097, 32#8), (4102, 2#8), (8192, 7#8), (8193, 48#8), (8198, 2#8), (12288, 7#8), (12289, 64#8), (12294, 2#8), (16392, 23#8), (16394, 32#8), (16398, 2#8)] } }).hw.queue (4 : Fin 4096)).execs 0 = some ({ desc := leBytes 64 (1 + 2 ^ 160 * 4096 + 2 ^ 192 * 2 ^ 21 + 2 ^ 320) } : Exec)) ∧ ((({ desc := leBytes 64 (1 + 2 ^ 160 * 4096 + 2 ^ 192 * 2 ^ 21 + 2 ^ 320) } : Exec).desc ≠ [] ∧ ({ desc := leBytes 64 (1 + 2 ^ 160 * 4096 + 2 ^ 192 * 2 ^ 21 + 2 ^ 320) } : Exec).ended = false)) ∧ (runsQueue ({ running { sys := { memory := 2, moduleId := 2 }, regions := [(3, { state := 1, kind := 1, granules := 1, acl := [{ id := 9, r := true, w := true }] })], contexts := [(7, { bound := true, agent := 9, root := 2 * 2 ^ 48 + 4096 })], queues := [(4, { ctx := 7, tile := 5, ring := 2 * 2 ^ 48 + 4096, execs := [(0, { desc := leBytes 64 (1 + 2 ^ 160 * 4096 + 2 ^ 192 * 2 ^ 21 + 2 ^ 320) })] })] } with pool := { mem := [(4096, 7#8), (4097, 32#8), (4102, 2#8), (8192, 7#8), (8193, 48#8), (8198, 2#8), (12288, 7#8), (12289, 64#8), (12294, 2#8), (16392, 23#8), (16394, 32#8), (16398, 2#8)] } }).hw (4 : Fin 4096) = true) ∧ (nextPage ({ running { sys := { memory := 2, moduleId := 2 }, regions := [(3, { state := 1, kind := 1, granules := 1, acl := [{ id := 9, r := true, w := true }] })], contexts := [(7, { bound := true, agent := 9, root := 2 * 2 ^ 48 + 4096 })], queues := [(4, { ctx := 7, tile := 5, ring := 2 * 2 ^ 48 + 4096, execs := [(0, { desc := leBytes 64 (1 + 2 ^ 160 * 4096 + 2 ^ 192 * 2 ^ 21 + 2 ^ 320) })] })] } with pool := { mem := [(4096, 7#8), (4097, 32#8), (4102, 2#8), (8192, 7#8), (8193, 48#8), (8198, 2#8), (12288, 7#8), (12289, 64#8), (12294, 2#8), (16392, 23#8), (16394, 32#8), (16398, 2#8)] } }).hw (4 : Fin 4096) ({ desc := leBytes 64 (1 + 2 ^ 160 * 4096 + 2 ^ 192 * 2 ^ 21 + 2 ^ 320) } : Exec) = some ((2 ^ 21), 0)) ∧ ((walk (({ running { sys := { memory := 2, moduleId := 2 }, regions := [(3, { state := 1, kind := 1, granules := 1, acl := [{ id := 9, r := true, w := true }] })], contexts := [(7, { bound := true, agent := 9, root := 2 * 2 ^ 48 + 4096 })], queues := [(4, { ctx := 7, tile := 5, ring := 2 * 2 ^ 48 + 4096, execs := [(0, { desc := leBytes 64 (1 + 2 ^ 160 * 4096 + 2 ^ 192 * 2 ^ 21 + 2 ^ 320) })] })] } with pool := { mem := [(4096, 7#8), (4097, 32#8), (4102, 2#8), (8192, 7#8), (8193, 48#8), (8198, 2#8), (12288, 7#8), (12289, 64#8), (12294, 2#8), (16392, 23#8), (16394, 32#8), (16398, 2#8)] } }).hw.queue (4 : Fin 4096)).tile (({ running { sys := { memory := 2, moduleId := 2 }, regions := [(3, { state := 1, kind := 1, granules := 1, acl := [{ id := 9, r := true, w := true }] })], contexts := [(7, { bound := true, agent := 9, root := 2 * 2 ^ 48 + 4096 })], queues := [(4, { ctx := 7, tile := 5, ring := 2 * 2 ^ 48 + 4096, execs := [(0, { desc := leBytes 64 (1 + 2 ^ 160 * 4096 + 2 ^ 192 * 2 ^ 21 + 2 ^ 320) })] })] } with pool := { mem := [(4096, 7#8), (4097, 32#8), (4102, 2#8), (8192, 7#8), (8193, 48#8), (8198, 2#8), (12288, 7#8), (12289, 64#8), (12294, 2#8), (16392, 23#8), (16394, 32#8), (16398, 2#8)] } }).hw.queue (4 : Fin 4096)).ctx (2 ^ 21) { s := ({ running { sys := { memory := 2, moduleId := 2 }, regions := [(3, { state := 1, kind := 1, granules := 1, acl := [{ id := 9, r := true, w := true }] })], contexts := [(7, { bound := true, agent := 9, root := 2 * 2 ^ 48 + 4096 })], queues := [(4, { ctx := 7, tile := 5, ring := 2 * 2 ^ 48 + 4096, execs := [(0, { desc := leBytes 64 (1 + 2 ^ 160 * 4096 + 2 ^ 192 * 2 ^ 21 + 2 ^ 320) })] })] } with pool := { mem := [(4096, 7#8), (4097, 32#8), (4102, 2#8), (8192, 7#8), (8193, 48#8), (8198, 2#8), (12288, 7#8), (12289, 64#8), (12294, 2#8), (16392, 23#8), (16394, 32#8), (16398, 2#8)] } }), reads := ({ desc := leBytes 64 (1 + 2 ^ 160 * 4096 + 2 ^ 192 * 2 ^ 21 + 2 ^ 320) } : Exec).run.walkReads, sclass := ({ desc := leBytes 64 (1 + 2 ^ 160 * 4096 + 2 ^ 192 * 2 ^ 21 + 2 ^ 320) } : Exec).sclass }).1 = .ok ({ ctx := 7, va := 2 ^ 21, size := 2 ^ 21, fpa := 2 * 2 ^ 48 + 2 ^ 21, r := true, w := true, level := 2 } : PreEntry)) ∧ (({ ctx := 7, va := 2 ^ 21, size := 2 ^ 21, fpa := 2 * 2 ^ 48 + 2 ^ 21, r := true, w := true, level := 2 } : PreEntry).allows 0 = true) ∧ (KMap.find? ((walk (({ running { sys := { memory := 2, moduleId := 2 }, regions := [(3, { state := 1, kind := 1, granules := 1, acl := [{ id := 9, r := true, w := true }] })], contexts := [(7, { bound := true, agent := 9, root := 2 * 2 ^ 48 + 4096 })], queues := [(4, { ctx := 7, tile := 5, ring := 2 * 2 ^ 48 + 4096, execs := [(0, { desc := leBytes 64 (1 + 2 ^ 160 * 4096 + 2 ^ 192 * 2 ^ 21 + 2 ^ 320) })] })] } with pool := { mem := [(4096, 7#8), (4097, 32#8), (4102, 2#8), (8192, 7#8), (8193, 48#8), (8198, 2#8), (12288, 7#8), (12289, 64#8), (12294, 2#8), (16392, 23#8), (16394, 32#8), (16398, 2#8)] } }).hw.queue (4 : Fin 4096)).tile (({ running { sys := { memory := 2, moduleId := 2 }, regions := [(3, { state := 1, kind := 1, granules := 1, acl := [{ id := 9, r := true, w := true }] })], contexts := [(7, { bound := true, agent := 9, root := 2 * 2 ^ 48 + 4096 })], queues := [(4, { ctx := 7, tile := 5, ring := 2 * 2 ^ 48 + 4096, execs := [(0, { desc := leBytes 64 (1 + 2 ^ 160 * 4096 + 2 ^ 192 * 2 ^ 21 + 2 ^ 320) })] })] } with pool := { mem := [(4096, 7#8), (4097, 32#8), (4102, 2#8), (8192, 7#8), (8193, 48#8), (8198, 2#8), (12288, 7#8), (12289, 64#8), (12294, 2#8), (16392, 23#8), (16394, 32#8), (16398, 2#8)] } }).hw.queue (4 : Fin 4096)).ctx (2 ^ 21) { s := ({ running { sys := { memory := 2, moduleId := 2 }, regions := [(3, { state := 1, kind := 1, granules := 1, acl := [{ id := 9, r := true, w := true }] })], contexts := [(7, { bound := true, agent := 9, root := 2 * 2 ^ 48 + 4096 })], queues := [(4, { ctx := 7, tile := 5, ring := 2 * 2 ^ 48 + 4096, execs := [(0, { desc := leBytes 64 (1 + 2 ^ 160 * 4096 + 2 ^ 192 * 2 ^ 21 + 2 ^ 320) })] })] } with pool := { mem := [(4096, 7#8), (4097, 32#8), (4102, 2#8), (8192, 7#8), (8193, 48#8), (8198, 2#8), (12288, 7#8), (12289, 64#8), (12294, 2#8), (16392, 23#8), (16394, 32#8), (16398, 2#8)] } }), reads := ({ desc := leBytes 64 (1 + 2 ^ 160 * 4096 + 2 ^ 192 * 2 ^ 21 + 2 ^ 320) } : Exec).run.walkReads, sclass := ({ desc := leBytes 64 (1 + 2 ^ 160 * 4096 + 2 ^ 192 * 2 ^ 21 + 2 ^ 320) } : Exec).sclass }).2.s.hw.queue (4 : Fin 4096)).execs 0 = some ({ desc := leBytes 64 (1 + 2 ^ 160 * 4096 + 2 ^ 192 * 2 ^ 21 + 2 ^ 320) } : Exec))) ∧
    ((((running { sys := { memory := 2, moduleId := 2 }, regions := [(3, { state := 1, kind := 1, granules := 1, acl := [{ id := 9, r := true, w := true }] })], contexts := [(7, { bound := true, agent := 9, root := 2 * 2 ^ 48 + 4096 })], queues := [(4, { ctx := 7, tile := 5, ring := 2 * 2 ^ 48 + 4096, execs := [(0, { desc := leBytes 64 12 })] })], clk := { gateTile := 0 } }).hw.queue (4 : Fin 4096)).next = 0) ∧ (startTurn (running { sys := { memory := 2, moduleId := 2 }, regions := [(3, { state := 1, kind := 1, granules := 1, acl := [{ id := 9, r := true, w := true }] })], contexts := [(7, { bound := true, agent := 9, root := 2 * 2 ^ 48 + 4096 })], queues := [(4, { ctx := 7, tile := 5, ring := 2 * 2 ^ 48 + 4096, execs := [(0, { desc := leBytes 64 12 })] })], clk := { gateTile := 0 } }).hw ((running { sys := { memory := 2, moduleId := 2 }, regions := [(3, { state := 1, kind := 1, granules := 1, acl := [{ id := 9, r := true, w := true }] })], contexts := [(7, { bound := true, agent := 9, root := 2 * 2 ^ 48 + 4096 })], queues := [(4, { ctx := 7, tile := 5, ring := 2 * 2 ^ 48 + 4096, execs := [(0, { desc := leBytes 64 12 })] })], clk := { gateTile := 0 } }).hw.queue (4 : Fin 4096)).tile = some (4 : Fin 4096).val) ∧ (KMap.find? ((running { sys := { memory := 2, moduleId := 2 }, regions := [(3, { state := 1, kind := 1, granules := 1, acl := [{ id := 9, r := true, w := true }] })], contexts := [(7, { bound := true, agent := 9, root := 2 * 2 ^ 48 + 4096 })], queues := [(4, { ctx := 7, tile := 5, ring := 2 * 2 ^ 48 + 4096, execs := [(0, { desc := leBytes 64 12 })] })], clk := { gateTile := 0 } }).hw.queue (4 : Fin 4096)).execs 0 = some ({ desc := leBytes 64 12 } : Exec)) ∧ (({ desc := leBytes 64 12 } : Exec).badComp = false) ∧ (({ desc := leBytes 64 12 } : Exec).badFields = false)) ∧
    ((KMap.find? ((settleExec (4 : Fin 4096) 0 (running { sys := { memory := 2, moduleId := 2 }, regions := [(3, { state := 1, kind := 1, granules := 1, acl := [{ id := 9, r := true, w := true }] })], contexts := [(7, { bound := true, agent := 9, root := 2 * 2 ^ 48 + 4096 })], queues := [(4, { ctx := 7, tile := 5, ring := 2 * 2 ^ 48 + 4096, execs := [(0, { desc := leBytes 64 12, started := true, run := { pieces := [{ len := 8 }] } })] })] }).hw).queue (4 : Fin 4096)).execs 0 = some ({ desc := leBytes 64 12, started := true, run := { pieces := [{ len := 8 }] } } : Exec)) ∧ ((({ desc := leBytes 64 12, started := true, run := { pieces := [{ len := 8 }] } } : Exec).started = true ∧ ({ desc := leBytes 64 12, started := true, run := { pieces := [{ len := 8 }] } } : Exec).ended = false)) ∧ (runsQueue (settleExec (4 : Fin 4096) 0 (running { sys := { memory := 2, moduleId := 2 }, regions := [(3, { state := 1, kind := 1, granules := 1, acl := [{ id := 9, r := true, w := true }] })], contexts := [(7, { bound := true, agent := 9, root := 2 * 2 ^ 48 + 4096 })], queues := [(4, { ctx := 7, tile := 5, ring := 2 * 2 ^ 48 + 4096, execs := [(0, { desc := leBytes 64 12, started := true, run := { pieces := [{ len := 8 }] } })] })] }).hw) (4 : Fin 4096) = true)) ∧
    ((runsQueue (running { sys := { memory := 2, moduleId := 2 }, regions := [(3, { state := 1, kind := 1, granules := 1, acl := [{ id := 9, r := true, w := true }] })], contexts := [(7, { bound := true, agent := 9, root := 2 * 2 ^ 48 + 4096 })], queues := [(4, { ctx := 7, tile := 5, ring := 2 * 2 ^ 48 + 4096,  })] }).hw (4 : Fin 4096) = true)) ∧
    ((KMap.find? ((settleExec (4 : Fin 4096) 0 (running { sys := { memory := 2, moduleId := 2 }, regions := [(3, { state := 1, kind := 1, granules := 1, acl := [{ id := 9, r := true, w := true }] })], contexts := [(7, { bound := true, agent := 9, root := 2 * 2 ^ 48 + 4096 })], queues := [(4, { ctx := 7, tile := 5, ring := 2 * 2 ^ 48 + 4096, execs := [(0, { desc := leBytes 64 12, started := true, ended := true })] })] }).hw).queue (4 : Fin 4096)).execs 0 = some ({ desc := leBytes 64 12, started := true, ended := true } : Exec)) ∧ (({ desc := leBytes 64 12, started := true, ended := true } : Exec).ended = true) ∧ (runsQueue (settleExec (4 : Fin 4096) 0 (running { sys := { memory := 2, moduleId := 2 }, regions := [(3, { state := 1, kind := 1, granules := 1, acl := [{ id := 9, r := true, w := true }] })], contexts := [(7, { bound := true, agent := 9, root := 2 * 2 ^ 48 + 4096 })], queues := [(4, { ctx := 7, tile := 5, ring := 2 * 2 ^ 48 + 4096, execs := [(0, { desc := leBytes 64 12, started := true, ended := true })] })] }).hw) (4 : Fin 4096) = true) ∧ (({ desc := leBytes 64 12, started := true, ended := true } : Exec).phase ≠ 2) ∧ (({ desc := leBytes 64 12, started := true, ended := true } : Exec).run.chunk.isSome = false) ∧ ((({ desc := leBytes 64 12, started := true, ended := true } : Exec).finish ≠ 2 ∧ ({ desc := leBytes 64 12, started := true, ended := true } : Exec).badComp = false))) ∧
    ((KMap.find? ((running { sys := { memory := 2, moduleId := 2 }, regions := [(3, { state := 1, kind := 1, granules := 1, acl := [{ id := 9, r := true, w := true }] })], contexts := [(7, { bound := true, agent := 9, root := 2 * 2 ^ 48 + 4096 })], queues := [(4, { ctx := 7, tile := 5, ring := 2 * 2 ^ 48 + 4096, execs := [(0, { desc := leBytes 64 11, started := true, phase := 1, stage := 2 })] })] }).hw.queue (4 : Fin 4096)).execs 0 = some ({ desc := leBytes 64 11, started := true, phase := 1, stage := 2 } : Exec)) ∧ ((({ desc := leBytes 64 11, started := true, phase := 1, stage := 2 } : Exec).type = 11 ∧ ({ desc := leBytes 64 11, started := true, phase := 1, stage := 2 } : Exec).ended = false ∧ ({ desc := leBytes 64 11, started := true, phase := 1, stage := 2 } : Exec).phase = 1)) ∧ ((({ desc := leBytes 64 11, started := true, phase := 1, stage := 2 } : Exec).run.stall = 0 ∧ ({ desc := leBytes 64 11, started := true, phase := 1, stage := 2 } : Exec).run.pieces = [])) ∧ (runsQueue (running { sys := { memory := 2, moduleId := 2 }, regions := [(3, { state := 1, kind := 1, granules := 1, acl := [{ id := 9, r := true, w := true }] })], contexts := [(7, { bound := true, agent := 9, root := 2 * 2 ^ 48 + 4096 })], queues := [(4, { ctx := 7, tile := 5, ring := 2 * 2 ^ 48 + 4096, execs := [(0, { desc := leBytes 64 11, started := true, phase := 1, stage := 2 })] })] }).hw (4 : Fin 4096) = true) ∧ ((({ desc := leBytes 64 11, started := true, phase := 1, stage := 2 } : Exec).stage = 2 ∧ ({ desc := leBytes 64 11, started := true, phase := 1, stage := 2 } : Exec).bits 352 32 = 0))) ∧
    ((KMap.find? ((running { sys := { memory := 2, moduleId := 2 }, regions := [(3, { state := 1, kind := 1, granules := 1, acl := [{ id := 9, r := true, w := true }] })], contexts := [(7, { bound := true, agent := 9, root := 2 * 2 ^ 48 + 4096 })], queues := [(4, { ctx := 7, tile := 5, ring := 2 * 2 ^ 48 + 4096, execs := [(0, { desc := leBytes 64 5, started := true, phase := 1, stage := 2 })] })] }).hw.queue (4 : Fin 4096)).execs 0 = some ({ desc := leBytes 64 5, started := true, phase := 1, stage := 2 } : Exec)) ∧ ((({ desc := leBytes 64 5, started := true, phase := 1, stage := 2 } : Exec).type = 5 ∧ ({ desc := leBytes 64 5, started := true, phase := 1, stage := 2 } : Exec).ended = false ∧ ({ desc := leBytes 64 5, started := true, phase := 1, stage := 2 } : Exec).phase = 1 ∧ ({ desc := leBytes 64 5, started := true, phase := 1, stage := 2 } : Exec).stage = 2)) ∧ (runsQueue (running { sys := { memory := 2, moduleId := 2 }, regions := [(3, { state := 1, kind := 1, granules := 1, acl := [{ id := 9, r := true, w := true }] })], contexts := [(7, { bound := true, agent := 9, root := 2 * 2 ^ 48 + 4096 })], queues := [(4, { ctx := 7, tile := 5, ring := 2 * 2 ^ 48 + 4096, execs := [(0, { desc := leBytes 64 5, started := true, phase := 1, stage := 2 })] })] }).hw (4 : Fin 4096) = true) ∧ ((running { sys := { memory := 2, moduleId := 2 }, regions := [(3, { state := 1, kind := 1, granules := 1, acl := [{ id := 9, r := true, w := true }] })], contexts := [(7, { bound := true, agent := 9, root := 2 * 2 ^ 48 + 4096 })], queues := [(4, { ctx := 7, tile := 5, ring := 2 * 2 ^ 48 + 4096, execs := [(0, { desc := leBytes 64 5, started := true, phase := 1, stage := 2 })] })] }).hw.time.now < ({ desc := leBytes 64 5, started := true, phase := 1, stage := 2 } : Exec).since + 10 * ((running { sys := { memory := 2, moduleId := 2 }, regions := [(3, { state := 1, kind := 1, granules := 1, acl := [{ id := 9, r := true, w := true }] })], contexts := [(7, { bound := true, agent := 9, root := 2 * 2 ^ 48 + 4096 })], queues := [(4, { ctx := 7, tile := 5, ring := 2 * 2 ^ 48 + 4096, execs := [(0, { desc := leBytes 64 5, started := true, phase := 1, stage := 2 })] })] }).hw.queue (4 : Fin 4096)).e2e * 1000000)) := by
  refine ⟨?_, ?_, ?_, ?_, ?_, ?_, ?_, ?_, ?_⟩ <;> decide +kernel

theorem witness_CollectiveCommandsComplete :
    ((Asks (asked 0x701 [5 + 2 ^ 16 * 7, 0, 64 + 2 ^ 32 * 8 + 2 ^ 40 * 2, 2 ^ 48, 0, 0, 0xFFFF00000000, 2 ^ 32, 1000] { sys := { memory := 2, moduleId := 2 }, regions := [(3, { state := 1, kind := 1, granules := 1, acl := [{ id := 9, r := true, w := true }] })], contexts := [(7, { bound := true, agent := 9, root := 2 * 2 ^ 48 + 4096 })] }) 0 0x701 [.f 10, .f 16, .f 2, .f 32, .f 32, .f 32, .f 4, .f 7, .f 1, .f 64, .f 64, .f 64, .f 64, .f 32, .f 16, .f 1, .f 32, .f 2] false [5, 7, 0, 0, 0, 64, 8, 2, 0, (2 ^ 48), 0, 0, 0xFFFF00000000, 0, 1, 0, 1000, 0]) ∧ (poolOpen (asked 0x701 [5 + 2 ^ 16 * 7, 0, 64 + 2 ^ 32 * 8 + 2 ^ 40 * 2, 2 ^ 48, 0, 0, 0xFFFF00000000, 2 ^ 32, 1000] { sys := { memory := 2, moduleId := 2 }, regions := [(3, { state := 1, kind := 1, granules := 1, acl := [{ id := 9, r := true, w := true }] })], contexts := [(7, { bound := true, agent := 9, root := 2 * 2 ^ 48 + 4096 })] }).hw = true) ∧ (((asked 0x701 [5 + 2 ^ 16 * 7, 0, 64 + 2 ^ 32 * 8 + 2 ^ 40 * 2, 2 ^ 48, 0, 0, 0xFFFF00000000, 2 ^ 32, 1000] { sys := { memory := 2, moduleId := 2 }, regions := [(3, { state := 1, kind := 1, granules := 1, acl := [{ id := 9, r := true, w := true }] })], contexts := [(7, { bound := true, agent := 9, root := 2 * 2 ^ 48 + 4096 })] }).hw.sys.compute == 3) = false) ∧ (KMap.has (asked 0x701 [5 + 2 ^ 16 * 7, 0, 64 + 2 ^ 32 * 8 + 2 ^ 40 * 2, 2 ^ 48, 0, 0, 0xFFFF00000000, 2 ^ 32, 1000] { sys := { memory := 2, moduleId := 2 }, regions := [(3, { state := 1, kind := 1, granules := 1, acl := [{ id := 9, r := true, w := true }] })], contexts := [(7, { bound := true, agent := 9, root := 2 * 2 ^ 48 + 4096 })] }).hw.colls 5 = false) ∧ ((64 % 32 = 0 ∧ 32 ≤ 64 ∧ 64 ≤ 2 ^ 26)) ∧ ((8 ≤ 8 ∧ 8 ≤ 12 ∧ 1 ≤ 2 ∧ 2 ≤ 64)) ∧ (((2 ^ 48) % 64 = 0 ∧ 0 % 32 = 0 ∧ 0 % 64 = 0)) ∧ ((badCollGuard 0xFFFF00000000 = false ∧ 10 ≤ 1000 ∧ 1000 ≤ 10000000)) ∧ (((asked 0x701 [5 + 2 ^ 16 * 7, 0, 64 + 2 ^ 32 * 8 + 2 ^ 40 * 2, 2 ^ 48, 0, 0, 0xFFFF00000000, 2 ^ 32, 1000] { sys := { memory := 2, moduleId := 2 }, regions := [(3, { state := 1, kind := 1, granules := 1, acl := [{ id := 9, r := true, w := true }] })], contexts := [(7, { bound := true, agent := 9, root := 2 * 2 ^ 48 + 4096 })] }).hw.ctx 7).bound = true) ∧ ((reducible 0 = true ∧ fSide 0 = false ∧ badFormat 0 0 false = false)) ∧ (((fScale 0 == 2) = false ∧ fSide 0 = false ∧ badFormat 0 0 true = false ∧ isLut 0 = false)) ∧ ((asked 0x701 [5 + 2 ^ 16 * 7, 0, 64 + 2 ^ 32 * 8 + 2 ^ 40 * 2, 2 ^ 48, 0, 0, 0xFFFF00000000, 2 ^ 32, 1000] { sys := { memory := 2, moduleId := 2 }, regions := [(3, { state := 1, kind := 1, granules := 1, acl := [{ id := 9, r := true, w := true }] })], contexts := [(7, { bound := true, agent := 9, root := 2 * 2 ^ 48 + 4096 })] }).hw.pair.state = 0) ∧ ((64 + 2 ^ 8 - 1) / 2 ^ 8 ≤ 65536) ∧ ((rowBytes (fElem 0) (2 ^ 8) ≤ 4096 ∧ rowBytes (fElem 0) (2 ^ 8) ≤ 4096)) ∧ (scratchReserved (asked 0x701 [5 + 2 ^ 16 * 7, 0, 64 + 2 ^ 32 * 8 + 2 ^ 40 * 2, 2 ^ 48, 0, 0, 0xFFFF00000000, 2 ^ 32, 1000] { sys := { memory := 2, moduleId := 2 }, regions := [(3, { state := 1, kind := 1, granules := 1, acl := [{ id := 9, r := true, w := true }] })], contexts := [(7, { bound := true, agent := 9, root := 2 * 2 ^ 48 + 4096 })] }).hw + 2 * alignUp 4096 (41 * 2 ^ 8) ≤ 2097152)) ∧
    ((Asks (asked 0x702 [5 + 2 ^ 16 + 2 ^ 32 * 50, 2] { colls := [(5, { ctx := 7, count := 64 })] }) 0 0x702 [.f 10, .f 1, .f 32, .f 2] false [5, 1, 50, 2]) ∧ (KMap.has (asked 0x702 [5 + 2 ^ 16 + 2 ^ 32 * 50, 2] { colls := [(5, { ctx := 7, count := 64 })] }).hw.colls 5 = true) ∧ ((10 ≤ 50 ∧ 50 ≤ 10000000))) ∧
    ((Asks (asked 0x703 [5] { colls := [(5, { ctx := 7, count := 64 })] }) 0 0x703 [.f 10, .f 1] false [5, 0]) ∧ (KMap.has (asked 0x703 [5] { colls := [(5, { ctx := 7, count := 64 })] }).hw.colls 5 = true) ∧ (((asked 0x703 [5] { colls := [(5, { ctx := 7, count := 64 })] }).hw.coll 5).inst = none)) ∧
    ((Asks (asked 0x703 [5 + 2 ^ 16] { colls := [(5, { ctx := 7, count := 64, inst := some {} })] }) 0 0x703 [.f 10, .f 1] false [5, 1]) ∧ (KMap.has (asked 0x703 [5 + 2 ^ 16] { colls := [(5, { ctx := 7, count := 64, inst := some {} })] }).hw.colls 5 = true) ∧ (((asked 0x703 [5 + 2 ^ 16] { colls := [(5, { ctx := 7, count := 64, inst := some {} })] }).hw.coll 5).inst = some ({} : Instance))) ∧
    ((Asks (asked 0x704 [5] { colls := [(5, { ctx := 7, count := 64 })] }) 0 0x704 [.f 10] true [5]) ∧ (KMap.has (asked 0x704 [5] { colls := [(5, { ctx := 7, count := 64 })] }).hw.colls 5 = true)) ∧
    ((Asks (asked 0x705 [5 + 2 ^ 16 * 3 + 2 ^ 32 * 9, 0] { colls := [(5, { ctx := 7, count := 64 })] }) 0 0x705 [.f 10, .f 8, .f 12, .f 60] false [5, 3, 9, 0]) ∧ (KMap.has (asked 0x705 [5 + 2 ^ 16 * 3 + 2 ^ 32 * 9, 0] { colls := [(5, { ctx := 7, count := 64 })] }).hw.colls 5 = true) ∧ ((KMap.has ((asked 0x705 [5 + 2 ^ 16 * 3 + 2 ^ 32 * 9, 0] { colls := [(5, { ctx := 7, count := 64 })] }).hw.coll 5).latched 3 = false ∧ ((asked 0x705 [5 + 2 ^ 16 * 3 + 2 ^ 32 * 9, 0] { colls := [(5, { ctx := 7, count := 64 })] }).hw.coll 5).latched.any (fun p => p.2.node == 9) = false)) ∧ (isOwn (asked 0x705 [5 + 2 ^ 16 * 3 + 2 ^ 32 * 9, 0] { colls := [(5, { ctx := 7, count := 64 })] }).hw 9 = false) ∧ (((if ((asked 0x705 [5 + 2 ^ 16 * 3 + 2 ^ 32 * 9, 0] { colls := [(5, { ctx := 7, count := 64 })] }).hw.coll 5).push then 0 % 64 = 0 ∧ fpaNode 0 = 9 else 0 = 0)))) ∧
    ((Asks (asked 0x706 [5 + 2 ^ 16 * 3] { colls := [(5, { ctx := 7, count := 64, latched := [(3, { node := 9 })] })] }) 0 0x706 [.f 10, .f 8] false [5, 3]) ∧ (KMap.has (asked 0x706 [5 + 2 ^ 16 * 3] { colls := [(5, { ctx := 7, count := 64, latched := [(3, { node := 9 })] })] }).hw.colls 5 = true) ∧ (KMap.has ((asked 0x706 [5 + 2 ^ 16 * 3] { colls := [(5, { ctx := 7, count := 64, latched := [(3, { node := 9 })] })] }).hw.coll 5).latched 3 = true)) ∧
    ((Asks (asked 0x707 [5 + 2 ^ 16 * 1] { colls := [(5, { ctx := 7, count := 64, inst := some {} })] }) 0 0x707 [.f 10, .f 1] false [5, 1]) ∧ (((asked 0x707 [5 + 2 ^ 16 * 1] { colls := [(5, { ctx := 7, count := 64, inst := some {} })] }).hw.coll 5).inst = some ({} : Instance)) ∧ (({} : Instance).ended = false) ∧ (KMap.has (asked 0x707 [5 + 2 ^ 16 * 1] { colls := [(5, { ctx := 7, count := 64, inst := some {} })] }).hw.colls 5 = true)) ∧
    ((Asks (asked 0x707 [5 + 2 ^ 16 * 0] { colls := [(5, { ctx := 7, count := 64, inst := some {} })] }) 0 0x707 [.f 10, .f 1] false [5, 0]) ∧ (((asked 0x707 [5 + 2 ^ 16 * 0] { colls := [(5, { ctx := 7, count := 64, inst := some {} })] }).hw.coll 5).inst = some ({} : Instance)) ∧ (({} : Instance).ended = false) ∧ (KMap.has (asked 0x707 [5 + 2 ^ 16 * 0] { colls := [(5, { ctx := 7, count := 64, inst := some {} })] }).hw.colls 5 = true)) := by
  refine ⟨?_, ?_, ?_, ?_, ?_, ?_, ?_, ?_, ?_⟩ <;> decide +kernel

theorem witness_CollectivesComplete :
    ((((mkPacket 0x50 2 0 2 9 0 (leBytes 16 (5 + 65536 * 1 + 2 ^ 32 * 3 + 2 ^ 64 * 64) ++ leBytes 256 0)).opcode = 0x50 ∧ isOwn (running { sys := { moduleId := 2 }, colls := [(5, { ctx := 7, count := 64, last := 0, latched := [(3, { node := 9 })] })] }).hw (mkPacket 0x50 2 0 2 9 0 (leBytes 16 (5 + 65536 * 1 + 2 ^ 32 * 3 + 2 ^ 64 * 64) ++ leBytes 256 0)).dst = true)) ∧ (colSegOf (mkPacket 0x50 2 0 2 9 0 (leBytes 16 (5 + 65536 * 1 + 2 ^ 32 * 3 + 2 ^ 64 * 64) ++ leBytes 256 0)) = (colSegOf (mkPacket 0x50 2 0 2 9 0 (leBytes 16 (5 + 65536 * 1 + 2 ^ 32 * 3 + 2 ^ 64 * 64) ++ leBytes 256 0)))) ∧ (((taken (running { sys := { moduleId := 2 }, colls := [(5, { ctx := 7, count := 64, last := 0, latched := [(3, { node := 9 })] })] }) (mkPacket 0x50 2 0 2 9 0 (leBytes 16 (5 + 65536 * 1 + 2 ^ 32 * 3 + 2 ^ 64 * 64) ++ leBytes 256 0))).hw.coll (colSegOf (mkPacket 0x50 2 0 2 9 0 (leBytes 16 (5 + 65536 * 1 + 2 ^ 32 * 3 + 2 ^ 64 * 64) ++ leBytes 256 0))).group = ({ ctx := 7, count := 64, last := 0, latched := [(3, { node := 9 })] } : Group) ∧ ({ ctx := 7, count := 64, last := 0, latched := [(3, { node := 9 })] } : Group).inst.getD {} = ({} : Instance))) ∧ ((KMap.has (taken (running { sys := { moduleId := 2 }, colls := [(5, { ctx := 7, count := 64, last := 0, latched := [(3, { node := 9 })] })] }) (mkPacket 0x50 2 0 2 9 0 (leBytes 16 (5 + 65536 * 1 + 2 ^ 32 * 3 + 2 ^ 64 * 64) ++ leBytes 256 0))).hw.colls (colSegOf (mkPacket 0x50 2 0 2 9 0 (leBytes 16 (5 + 65536 * 1 + 2 ^ 32 * 3 + 2 ^ 64 * 64) ++ leBytes 256 0))).group = true ∧ runsFor (taken (running { sys := { moduleId := 2 }, colls := [(5, { ctx := 7, count := 64, last := 0, latched := [(3, { node := 9 })] })] }) (mkPacket 0x50 2 0 2 9 0 (leBytes 16 (5 + 65536 * 1 + 2 ^ 32 * 3 + 2 ^ 64 * 64) ++ leBytes 256 0))).hw ({ ctx := 7, count := 64, last := 0, latched := [(3, { node := 9 })] } : Group).service = true ∧ isDead (taken (running { sys := { moduleId := 2 }, colls := [(5, { ctx := 7, count := 64, last := 0, latched := [(3, { node := 9 })] })] }) (mkPacket 0x50 2 0 2 9 0 (leBytes 16 (5 + 65536 * 1 + 2 ^ 32 * 3 + 2 ^ 64 * 64) ++ leBytes 256 0))).hw (mkPacket 0x50 2 0 2 9 0 (leBytes 16 (5 + 65536 * 1 + 2 ^ 32 * 3 + 2 ^ 64 * 64) ++ leBytes 256 0)).src = false)) ∧ ((KMap.has ({ ctx := 7, count := 64, last := 0, latched := [(3, { node := 9 })] } : Group).roster (colSegOf (mkPacket 0x50 2 0 2 9 0 (leBytes 16 (5 + 65536 * 1 + 2 ^ 32 * 3 + 2 ^ 64 * 64) ++ leBytes 256 0))).member = true ∧ (KMap.get ({ ctx := 7, count := 64, last := 0, latched := [(3, { node := 9 })] } : Group).roster (colSegOf (mkPacket 0x50 2 0 2 9 0 (leBytes 16 (5 + 65536 * 1 + 2 ^ 32 * 3 + 2 ^ 64 * 64) ++ leBytes 256 0))).member).node = (mkPacket 0x50 2 0 2 9 0 (leBytes 16 (5 + 65536 * 1 + 2 ^ 32 * 3 + 2 ^ 64 * 64) ++ leBytes 256 0)).src)) ∧ ((((colSegOf (mkPacket 0x50 2 0 2 9 0 (leBytes 16 (5 + 65536 * 1 + 2 ^ 32 * 3 + 2 ^ 64 * 64) ++ leBytes 256 0))).epoch + 65536 - ({ ctx := 7, count := 64, last := 0, latched := [(3, { node := 9 })] } : Group).last) % 65536 = 1 ∧ ({} : Instance).ended = false)) ∧ (((colSegOf (mkPacket 0x50 2 0 2 9 0 (leBytes 16 (5 + 65536 * 1 + 2 ^ 32 * 3 + 2 ^ 64 * 64) ++ leBytes 256 0))).segment < ({ ctx := 7, count := 64, last := 0, latched := [(3, { node := 9 })] } : Group).nseg ∧ (colSegOf (mkPacket 0x50 2 0 2 9 0 (leBytes 16 (5 + 65536 * 1 + 2 ^ 32 * 3 + 2 ^ 64 * 64) ++ leBytes 256 0))).nelem = ({ ctx := 7, count := 64, last := 0, latched := [(3, { node := 9 })] } : Group).nelem (colSegOf (mkPacket 0x50 2 0 2 9 0 (leBytes 16 (5 + 65536 * 1 + 2 ^ 32 * 3 + 2 ^ 64 * 64) ++ leBytes 256 0))).segment ∧ (colSegOf (mkPacket 0x50 2 0 2 9 0 (leBytes 16 (5 + 65536 * 1 + 2 ^ 32 * 3 + 2 ^ 64 * 64) ++ leBytes 256 0))).bad = false)) ∧ ((mkPacket 0x50 2 0 2 9 0 (leBytes 16 (5 + 65536 * 1 + 2 ^ 32 * 3 + 2 ^ 64 * 64) ++ leBytes 256 0)).data.length = 16 + alignUp 4 (payloadBytes ({ ctx := 7, count := 64, last := 0, latched := [(3, { node := 9 })] } : Group).cfmt (({ ctx := 7, count := 64, last := 0, latched := [(3, { node := 9 })] } : Group).nelem (colSegOf (mkPacket 0x50 2 0 2 9 0 (leBytes 16 (5 + 65536 * 1 + 2 ^ 32 * 3 + 2 ^ 64 * 64) ++ leBytes 256 0))).segment))) ∧ ((tbit ({} : Instance).excluded (colSegOf (mkPacket 0x50 2 0 2 9 0 (leBytes 16 (5 + 65536 * 1 + 2 ^ 32 * 3 + 2 ^ 64 * 64) ++ leBytes 256 0))).member = false ∧ tbit ({} : Instance).done (colSegOf (mkPacket 0x50 2 0 2 9 0 (leBytes 16 (5 + 65536 * 1 + 2 ^ 32 * 3 + 2 ^ 64 * 64) ++ leBytes 256 0))).segment = false ∧ ({} : Instance).counts (colSegOf (mkPacket 0x50 2 0 2 9 0 (leBytes 16 (5 + 65536 * 1 + 2 ^ 32 * 3 + 2 ^ 64 * 64) ++ leBytes 256 0))).segment (colSegOf (mkPacket 0x50 2 0 2 9 0 (leBytes 16 (5 + 65536 * 1 + 2 ^ 32 * 3 + 2 ^ 64 * 64) ++ leBytes 256 0))).member = false)) ∧ ((!KMap.has ({} : Instance).segs (colSegOf (mkPacket 0x50 2 0 2 9 0 (leBytes 16 (5 + 65536 * 1 + 2 ^ 32 * 3 + 2 ^ 64 * 64) ++ leBytes 256 0))).segment && decide (({ ctx := 7, count := 64, last := 0, latched := [(3, { node := 9 })] } : Group).openSegs ≤ (({} : Instance).segs.filter (fun x => segTile (colSegOf (mkPacket 0x50 2 0 2 9 0 (leBytes 16 (5 + 65536 * 1 + 2 ^ 32 * 3 + 2 ^ 64 * 64) ++ leBytes 256 0))).group x.1 == segTile (colSegOf (mkPacket 0x50 2 0 2 9 0 (leBytes 16 (5 + 65536 * 1 + 2 ^ 32 * 3 + 2 ^ 64 * 64) ++ leBytes 256 0))).group (colSegOf (mkPacket 0x50 2 0 2 9 0 (leBytes 16 (5 + 65536 * 1 + 2 ^ 32 * 3 + 2 ^ 64 * 64) ++ leBytes 256 0))).segment)).length)) = false)) ∧
    ((((running { colls := [(5, { count := 64, inst := some { segs := [(0, { stage := 1 })] } })] }).hw.coll (5 : Fin 1024)).inst = some ({ segs := [(0, { stage := 1 })] } : Instance)) ∧ ((({ segs := [(0, { stage := 1 })] } : Instance).seg 0).stage = 1) ∧ (runsFor (running { colls := [(5, { count := 64, inst := some { segs := [(0, { stage := 1 })] } })] }).hw ((running { colls := [(5, { count := 64, inst := some { segs := [(0, { stage := 1 })] } })] }).hw.coll (5 : Fin 1024)).service = true) ∧ (((driveRun 4 (collEnv (running { colls := [(5, { count := 64, inst := some { segs := [(0, { stage := 1 })] } })] }).hw (5 : Fin 1024) (segTile (5 : Fin 1024) 0)) (({ segs := [(0, { stage := 1 })] } : Instance).seg 0).run (running { colls := [(5, { count := 64, inst := some { segs := [(0, { stage := 1 })] } })] })).1.pieces = [] ∧ (driveRun 4 (collEnv (running { colls := [(5, { count := 64, inst := some { segs := [(0, { stage := 1 })] } })] }).hw (5 : Fin 1024) (segTile (5 : Fin 1024) 0)) (({ segs := [(0, { stage := 1 })] } : Instance).seg 0).run (running { colls := [(5, { count := 64, inst := some { segs := [(0, { stage := 1 })] } })] })).1.chunk.isNone = true ∧ (driveRun 4 (collEnv (running { colls := [(5, { count := 64, inst := some { segs := [(0, { stage := 1 })] } })] }).hw (5 : Fin 1024) (segTile (5 : Fin 1024) 0)) (({ segs := [(0, { stage := 1 })] } : Instance).seg 0).run (running { colls := [(5, { count := 64, inst := some { segs := [(0, { stage := 1 })] } })] })).1.stall = 0))) ∧
    ((((running { colls := [(5, { count := 64, inst := some { ended := true } })] }).hw.coll (5 : Fin 1024)).inst = some ({ ended := true } : Instance)) ∧ ((({ ended := true } : Instance).ended = true ∧ ({ ended := true } : Instance).quiet = true)) ∧ (runsFor (running { colls := [(5, { count := 64, inst := some { ended := true } })] }).hw ((running { colls := [(5, { count := 64, inst := some { ended := true } })] }).hw.coll (5 : Fin 1024)).service = true) ∧ (((running { colls := [(5, { count := 64, inst := some { ended := true } })] }).hw.coll (5 : Fin 1024)).compVa = 0)) ∧
    ((((running { colls := [(5, { count := 64, compVa := 64, inst := some { ended := true, record := { got := [([7], [])] } } })] }).hw.coll (5 : Fin 1024)).inst = some ({ ended := true, record := { got := [([7], [])] } } : Instance)) ∧ ((({ ended := true, record := { got := [([7], [])] } } : Instance).ended = true ∧ ({ ended := true, record := { got := [([7], [])] } } : Instance).quiet = true)) ∧ (runsFor (running { colls := [(5, { count := 64, compVa := 64, inst := some { ended := true, record := { got := [([7], [])] } } })] }).hw ((running { colls := [(5, { count := 64, compVa := 64, inst := some { ended := true, record := { got := [([7], [])] } } })] }).hw.coll (5 : Fin 1024)).service = true) ∧ (((running { colls := [(5, { count := 64, compVa := 64, inst := some { ended := true, record := { got := [([7], [])] } } })] }).hw.coll (5 : Fin 1024)).compVa ≠ 0) ∧ (({ ended := true, record := { got := [([7], [])] } } : Instance).record.got = [(([7]), ([]))]) ∧ (((driveRun 4 (collEnv (running { colls := [(5, { count := 64, compVa := 64, inst := some { ended := true, record := { got := [([7], [])] } } })] }).hw (5 : Fin 1024) ((5 : Fin 1024) % 32)) ({ ended := true, record := { got := [([7], [])] } } : Instance).record (running { colls := [(5, { count := 64, compVa := 64, inst := some { ended := true, record := { got := [([7], [])] } } })] })).1.pieces = [] ∧ (driveRun 4 (collEnv (running { colls := [(5, { count := 64, compVa := 64, inst := some { ended := true, record := { got := [([7], [])] } } })] }).hw (5 : Fin 1024) ((5 : Fin 1024) % 32)) ({ ended := true, record := { got := [([7], [])] } } : Instance).record (running { colls := [(5, { count := 64, compVa := 64, inst := some { ended := true, record := { got := [([7], [])] } } })] })).1.chunk.isNone = true ∧ (driveRun 4 (collEnv (running { colls := [(5, { count := 64, compVa := 64, inst := some { ended := true, record := { got := [([7], [])] } } })] }).hw (5 : Fin 1024) ((5 : Fin 1024) % 32)) ({ ended := true, record := { got := [([7], [])] } } : Instance).record (running { colls := [(5, { count := 64, compVa := 64, inst := some { ended := true, record := { got := [([7], [])] } } })] })).1.stall = 0 ∧ (driveRun 4 (collEnv (running { colls := [(5, { count := 64, compVa := 64, inst := some { ended := true, record := { got := [([7], [])] } } })] }).hw (5 : Fin 1024) ((5 : Fin 1024) % 32)) ({ ended := true, record := { got := [([7], [])] } } : Instance).record (running { colls := [(5, { count := 64, compVa := 64, inst := some { ended := true, record := { got := [([7], [])] } } })] })).1.failed = 0))) ∧
    ((((running { colls := [(5, { count := 64, inst := some { policy := 1, members := [(3, { node := 9 })] } })] }).hw.coll (5 : Fin 1024)).inst = some ({ policy := 1, members := [(3, { node := 9 })] } : Instance)) ∧ (({ policy := 1, members := [(3, { node := 9 })] } : Instance).ended = false) ∧ (({ policy := 1, members := [(3, { node := 9 })] } : Instance).expected.contains 3 = true) ∧ ((missingSegs ((running { colls := [(5, { count := 64, inst := some { policy := 1, members := [(3, { node := 9 })] } })] }).hw.coll (5 : Fin 1024)) ({ policy := 1, members := [(3, { node := 9 })] } : Instance) 3).isEmpty = false) ∧ (runsFor (running { colls := [(5, { count := 64, inst := some { policy := 1, members := [(3, { node := 9 })] } })] }).hw ((running { colls := [(5, { count := 64, inst := some { policy := 1, members := [(3, { node := 9 })] } })] }).hw.coll (5 : Fin 1024)).service = true) ∧ (({ policy := 1, members := [(3, { node := 9 })] } : Instance).policy = 1)) ∧
    ((((running { colls := [(5, { count := 64, inst := some { policy := 0, members := [(3, { node := 9 })] } })] }).hw.coll (5 : Fin 1024)).inst = some ({ policy := 0, members := [(3, { node := 9 })] } : Instance)) ∧ (({ policy := 0, members := [(3, { node := 9 })] } : Instance).ended = false) ∧ (({ policy := 0, members := [(3, { node := 9 })] } : Instance).expected.contains 3 = true) ∧ ((missingSegs ((running { colls := [(5, { count := 64, inst := some { policy := 0, members := [(3, { node := 9 })] } })] }).hw.coll (5 : Fin 1024)) ({ policy := 0, members := [(3, { node := 9 })] } : Instance) 3).isEmpty = false) ∧ (runsFor (running { colls := [(5, { count := 64, inst := some { policy := 0, members := [(3, { node := 9 })] } })] }).hw ((running { colls := [(5, { count := 64, inst := some { policy := 0, members := [(3, { node := 9 })] } })] }).hw.coll (5 : Fin 1024)).service = true) ∧ (({ policy := 0, members := [(3, { node := 9 })] } : Instance).policy = 0)) ∧
    ((((running { queues := [(4, { execs := [(0, { run := { stall := 2 } })] })] }).hw.queues = [(4, ({ execs := [(0, { run := { stall := 2 } })] } : Queue))] ∧ (running { queues := [(4, { execs := [(0, { run := { stall := 2 } })] })] }).hw.colls = [])) ∧ (({ execs := [(0, { run := { stall := 2 } })] } : Queue).execs = [(0, ({ run := { stall := 2 } } : Exec))]) ∧ (({ run := { stall := 2 } } : Exec).run.stall = 2) ∧ ((onRun 4 0 (fun env r x => reregister env r (2 : Fin 32) x) (running { queues := [(4, { execs := [(0, { run := { stall := 2 } })] })] })).hw.colls = [])) := by
  refine ⟨?_, ?_, ?_, ?_, ?_, ?_, ?_⟩ <;> decide +kernel

theorem witness_PairCommandsComplete :
    ((Asks (asked 0xC01 [9 + 2 ^ 16 * 4 + 2 ^ 48 * 50, 2 ^ 16 * 1] { sys := { memory := 2, moduleId := 2 }, links := [(2, { state := 3, partner := 9 })] }) 0 0xC01 [.f 12, .f 16, .f 1, .f 12, .f 12, .f 1, .f 2] false [9, 4, 0, 50, 0, 1, 0]) ∧ (poolOpen (asked 0xC01 [9 + 2 ^ 16 * 4 + 2 ^ 48 * 50, 2 ^ 16 * 1] { sys := { memory := 2, moduleId := 2 }, links := [(2, { state := 3, partner := 9 })] }).hw = true) ∧ (((asked 0xC01 [9 + 2 ^ 16 * 4 + 2 ^ 48 * 50, 2 ^ 16 * 1] { sys := { memory := 2, moduleId := 2 }, links := [(2, { state := 3, partner := 9 })] }).hw.pair.state = 0 ∨ (asked 0xC01 [9 + 2 ^ 16 * 4 + 2 ^ 48 * 50, 2 ^ 16 * 1] { sys := { memory := 2, moduleId := 2 }, links := [(2, { state := 3, partner := 9 })] }).hw.pair.state = 4)) ∧ ((1 ≤ popcount 16 4 ∧ popcount 16 4 ≤ 4 ∧ 0 ≠ 3)) ∧ ((9 ≠ (asked 0xC01 [9 + 2 ^ 16 * 4 + 2 ^ 48 * 50, 2 ^ 16 * 1] { sys := { memory := 2, moduleId := 2 }, links := [(2, { state := 3, partner := 9 })] }).hw.sys.moduleId ∧ 50 ≠ (asked 0xC01 [9 + 2 ^ 16 * 4 + 2 ^ 48 * 50, 2 ^ 16 * 1] { sys := { memory := 2, moduleId := 2 }, links := [(2, { state := 3, partner := 9 })] }).hw.sys.moduleId ∧ 50 ≠ 9)) ∧ (((if 0 = 1 then 0 ≠ (asked 0xC01 [9 + 2 ^ 16 * 4 + 2 ^ 48 * 50, 2 ^ 16 * 1] { sys := { memory := 2, moduleId := 2 }, links := [(2, { state := 3, partner := 9 })] }).hw.sys.moduleId ∧ 0 ≠ 9 ∧ 1 = 0 ∧ 50 ≠ 0 else 0 = 0))) ∧ ((bitsOf 16 4).any (fun n => ((asked 0xC01 [9 + 2 ^ 16 * 4 + 2 ^ 48 * 50, 2 ^ 16 * 1] { sys := { memory := 2, moduleId := 2 }, links := [(2, { state := 3, partner := 9 })] }).hw.link n).state != 3 || ((asked 0xC01 [9 + 2 ^ 16 * 4 + 2 ^ 48 * 50, 2 ^ 16 * 1] { sys := { memory := 2, moduleId := 2 }, links := [(2, { state := 3, partner := 9 })] }).hw.link n).partner != 9) = false) ∧ ((((!(0 == 1) && 1 == 1) || (asked 0xC01 [9 + 2 ^ 16 * 4 + 2 ^ 48 * 50, 2 ^ 16 * 1] { sys := { memory := 2, moduleId := 2 }, links := [(2, { state := 3, partner := 9 })] }).hw.pair.state == 4) && ((asked 0xC01 [9 + 2 ^ 16 * 4 + 2 ^ 48 * 50, 2 ^ 16 * 1] { sys := { memory := 2, moduleId := 2 }, links := [(2, { state := 3, partner := 9 })] }).hw.regions.any (fun r => r.1 != 0 && r.2.state != 0) || contextBound (asked 0xC01 [9 + 2 ^ 16 * 4 + 2 ^ 48 * 50, 2 ^ 16 * 1] { sys := { memory := 2, moduleId := 2 }, links := [(2, { state := 3, partner := 9 })] }).hw || groupActive (asked 0xC01 [9 + 2 ^ 16 * 4 + 2 ^ 48 * 50, 2 ^ 16 * 1] { sys := { memory := 2, moduleId := 2 }, links := [(2, { state := 3, partner := 9 })] }).hw)) = false) ∧ ((1 = 0 ∨ 1 = 1))) ∧
    ((Asks (asked 0xC02 [] { pair := { state := 1 } }) 0 0xC02 [] false []) ∧ (((asked 0xC02 [] { pair := { state := 1 } }).hw.pair.state ≠ 0 ∧ (asked 0xC02 [] { pair := { state := 1 } }).hw.pair.state ≠ 4))) ∧
    ((Asks (asked 0xC02 [] { pair := { state := 4 } }) 0 0xC02 [] false []) ∧ ((asked 0xC02 [] { pair := { state := 4 } }).hw.pair.state = 4)) ∧
    ((Asks (asked 0xC03 [50] { pair := { state := 2, role0 := 1, service0 := 50 } }) 0 0xC03 [.f 12] false [50]) ∧ ((activeServices (asked 0xC03 [50] { pair := { state := 2, role0 := 1, service0 := 50 } }).hw).contains 50 = true) ∧ ((asked 0xC03 [50] { pair := { state := 2, role0 := 1, service0 := 50 } }).hw.pair.state = 2) ∧ ((asked 0xC03 [50] { pair := { state := 2, role0 := 1, service0 := 50 } }).hw.pair.moving.isSome = false)) ∧
    ((Asks (asked 0xC04 [1] { pair := { state := 2 } }) 0 0xC04 [.f 2] false [1]) ∧ ((asked 0xC04 [1] { pair := { state := 2 } }).hw.pair.state ≠ 0) ∧ (1 ≠ 3)) ∧
    ((Asks (asked 0xC05 [] {}) 0 0xC05 [] false []) ∧ ((asked 0xC05 [] {}).hw.pair.syncPhase ≠ 2)) ∧
    ((Asks (asked 0xC05 [] { pair := { state := 1, syncPhase := 2 } }) 0 0xC05 [] false []) ∧ ((asked 0xC05 [] { pair := { state := 1, syncPhase := 2 } }).hw.pair.syncPhase = 2)) ∧
    (((running { pair := { asked := some (3, 4, 0, {}) } }).hw.pair.asked = some (3, 4, 0, ({} : JoinInfo)))) := by
  refine ⟨?_, ?_, ?_, ?_, ?_, ?_, ?_, ?_⟩ <;> decide +kernel

theorem witness_PairRecordsComplete :
    ((isControl ({ seq := 1, service := 50, item := .wipe 3 } : MirrorRec).item = false) ∧ (((running { pair := { state := 2, links := 4, role0 := 2, service0 := 50 } }).hw.pair.state = 1 ∨ (running { pair := { state := 2, links := 4, role0 := 2, service0 := 50 } }).hw.pair.state = 2 ∨ (running { pair := { state := 2, links := 4, role0 := 2, service0 := 50 } }).hw.pair.state = 3)) ∧ (tbit (running { pair := { state := 2, links := 4, role0 := 2, service0 := 50 } }).hw.pair.links (2 : Fin 16) = true) ∧ (((running { pair := { state := 2, links := 4, role0 := 2, service0 := 50 } }).hw.pair.fenceOut = false ∨ (running { pair := { state := 2, links := 4, role0 := 2, service0 := 50 } }).hw.pair.state = 1)) ∧ ((standbyServices (running { pair := { state := 2, links := 4, role0 := 2, service0 := 50 } }).hw).contains ({ seq := 1, service := 50, item := .wipe 3 } : MirrorRec).service = true)) ∧
    ((isControl ({ seq := 1, service := 50, item := .diverge 50 } : MirrorRec).item = true) ∧ (((running { pair := { state := 2, links := 4 } }).hw.pair.state = 0 ∨ (running { pair := { state := 2, links := 4 } }).hw.pair.state = 4 ∨ (tbit (running { pair := { state := 2, links := 4 } }).hw.pair.links (2 : Fin 16) = true ∧ (running { pair := { state := 2, links := 4 } }).hw.pair.fenceOut = false)))) ∧
    ((((running { pair := { state := 2 } }).hw.pair.state = 1 ∨ (running { pair := { state := 2 } }).hw.pair.state = 2 ∨ (running { pair := { state := 2 } }).hw.pair.state = 3))) ∧
    ((((running { pair := { state := 2, role0 := 2, service0 := 50 } }).hw.pair.state = 1 ∨ (running { pair := { state := 2, role0 := 2, service0 := 50 } }).hw.pair.state = 2 ∨ (running { pair := { state := 2, role0 := 2, service0 := 50 } }).hw.pair.state = 3)) ∧ ((running { pair := { state := 2, role0 := 2, service0 := 50 } }).hw.pair.linkLost = false) ∧ (standsBy (forAll (running { pair := { state := 2, role0 := 2, service0 := 50 } }).hw.pair.services (fun v h => diverge v true h) (running { pair := { state := 2, role0 := 2, service0 := 50 } }).hw) = true)) ∧
    ((((running { pair := { state := 2, role0 := 1, service0 := 50 } }).hw.pair.state = 1 ∨ (running { pair := { state := 2, role0 := 1, service0 := 50 } }).hw.pair.state = 2 ∨ (running { pair := { state := 2, role0 := 1, service0 := 50 } }).hw.pair.state = 3)) ∧ ((running { pair := { state := 2, role0 := 1, service0 := 50 } }).hw.pair.linkLost = false) ∧ (standsBy (forAll (running { pair := { state := 2, role0 := 1, service0 := 50 } }).hw.pair.services (fun v h => diverge v true h) (running { pair := { state := 2, role0 := 1, service0 := 50 } }).hw) = false)) ∧
    (((running { pair := { state := 2, check := 1, diverged := [50], linkLost := true } }).hw.pair.check = 1) ∧ ((running { pair := { state := 2, check := 1, diverged := [50], linkLost := true } }).hw.pair.diverged.isEmpty = false) ∧ ((running { pair := { state := 2, check := 1, diverged := [50], linkLost := true } }).hw.pair.linkLost = true) ∧ ((true || selfCheckFails (running { pair := { state := 2, check := 1, diverged := [50], linkLost := true } }).hw) = true)) ∧
    (((running { pair := { state := 2, check := 1, diverged := [50], linkLost := false } }).hw.pair.check = 1) ∧ ((running { pair := { state := 2, check := 1, diverged := [50], linkLost := false } }).hw.pair.diverged.isEmpty = false) ∧ ((running { pair := { state := 2, check := 1, diverged := [50], linkLost := false } }).hw.pair.linkLost = false) ∧ ((true || selfCheckFails (running { pair := { state := 2, check := 1, diverged := [50], linkLost := false } }).hw) = true)) ∧
    (((running { pair := { state := 2, check := 1, diverged := [50], linkLost := true } }).hw.pair.check = 1) ∧ ((running { pair := { state := 2, check := 1, diverged := [50], linkLost := true } }).hw.pair.diverged.isEmpty = false) ∧ ((running { pair := { state := 2, check := 1, diverged := [50], linkLost := true } }).hw.pair.linkLost = true) ∧ ((false || selfCheckFails (running { pair := { state := 2, check := 1, diverged := [50], linkLost := true } }).hw) = false)) ∧
    (((running { pair := { state := 2, check := 1, diverged := [50], linkLost := false } }).hw.pair.check = 1) ∧ ((running { pair := { state := 2, check := 1, diverged := [50], linkLost := false } }).hw.pair.diverged.isEmpty = false) ∧ ((running { pair := { state := 2, check := 1, diverged := [50], linkLost := false } }).hw.pair.linkLost = false) ∧ ((false || selfCheckFails (running { pair := { state := 2, check := 1, diverged := [50], linkLost := false } }).hw) = false)) ∧
    (((running { pair := { state := 2, linkLost := true, probes := 1, role0 := 2, service0 := 50, diverged := [50] } }).hw.pair.linkLost = true) ∧ ((running { pair := { state := 2, linkLost := true, probes := 1, role0 := 2, service0 := 50, diverged := [50] } }).hw.pair.probes ≠ 0) ∧ ((running { pair := { state := 2, linkLost := true, probes := 1, role0 := 2, service0 := 50, diverged := [50] } }).hw.pair.other.isSome = false) ∧ (standsBy (running { pair := { state := 2, linkLost := true, probes := 1, role0 := 2, service0 := 50, diverged := [50] } }).hw = true) ∧ ((running { pair := { state := 2, linkLost := true, probes := 1, role0 := 2, service0 := 50, diverged := [50] } }).hw.pair.probes < 4)) ∧
    (((running { pair := { state := 2, linkLost := true, probes := 4, role0 := 2, service0 := 50, diverged := [50] } }).hw.pair.linkLost = true) ∧ ((running { pair := { state := 2, linkLost := true, probes := 4, role0 := 2, service0 := 50, diverged := [50] } }).hw.pair.probes ≠ 0) ∧ ((running { pair := { state := 2, linkLost := true, probes := 4, role0 := 2, service0 := 50, diverged := [50] } }).hw.pair.other.isSome = false) ∧ (standsBy (running { pair := { state := 2, linkLost := true, probes := 4, role0 := 2, service0 := 50, diverged := [50] } }).hw = true) ∧ (¬ (running { pair := { state := 2, linkLost := true, probes := 4, role0 := 2, service0 := 50, diverged := [50] } }).hw.pair.probes < 4)) ∧
    (((running { pair := { state := 2, outgoing := [({ seq := 1, service := 50, item := .line 0 [] [] }, 7)] } }).hw.pair.outgoing = (({ seq := 1, service := 50, item := .line 0 [] [] } : MirrorRec), 7) :: ([])) ∧ (isMetadata ({ seq := 1, service := 50, item := .line 0 [] [] } : MirrorRec).item = false) ∧ ((running { pair := { state := 2, outgoing := [({ seq := 1, service := 50, item := .line 0 [] [] }, 7)] } }).hw.pair.diverged.isEmpty = true)) ∧
    (((running { pair := { state := 2, outgoing := [({ seq := 1, service := 50, item := .wipe 3 }, 7)] } }).hw.pair.outgoing = (({ seq := 1, service := 50, item := .wipe 3 } : MirrorRec), 7) :: ([])) ∧ (isMetadata ({ seq := 1, service := 50, item := .wipe 3 } : MirrorRec).item = true) ∧ ((running { pair := { state := 2, outgoing := [({ seq := 1, service := 50, item := .wipe 3 }, 7)] } }).hw.pair.diverged.isEmpty = true)) ∧
    (((running { pair := { state := 2, outgoing := [({ seq := 1, service := 50, item := .wipe 3 }, 7)] } }).hw.pair.outgoing = (({ seq := 1, service := 50, item := .wipe 3 } : MirrorRec), 7) :: ([])) ∧ (isMetadata ({ seq := 1, service := 50, item := .wipe 3 } : MirrorRec).item = true) ∧ (8 ≠ 7) ∧ ((diverge ({ seq := 1, service := 50, item := .wipe 3 } : MirrorRec).service false ((pairCount (running { pair := { state := 2, outgoing := [({ seq := 1, service := 50, item := .wipe 3 }, 7)] } }).hw 0).onPair fun p => { p with outgoing := ([]) })).pair.diverged.isEmpty = false)) := by
  refine ⟨?_, ?_, ?_, ?_, ?_, ?_, ?_, ?_, ?_, ?_, ?_, ?_, ?_, ?_⟩ <;> decide +kernel

theorem witness_PairOutcomesComplete :
    (((running { pair := { state := 2, taking := [50], role0 := 2, service0 := 50 } }).hw.pair.taking = [50]) ∧ ((running { pair := { state := 2, taking := [50], role0 := 2, service0 := 50 } }).hw.pair.fenceWait = false) ∧ (((running { pair := { state := 2, taking := [50], role0 := 2, service0 := 50 } }).hw.pair.fenceIn = false ∨ (running { pair := { state := 2, taking := [50], role0 := 2, service0 := 50 } }).hw.pair.fenceOut = true))) ∧
    (((running { pair := { state := 2, taking := [50], fenceIn := true } }).hw.pair.taking.isEmpty = false) ∧ ((running { pair := { state := 2, taking := [50], fenceIn := true } }).hw.pair.fenceWait = false) ∧ (((running { pair := { state := 2, taking := [50], fenceIn := true } }).hw.pair.fenceIn = true ∧ (running { pair := { state := 2, taking := [50], fenceIn := true } }).hw.pair.fenceOut = false))) ∧
    ((((running { pair := { state := 2 } }).hw.pair.state = 1 ∨ (running { pair := { state := 2 } }).hw.pair.state = 2 ∨ (running { pair := { state := 2 } }).hw.pair.state = 3)) ∧ ((running { pair := { state := 2 } }).hw.pair.fenceOut = false)) ∧
    (((running { pair := { state := 1, syncPhase := 1 } }).hw.pair.state = 1) ∧ ((running { pair := { state := 1, syncPhase := 1 } }).hw.pair.syncPhase = 1) ∧ ((running { pair := { state := 1, syncPhase := 1 } }).hw.regions.any (fun r => r.2.mirrored && r.2.state != 0) = false)) ∧
    (((running { pair := { state := 1, syncPhase := 1 }, regions := [(3, { mirrored := true, state := 1, granules := 1 })] }).hw.pair.state = 1) ∧ ((running { pair := { state := 1, syncPhase := 1 }, regions := [(3, { mirrored := true, state := 1, granules := 1 })] }).hw.pair.syncPhase = 1) ∧ ((running { pair := { state := 1, syncPhase := 1 }, regions := [(3, { mirrored := true, state := 1, granules := 1 })] }).hw.regions.filter (fun x => x.2.mirrored && x.2.state != 0) = [((3, { mirrored := true, state := 1, granules := 1 }) : Nat × Region)])) ∧
    (((running { pair := { state := 1, syncPhase := 2, returned := true, symmetric := true, ret := 2 } }).hw.pair.state = 1) ∧ ((running { pair := { state := 1, syncPhase := 2, returned := true, symmetric := true, ret := 2 } }).hw.pair.syncPhase = 2) ∧ (reclaims (running { pair := { state := 1, syncPhase := 2, returned := true, symmetric := true, ret := 2 } }).hw.pair = true)) ∧
    (((running { pair := { state := 1, syncPhase := 2 } }).hw.pair.state = 1) ∧ ((running { pair := { state := 1, syncPhase := 2 } }).hw.pair.syncPhase = 2) ∧ (reclaims (running { pair := { state := 1, syncPhase := 2 } }).hw.pair = false)) ∧
    (((running { pair := { state := 2, role0 := 1, service0 := 50, moving := some (50, some 3) } }).hw.pair.moving = some (50, some 3)) ∧ (serviceBusy (running { pair := { state := 2, role0 := 1, service0 := 50, moving := some (50, some 3) } }).hw 50 = false) ∧ ((running { pair := { state := 2, role0 := 1, service0 := 50, moving := some (50, some 3) } }).hw.pair.state = 2)) := by
  refine ⟨?_, ?_, ?_, ?_, ?_, ?_, ?_, ?_⟩ <;> decide +kernel

end Sys2Proof.Machine
end

section
/-!
PROOFS. What every command keeps, from the laws of the operations (Laws/Keeps, KeepsHome, KeepsWork), and the statements about the queue of
waiting commands that follow from it.
-/
namespace Sys2Proof.Machine
open Sys2Proof

/-- The outcome `r` of a command on `s` is a next state, with the queue of `s` and with pool memory in its canonical form if it was so. -/
def NextKeeps (s : State) (r : Result) : Prop := ∃ t, r = .next t ∧ Keeps s t

theorem NextKeeps.next {s t : State} (h : Keeps s t) : NextKeeps s (.next t) := ⟨t, rfl, h⟩

theorem NextKeeps.onHw (s : State) (f : Hw → Hw) : NextKeeps s (.next (s.onHw f)) := .next (.onHw f (.refl s))

/-- The mirror records that a command adds to its effect (R493) keep what the effect keeps. -/
theorem NextKeeps.commit {s : State} {f : State → State} (h : Keeps s (f s)) : NextKeeps s (commit f s) := .next (mirrored_keeps s h)

/-- Every command answers a next state, and leaves the queue and the canonical form of pool memory as they were. -/
theorem exec_nextKeeps (c : Instr) (s : State) : NextKeeps s (exec c s) := by
  -- in each case the dispatch gives way to the command's own meaning
  cases c with dsimp only [exec]
  -- events that touch the module alone
  | evcClaim | evcComplete | errSlotClear | evcMsixCtlWrite | clkObsWrite | packetRoute | snoopAtModule | filterEntryRelease
  | trackWindowExpiry | refreshDue | rfmRequest | stackTemperatureChange | powerDownEntry | rowCloseTimer | hotWordWriteBack
  | dawnLinkRateReq | dataFlit | idleFlit | replayStart | flitFail | widthReq | widthAck | widthGo | retrainReq | rateReq | widthAbandon
  | ctrlResendTimer | ctrlAnswerTimeout | widenLanesPass | widenTimeout | tsCap | tsReady | tsEq | rateTrainEnd | retrainEnd
  | configTimeout | downTimeout | replayTimerExpiry | fillerSend | filler | drowseMarker | slumberMarker | wakePattern | drowseIdleTimer
  | slumberIdleTimer | transmitWake | wakeLate | efmWindowEnd | losTimeout | losEndInShut | shutProbeTimer | probeEnd | optOvertemp
  | optLaserLow | egressPacketStart | shaperRefill | horizonCycleStart | horizonEntryBoundary | flipHoldExpiry | salvageHoldExpiry | sync
  | delayReq | delayResp | announce | syncIntervalTimer | delayIntervalTimer | syncLoss | holdoverLimitExpiry | vectorMessageSend
  | unansweredTimeout | moderationExpiry | heartbeatTimer | mirrorLinkLost | selfCheckEnd | pairProbeTimer | takeoverFenceWaitEnd
  | pairFenceNLow | resyncDone | switchDrainDone | clkMonitorWindow | pllLockDone | pllLockTimeout | pllLossOfLock | rampStep
  | gateQuiesceWindowEnd | crossingOpen | feedGood | feedLost | busUndervoltage | alwaysOnLoss | powerOnReset | telemetrySample
  | regulatorFault | limiterPeriod | thermalThrottle | thermalThrottleEnd | thermalTrip | resetN | resetNRelease | bootImageSelect
  | gokomosStart | bootSelfTestDone | stackHalfRateDone | longAccTestDone | zenithPoisonFetch | zenithRestart | perstN | pcieConfigRequest
  | pcieFlr | pcieHotReset | pcieD3hot | pmeTurnOff | gpioFilterExpiry | pmbusPage | pmbusClearFaults | pmbusCapability | pmbusVoutMode
  | pmbusStatusByte | pmbusStatusWord | pmbusStatusVout | pmbusStatusIout | pmbusStatusInput | pmbusStatusTemperature | pmbusStatusCml
  | pmbusReadVin | pmbusReadIin | pmbusReadPin | pmbusReadVout | pmbusReadIout | pmbusReadPout | pmbusReadTemperature1 | pmbusRevision
  | pmbusMfrId | pmbusMfrModel | pmbusMfrSerial | pmbusMfrSysState | pmbusMfrSysDie | pmbusMfrTemp | pmbusMfrFeed | pmbusInvalidCommand
  | smbusAlertResponse | smbusTimeout | jtagIdcode | jtagSamplePreload | jtagExtest | jtagExtestPulse | jtagExtestTrain | jtagHighz
  | jtagClamp | jtagDbgChallenge | jtagDbgUnlock | jtagDbgStatus | jtagBypass | tapReset | mirrorAcknowledgement | pairJoinTimeout
  | thermtripRelease | modulatorsAtTemperature =>
    exact .onHw s _
  -- events that touch the module alone, with mirror records
  | registerWrite | dblRing | faultReplyResume | faultReplyAbort | queueRestart | cwRd | cwWr | cwRdata | resvExpiry | brdData | bdone
  | atomicRet | retry | deny | tileRetryReissue | xltInv | xltInvAckSend | descStart | faultTimeout | tileE2eTimeout | dmergeStampPoll
  | rightsChangeDrainEnd | agentDeadDone | snapReclaimDone | colSeg | colMemberTimeout | pcieMemoryRequest =>
    exact .commit (.onHw _ (.refl s))
  -- mailbox commands on the module
  | mbxInfo | ctxQuery | regionQuery | cohConfig | cohQuery | cohLineQuery | cohSuspectClear | snapQuery | queueQuery | collGroupQuery
  | memConfig | memQuery | memRetrain | memEccConfig | memEccQuery | lanePower | laneQuery | optEngine | optGate | optQuery | linkEnable
  | linkConfig | linkTune | linkRetrain | linkWidth | linkQuery | routeConfig | routeLoad | routeFlip | routeQuery | qosMode | qosPort
  | qosPolice | horizonLoad | timeConfig | timeLink | timeSet | timeQuery | pairLeave | pairSwitch | pairConfig | pairQuery | bistRun
  | bistQuery | repairCommit | repairQuery | fwUpdate | fwQuery | fwActivate | clkGate | clkSwitch | clkQuery | pwrLimit | pwrQuery
  | gpioConfig | gpioSet | gpioQuery =>
    exact .next (runHw_keeps _ _ _ _ _ (.refl s))
  -- mailbox commands on the module, with mirror records
  | ctxModify | regionCreate | regionRelease | regionAclSet | regionAclAdd | regionAclRemove | agentGroupSet | agentMgmtSet | agentDead
  | agentRevive | snapOpen | snapPublish | snapRebase | snapClose | snapConfig | collGroupConfig | collGroupDestroy | collMemberAdd
  | collMemberRemove | collInstanceEnd =>
    exact .commit (runHw_keeps _ _ _ _ _ (.refl s))
  -- mailbox commands whose wait may be over at once
  | ctxUnbind | xltInvalidate | queueDestroy =>
    exact .commit (.onHw _ (runHw_keeps _ _ _ _ _ (.refl s)))
  -- mailbox commands that a busy object answers first
  | laneConfig | pairJoin =>
    exact .next (busyFirst_keeps _ _ _ _ _ _ (.refl s))
  | ctxBind | queueCreate | collGroupCreate => exact .commit (busyFirst_keeps _ _ _ _ _ _ (.refl s))
  -- requests to the home
  | rdShared | rdOwn | upgrade | rdOnce | wrLine | wrPart | atomic | evict =>
    exact .commit (requestArrives_keeps _ _ (.refl s))
  | brd | bwr => exact .commit (bulkArrives_keeps _ _ (.refl s))
  -- accesses that waited go on
  | snapSwitch | takeoverWriteHoldEnd | holdWake | pseudoChannelRetrainEnd =>
    exact .commit (resumeParked_keeps (.onHw _ (.refl s)))
  -- the others, each by the law of its own operation
  | mbxRing => exact .next (mbxRingWrite_keeps _ _ _ (.refl s))
  | mbxNop => exact .next (nop_keeps _ (.refl s))
  | xltSync => exact .commit (.onHw _ (runCommand_keeps _ _ _ _ _ (fun q _ h => xltSync_keeps q h) (.refl s)))
  | memRemap => exact .next (runCommand_keeps _ _ _ _ _ (fun q _ h => memRemap_keeps q h) (.refl s))
  | memPpr => exact .next (runCommand_keeps _ _ _ _ _ (fun q _ h => memPpr_keeps q h) (.refl s))
  | pwrState => exact .commit (resumeParked_keeps (runHw_keeps _ _ _ _ _ (.refl s)))
  | snprspI p => exact .commit (answerArrives_keeps _ p _ (fun _ h => takeSnprspI_keeps p h) (.refl s))
  | snprspFwd p => exact .commit (answerArrives_keeps _ p _ (fun _ h => takeSnprspFwd_keeps p h) (.refl s))
  | snprspWbif p => exact .commit (answerArrives_keeps _ p _ (fun _ h => takeSnprspWbif_keeps p h) (.refl s))
  | cmpAck p => exact .commit (answerArrives_keeps _ p _ (fun _ h => takeCmpAck_keeps p h) (.refl s))
  | probeRsp p => exact .commit (answerArrives_keeps _ p _ (fun _ h => takeProbeRsp_keeps p h) (.refl s))
  | wbData p => exact .commit (answerArrives_keeps _ p _ (fun _ h => settleProbed_keeps p (takeWbData_keeps p h)) (.refl s))
  | snpData p => exact .commit (answerArrives_keeps _ p _ (fun _ h => takeSnpData_keeps p h) (.refl s))
  | probeData p => exact .commit (answerArrives_keeps _ p _ (fun _ h => takeProbeData_keeps p h) (.refl s))
  | dataOnceAtHome p => exact .commit (answerArrives_keeps _ p _ (fun _ h => takeDataOnce_keeps p h) (.refl s))
  | overflowRequestServed => exact .commit (serveOverflow_keeps _ _ _ (.refl s))
  | homeTimeout => exact .commit (retryRebuilds_keeps _ (homeTimedOut_keeps _ _ (.refl s)))
  | bulkHeldReleased => exact .commit (releaseBulk_keeps _ (.refl s))
  | descFetch => exact .commit (.onHw _ (fetch_keeps _ (.refl s)))
  | preTranslationWalk => exact .commit (preWalk_keeps _ _ (.refl s))
  | chunkStart => exact .commit (chunkStart_keeps _ _ (.refl s))
  | faultSlotFreed => exact .commit (slotFreed_keeps _ (.refl s))
  | chunkCommit => exact .commit (chunkCommit_keeps _ _ _ (.refl s))
  | descComplete => exact .commit (.onHw _ (completeDesc_keeps _ _ (.refl s)))
  | dfencePoll => exact .commit (fencePoll_keeps _ _ (.refl s))
  | directoryScanEnd => exact .commit (scanEnd_keeps _ _ (.refl s))
  | regionWipeDone => exact .commit (wipeDone_keeps _ (.refl s))
  | cowCopyDone => exact .commit (copyDone_keeps _ _ _ (.refl s))
  | colSegmentDone => exact .commit (driveSegment_keeps _ _ (.refl s))
  | colInstanceDone => exact .commit (driveInstance_keeps _ (.refl s))
  | dramReadDecode => exact .commit (readDecode_keeps _ _ (.refl s))
  | mcsSlotIssue => exact .next (slotIssued_keeps _ _ (.refl s))
  | mirrorRecord => exact .next (takeRecord_keeps _ _ (.refl s))
  | takeover => exact .next (takeOver_keeps (.refl s))
  | resyncMetadataDone => exact .next (metadataDone_keeps (.refl s))
  | fullRateSweepDone => exact .next (fullRateDone_keeps _ _ (.refl s))
  | poolZeroDone => exact .next (poolZeroDone_keeps _ (.refl s))
  | stepLimitExpiry => exact .next (stepLimit_keeps (.refl s))
  | debugUnlockDone => exact .next (debugUnlocked_keeps (.refl s))
  | selfTestEnd => exact .next (selfTestEnd_keeps _ _ (.refl s))

theorem exec_keeps {c : Instr} {s t : State} (h : exec c s = .next t) : Keeps s t := by
  obtain ⟨u, hu, hkeeps⟩ := exec_nextKeeps c s
  obtain rfl : u = t := Host.Outcome.next.inj (hu.symm.trans h)
  exact hkeeps

theorem step_cons {s : State} {c : Instr} {rest : List Instr} (h : s.pending = c :: rest) : step s = exec c { s with pending := rest } := by
  simp only [step, h]

/-- Settles O4: the half of `Keeps` that speaks of the queue. -/
theorem commandsLeaveTheQueue : Obligations.CommandsLeaveTheQueue := by
  intro c s t h
  obtain ⟨hqueue, -⟩ := exec_keeps h
  exact hqueue

/-- Settles O1: `step` splits on the queue alone (the order of commands is the queue's, log entry 1). -/
theorem stepRunsFrontCommand : Obligations.StepRunsFrontCommand := by
  intro s c rest h
  exact step_cons h

/-- Settles O3: no arm of `exec` answers a fault or a refusal (an event that cannot happen changes nothing, log entry 1). -/
theorem everyCommandTakesEffect : Obligations.EveryCommandTakesEffect := by
  intro c s
  obtain ⟨t, ht, -⟩ := exec_nextKeeps c s
  exact ⟨t, ht⟩

end Sys2Proof.Machine
end

section
/-!
PROOFS. The commands that leave pool memory as it is.
-/
namespace Sys2Proof.Machine
open Sys2Proof

/-- If the outcome `r` of a command on `s` is a next state, it has the pool memory of `s`. -/
def NextSparesPool (s : State) (r : Result) : Prop := ∀ t, r = .next t → t.pool = s.pool

theorem NextSparesPool.next {s t : State} (h : t.pool = s.pool) : NextSparesPool s (.next t) := by
  intro u hu
  obtain rfl := Host.Outcome.next.inj hu
  exact h

theorem NextSparesPool.onHw (s : State) (f : Hw → Hw) : NextSparesPool s (.next (s.onHw f)) := .next rfl

/-- Mirror records (R493) are the module's, not the pool's. -/
@[simp] theorem mirrored_pool (a b : State) : (mirrored a b).pool = b.pool := by
  unfold mirrored
  split <;> rfl

theorem NextSparesPool.commit {s : State} {f : State → State} (h : (f s).pool = s.pool) : NextSparesPool s (commit f s) :=
  .next ((mirrored_pool s (f s)).trans h)

theorem runCommand_pool {s : State} (m op : Nat) (params : List Param) (query : Bool) (body : Req → State → State × Option Reply)
    (hb : ∀ q, (body q s).1.pool = s.pool) : (runCommand s m op params query body).pool = s.pool := by
  unfold runCommand
  dsimp only
  split
  · split
    · rfl
    · split
      · exact hb _
      · split <;> exact hb _
  · rfl

@[simp] theorem runHw_pool (s : State) (m op : Nat) (params : List Param) (query : Bool) (body : Req → Hw → Hw × Option Reply) :
    (runHw s m op params query body).pool = s.pool :=
  runCommand_pool m op params query _ fun _ => rfl

@[simp] theorem busyFirst_pool (s : State) (m op : Nat) (params : List Param) (why : Nat) (taken : List Nat → Hw → Bool)
    (body : Req → Hw → Hw × Option Reply) : (busyFirst s m op params why taken body).pool = s.pool := by
  unfold busyFirst
  split
  · split
    · rfl
    · exact runHw_pool ..
  · exact runHw_pool ..

@[simp] theorem mbxRingWrite_pool (s : State) (who : Requester) (m value : Nat) : (mbxRingWrite s who m value).pool = s.pool := by
  unfold mbxRingWrite
  split <;> rfl

@[simp] theorem nop_pool (s : State) (m : Nat) : (nop s m).pool = s.pool := by
  unfold nop
  split <;> rfl

/-- The records of a resynchronisation (R508) copy the pool and leave it as it is. -/
@[simp] theorem metadataDone_pool (s : State) : (metadataDone s).pool = s.pool := by
  unfold metadataDone
  dsimp only
  split <;> rfl

/-- The commands that `touchesMemory` does not name, by the operation through which each changes the state. -/
theorem exec_sparesPool {c : Instr} (s : State) (hc : touchesMemory c = false) : NextSparesPool s (exec c s) := by
  cases c with dsimp only [exec]
  -- named by `touchesMemory`
  | atomic | brd | bulkHeldReleased | bwr | chunkCommit | chunkStart | cmpAck | colInstanceDone | colSegmentDone | cowCopyDone
  | dataOnceAtHome | debugUnlockDone | descComplete | descFetch | dfencePoll | directoryScanEnd | dramReadDecode | evict
  | faultSlotFreed | fullRateSweepDone | holdWake | homeTimeout | mcsSlotIssue | memPpr | memRemap | mirrorRecord
  | overflowRequestServed | poolZeroDone | preTranslationWalk | probeData | probeRsp | pseudoChannelRetrainEnd | pwrState | rdOnce
  | rdOwn | rdShared | regionWipeDone | selfTestEnd | snapSwitch | snpData | snprspFwd | snprspI | snprspWbif | stepLimitExpiry
  | takeover | takeoverWriteHoldEnd | upgrade | wbData | wrLine | wrPart | xltSync =>
    exact absurd hc nofun
  -- events that touch the module alone, with mirror records
  | registerWrite | dblRing | faultReplyResume | faultReplyAbort | queueRestart | cwRd | cwWr | cwRdata | resvExpiry | brdData | bdone
  | atomicRet | retry | deny | tileRetryReissue | xltInv | xltInvAckSend | descStart | faultTimeout | tileE2eTimeout | dmergeStampPoll
  | rightsChangeDrainEnd | agentDeadDone | snapReclaimDone | colSeg | colMemberTimeout | pcieMemoryRequest =>
    exact .commit rfl
  -- mailbox commands on the module
  | mbxInfo | ctxQuery | regionQuery | cohConfig | cohQuery | cohLineQuery | cohSuspectClear | snapQuery | queueQuery | collGroupQuery
  | memConfig | memQuery | memRetrain | memEccConfig | memEccQuery | lanePower | laneQuery | optEngine | optGate | optQuery | linkEnable
  | linkConfig | linkTune | linkRetrain | linkWidth | linkQuery | routeConfig | routeLoad | routeFlip | routeQuery | qosMode | qosPort
  | qosPolice | horizonLoad | timeConfig | timeLink | timeSet | timeQuery | pairLeave | pairSwitch | pairConfig | pairQuery | bistRun
  | bistQuery | repairCommit | repairQuery | fwUpdate | fwQuery | fwActivate | clkGate | clkSwitch | clkQuery | pwrLimit | pwrQuery
  | gpioConfig | gpioSet | gpioQuery =>
    exact .next (runHw_pool ..)
  -- mailbox commands on the module, with mirror records, and with a wait that may be over at once
  | ctxModify | regionCreate | regionRelease | regionAclSet | regionAclAdd | regionAclRemove | agentGroupSet | agentMgmtSet | agentDead
  | agentRevive | snapOpen | snapPublish | snapRebase | snapClose | snapConfig | collGroupConfig | collGroupDestroy | collMemberAdd
  | collMemberRemove | collInstanceEnd | ctxUnbind | xltInvalidate | queueDestroy =>
    exact .commit (runHw_pool ..)
  -- mailbox commands that a busy object answers first
  | laneConfig | pairJoin => exact .next (busyFirst_pool ..)
  | ctxBind | queueCreate | collGroupCreate => exact .commit (busyFirst_pool ..)
  | mbxRing => exact .next (mbxRingWrite_pool ..)
  | mbxNop => exact .next (nop_pool ..)
  | resyncMetadataDone => exact .next (metadataDone_pool s)
  -- every other event touches the module alone
  | _ => exact .onHw s _

/-- Settles O7: each command outside `touchesMemory` acts through operations on the module alone. -/
theorem otherCommandsSpareMemory : Obligations.OtherCommandsSpareMemory := by
  intro c s t hc h
  exact exec_sparesPool s hc t h

end Sys2Proof.Machine
end

section
/-!
PROOFS. The address map of the pool (R21, R336) can be undone.
-/
namespace Sys2Proof.Machine
open Sys2Proof

/-- What a key was mixed into is what mixing the key in once more gives back. -/
theorem nxor_nxor_cancel (a c : Nat) : nxor (nxor a c) c = a := by
  show (a ^^^ c) ^^^ c = a
  rw [Nat.xor_assoc, Nat.xor_self, Nat.xor_zero]

theorem nxor_right_cancel {a b c : Nat} (h : nxor a c = nxor b c) : a = b := by
  rw [← nxor_nxor_cancel a c, h, nxor_nxor_cancel]

/-- A pool offset is its tile and its offset there (R21). -/
theorem eq_of_tile {a b : Nat} (ht : tileOf a = tileOf b) (hl : tileLocal a = tileLocal b) : a = b := by
  unfold tileOf at ht
  unfold tileLocal at hl
  omega

/-- An offset in a tile is its pseudo-channel and its offset there (R336). -/
theorem tileLocal_eq_of_pc {a b : Nat} (hk : pcOf a = pcOf b) (hq : pcOffset a = pcOffset b) : tileLocal a = tileLocal b := by
  unfold pcOf at hk
  unfold pcOffset at hq
  omega

/-- An offset in a pseudo-channel is its row, bank and column: the bank mixes in the row (R336), so the row must be known first. -/
theorem pcOffset_eq_of_bank {a b : Nat} (hr : rowOf a = rowOf b) (hb : bankOf a = bankOf b)
    (hc : pcOffset a % 1024 = pcOffset b % 1024) : pcOffset a = pcOffset b := by
  unfold rowOf at hr
  unfold bankOf at hb
  rw [hr] at hb
  have hmid : pcOffset a / 1024 % 64 = pcOffset b / 1024 % 64 := nxor_right_cancel hb
  omega

/-- Settles O8: column, bank and row give the offset in the pseudo-channel, then the pseudo-channel the offset in the tile, then the tile
the offset in the pool; the map tells any two offsets apart, so the size of the pool plays no part. -/
theorem poolBytesLieApart : Obligations.PoolBytesLieApart := by
  intro a b ht hk hr hb hc _ _
  exact eq_of_tile ht (tileLocal_eq_of_pc hk (pcOffset_eq_of_bank hr hb hc))

end Sys2Proof.Machine
end

section
/-!
PROOFS. An admitted request at its home (R30, R482), and what the home performs at once for one to a region without a directory (R686).
-/
namespace Sys2Proof.Machine
open Sys2Proof

/-- An admitted request stands in the replay filter and goes to the directory, or at once to the MCS where its region has none (R686). -/
theorem requestArrives_of_admitted {s : State} {op : Nat} {p : Packet} {region kind loc slot shard : Nat} {h : Hw}
    (ha : Admitted badRequest s op p region kind loc slot shard h) : requestArrives op p s =
      if kind == 0 then coherentRequest (entered s p h) (homeTile p) (messageReq region (enteredSerial p h) loc p) p
      else plainRequest (entered s p h) (homeTile p) (messageReq region (enteredSerial p h) loc p) p := by
  obtain ⟨rfl, hown, hbad, haddr, hdead, hheld, hnew, hroom, hloc⟩ := ha
  simp only [taken, homeTile, Option.isNone_iff_eq_none] at haddr hdead hheld hnew hroom hloc
  unfold requestArrives
  simp only [hown, hbad, haddr, hdead, hheld, hnew, hroom, hloc, bne_self_eq_false, Bool.not_true, Bool.or_self,
    Bool.false_eq_true, if_false]
  rfl

/-- A message that the MCS serves is performed at once: no takeover holds it back here (R501 holds messages as they arrive). -/
theorem perform_message {s : State} {t : Nat} {region n loc : Nat} {p : Packet} (hs : mcsServesAll s.hw loc 1 = true) :
    perform s t (messageReq region n loc p) = performNow s t (messageReq region n loc p) := by
  have hspan : (messageReq region n loc p).span s.hw = 1 := rfl
  have hheld : (messageReq region n loc p).held s.hw = false := Bool.and_false _
  have hat : (messageReq region n loc p).loc = loc := rfl
  simp only [perform, hspan, hheld, hat, hs, Bool.not_false, Bool.and_self, if_true]

/-- So an admitted request other than an EVICT, to a region without a directory whose MCS serves, is performed at once (R686). -/
theorem requestArrives_of_plain {s : State} {op : Nat} {p : Packet} {region kind loc slot shard : Nat} {h : Hw}
    (ha : Admitted badRequest s op p region kind loc slot shard h) (hk : kind ≠ 0) (ho : op ≠ 8)
    (hs : mcsServesAll (entered s p h).hw loc 1 = true) : requestArrives op p s =
      performNow (entered s p h) (homeTile p) (messageReq region (enteredSerial p h) loc p) := by
  have ⟨hop, _⟩ := ha
  rw [requestArrives_of_admitted ha, if_neg (by simpa using hk), plainRequest, if_neg (by simpa [hop] using ho), perform_message hs]

section
variable {s : State} {t region n loc : Nat} {p : Packet}

/-- RD_SHARED, RD_OWN and UPGRADE read the line and grant it without a transaction (R686). -/
theorem performNow_grant (ho : p.opcode = 1 ∨ p.opcode = 2 ∨ p.opcode = 3) : performNow s t (messageReq region n loc p) =
    (load s p.sclass loc 128).2.2.onHw fun g => send (filterEnd g t p 3 none)
      (homeReply g (if p.opcode == 1 then 0x30 else 0x32) p (load s p.sclass loc 128).2.1 (load s p.sclass loc 128).1) := by
  have hread : (p.opcode == 1 || p.opcode == 2 || p.opcode == 3) = true := by simpa [or_assoc] using ho
  exact if_pos hread

/-- RD_ONCE reads the line. -/
theorem performNow_rdOnce (ho : p.opcode = 4) : performNow s t (messageReq region n loc p) =
    (load s p.sclass loc 128).2.2.onHw fun g =>
      send g (homeReply g 0x33 p (load s p.sclass loc 128).2.1 (load s p.sclass loc 128).1) := by
  simp only [performNow, messageReq, ho]
  rfl

/-- WR_LINE stores the line, and its answer waits for the mirror record (R494). -/
theorem performNow_wrLine (ho : p.opcode = 5) : performNow s t (messageReq region n loc p) =
    let u := store s false p.sclass loc (Packet.body p) (Packet.poisonBit p)
    let a := homeReply u.hw 0x22 p false []
    (mirrorLines u region loc 128).onHw fun g => sendPerformed (filterEnd g t p 1 (some a)) region a := by
  simp only [performNow, messageReq, ho]
  rfl

/-- WR_PART stores the masked bytes of the line. -/
theorem performNow_wrPart (ho : p.opcode = 6) : performNow s t (messageReq region n loc p) =
    let u := storePart s p.sclass loc (leNat ((Packet.body p).take 16)) ((Packet.body p).drop 16) (Packet.poisonBit p)
    let a := homeReply u.hw 0x22 p false []
    (mirrorLines u region loc 128).onHw fun g => sendPerformed (filterEnd g t p 1 (some a)) region a := by
  simp only [performNow, messageReq, ho]
  rfl

/-- ATOMIC runs at the MCS and returns the old value (R130). -/
theorem performNow_atomic (ho : p.opcode = 7) : performNow s t (messageReq region n loc p) =
    let u := atomicAt s p.sclass loc (Packet.body p)
    let a := homeReply u.2.2.hw 0x36 p u.2.1 (leBytes 16 u.1)
    (mirrorLines u.2.2 region loc 16).onHw fun g => sendPerformed (filterEnd g t p 1 (some a)) region a := by
  simp only [performNow, messageReq, ho]
  rfl

end

theorem commit_congr {s u : State} {f : State → State} (h : f s = u) : commit f s = .next (mirrored s u) := by rw [commit, h]

/-- Settles O48: the home's check admits the request (`requestArrives_of_plain`), and each opcode has its own access. -/
theorem plainRequestsComplete : Obligations.PlainRequestsComplete := by
  refine ⟨?rdShared, ?rdOwn, ?upgrade, ?rdOnce, ?wrLine, ?wrPart, ?atomic, ?evict⟩
  all_goals intro s p region kind loc slot shard h ha hk
  case evict =>
    have ⟨hop, _⟩ := ha
    refine commit_congr ((requestArrives_of_admitted ha).trans ?_)
    rw [if_neg (by simpa using hk), plainRequest, if_pos (by simp [hop])]
    rfl
  all_goals
    intro hs
    have ⟨hop, _⟩ := ha
    refine commit_congr ((requestArrives_of_plain ha hk (by decide) hs).trans ?_)
  case rdShared => rw [performNow_grant (.inl hop), hop]; rfl
  case rdOwn => rw [performNow_grant (.inr (.inl hop)), hop]; rfl
  case upgrade => rw [performNow_grant (.inr (.inr hop)), hop]; rfl
  case rdOnce => exact performNow_rdOnce hop
  case wrLine => exact performNow_wrLine hop
  case wrPart => exact performNow_wrPart hop
  case atomic => exact performNow_atomic hop

end Sys2Proof.Machine
end

section
/-!
PROOFS. What a mailbox command comes to whose request stands (R520, R524), and an event that touches the module alone.
-/
namespace Sys2Proof.Machine
open Sys2Proof

section
variable {s : State} {m op : Nat} {params : List Param} {query : Bool} {vals : List Nat} {body : Req → Hw → Hw × Option Reply}

/-- A command that answers at once makes its change, then answers. -/
theorem runHw_served (f : Hw → Hw) {r : Reply} (ha : Asks s m op params query vals)
    (hb : body (theRequest s m vals) s.hw = (f s.hw, some r)) : runHw s m op params query body = served s m f r := by
  rw [runHw_of_asks body ha, hb]
  rfl

/-- A command that leaves its answer to a later row makes its change. -/
theorem runHw_unanswered {g : Hw} (ha : Asks s m op params query vals)
    (hb : body (theRequest s m vals) s.hw = (g, none)) : runHw s m op params query body = s.onHw fun _ => g := by
  rw [runHw_of_asks body ha, hb]

/-- Where the request breaks no rule, the check for a busy object ahead of a reserved field has no part in it. -/
theorem busyFirst_of_asks (why : Nat) (taken : List Nat → Hw → Bool) (ha : Asks s m op params false vals) :
    busyFirst s m op params why taken body = runHw s m op params false body := by
  obtain ⟨-, hcheck, -⟩ := ha
  simp only [busyFirst, hcheck]

theorem busyFirst_served {why : Nat} {taken : List Nat → Hw → Bool} (f : Hw → Hw) {r : Reply} (ha : Asks s m op params false vals)
    (hb : body (theRequest s m vals) s.hw = (f s.hw, some r)) : busyFirst s m op params why taken body = served s m f r :=
  (busyFirst_of_asks why taken ha).trans (runHw_served f ha hb)

/-- What an event that touches the module alone makes of it. -/
theorem commit_onHw {f g : Hw → Hw} (h : f s.hw = g s.hw) : commit (fun s => s.onHw f) s = .next (mirrored s (s.onHw g)) := by
  simp only [commit, State.onHw, h]

/-- Mailbox `m` has no work under way once it is answered (R520). -/
theorem workOf_answer (h : Hw) (m op : Nat) (r : Reply) : workOf (answer h m r) m op = none := by
  simp only [workOf, answer_mailbox]

end

end Sys2Proof.Machine
end

section
/-!
PROOFS. The commands of contexts and translations (R40–R65).
-/
namespace Sys2Proof.Machine
open Sys2Proof

/-! ### Contexts (R40–R43) -/

/-- Out of a pair, what a command creates is of service 0 (R491). -/
theorem createService_of_unpaired {h : Hw} (hp : h.pair.state = 0) : createService h = some 0 := by
  simp [createService, hp]

theorem ctxModify_of_bound {q : Req} {h : Hw} (hb : (h.ctx (q.p 0)).bound = true) (ht : badTimeout (q.p 2) = false) :
    ctxModify q h = (h.setCtx (q.p 0) { h.ctx (q.p 0) with notify := q.p 1, timeout := q.p 2 }, some Reply.ok) := by
  simp [ctxModify, hb, ht]

theorem ctxModify_of_unbound {q : Req} {h : Hw} (hb : (h.ctx (q.p 0)).bound = false) : ctxModify q h = (h, some (Reply.denied rState)) := by
  simp [ctxModify, hb]

/-- Settles O13: `ctxModify` answers by whether the context is bound. -/
theorem contextModifyChangesTwoFields : Obligations.ContextModifyChangesTwoFields := by
  intro s m c n t ha
  refine ⟨fun hb ht => ?bound, fun hb => ?unbound⟩
  all_goals refine (exec_ctxModify m s).trans (commit_congr ?_)
  case bound => exact runHw_served _ ha (ctxModify_of_bound hb ht)
  case unbound => exact runHw_served id ha (ctxModify_of_unbound hb)

section
variable {q : Req} {h : Hw}

/-- CTX.BIND of a MIRRORED context: its tables are Gokomos's, in a region of their own (R40, R53). -/
theorem ctxBind_of_mirrored {v : Nat} (hopen : poolOpen h = true) (hfree : (h.ctx (q.p 0)).bound = false) (hmode : q.p 2 = 1)
    (hroot : q.p 3 = 0) (hring : q.p 5 % 4096 = 0 ∧ inPoolFor h v (q.p 5) = true) (hlog : 4 ≤ q.p 6 ∧ q.p 6 ≤ 16)
    (hend : fpaOffset (q.p 5) + 64 * 2 ^ q.p 6 ≤ poolSize) (hms : q.p 8 ≤ 60000)
    (hregion : q.p 4 ≠ 0 ∧ (h.region (q.p 4)).state = 1) (hv : createService h = some v) :
    ctxBind q h =
      (h.setCtx (q.p 0) { bound := true, agent := q.p 1, mirrored := true, root := 0, tableRegion := q.p 4, ring := q.p 5, ringLog2 := q.p 6
                          notify := q.p 7, timeout := q.p 8, service := v }, some Reply.ok) := by
  obtain ⟨halign, hpool⟩ := hring
  obtain ⟨hlow, hhigh⟩ := hlog
  obtain ⟨hsome, hstate⟩ := hregion
  simp [ctxBind, badTimeout, hopen, hfree, hmode, hroot, halign, hpool, hsome, hstate, hv, Nat.not_lt.2 hlow, Nat.not_lt.2 hhigh,
    Nat.not_lt.2 hend, Nat.not_lt.2 hms]

/-- CTX.BIND of a context with a root table of its own, in a region `g` that its agent may read, out of a pair (R40, R491). -/
theorem ctxBind_of_rooted {g : Nat} (hopen : poolOpen h = true) (hfree : (h.ctx (q.p 0)).bound = false) (hmode : q.p 2 = 0)
    (hregion : q.p 4 = 0) (hring : q.p 5 % 4096 = 0 ∧ inPoolFor h 0 (q.p 5) = true) (hlog : 4 ≤ q.p 6 ∧ q.p 6 ≤ 16)
    (hend : fpaOffset (q.p 5) + 64 * 2 ^ q.p 6 ≤ poolSize) (hms : q.p 8 ≤ 60000)
    (hroot : q.p 3 % 4096 = 0 ∧ inPoolFor h 0 (q.p 3) = true) (hhome : regionAt h (granuleOf (fpaOffset (q.p 3))) = some g)
    (hright : g ≠ 0 ∧ hasRight h (h.region g) (q.p 1) .read = true) (hpair : h.pair.state = 0) :
    ctxBind q h =
      (h.setCtx (q.p 0) { bound := true, agent := q.p 1, mirrored := false, root := q.p 3, tableRegion := 0, ring := q.p 5, ringLog2 := q.p 6
                          notify := q.p 7, timeout := q.p 8, service := 0 }, some Reply.ok) := by
  obtain ⟨halign, hpool⟩ := hring
  obtain ⟨hlow, hhigh⟩ := hlog
  obtain ⟨hrootAlign, hrootPool⟩ := hroot
  obtain ⟨hsome, hread⟩ := hright
  simp [ctxBind, badTimeout, hopen, hfree, hmode, hregion, halign, hpool, hrootAlign, hrootPool, hhome, hsome, hread, hpair,
    createService_of_unpaired hpair, Nat.not_lt.2 hlow, Nat.not_lt.2 hhigh, Nat.not_lt.2 hend, Nat.not_lt.2 hms]

/-- CTX.UNBIND of a context with nothing outstanding (R42). -/
theorem ctxUnbind_of_quiet (hb : (h.ctx (q.p 0)).bound = true) (hq : outstandingOf h (q.p 0) = 0)
    (hg : (groupsOf h (q.p 0)).any (fun g => g.2.inst.isSome) = false) : ctxUnbind q h = (unbind (q.p 0) h, some Reply.ok) := by
  simp only [ctxUnbind, hb, hq, hg]
  rfl

/-- A command that has answered unbinds nothing later. -/
theorem settleUnbind_answer (m : Nat) (h : Hw) (r : Reply) : settleUnbind m (answer h m r) = answer h m r := by
  rw [settleUnbind, workOf_answer]

/-! ### Tables and invalidations (R53–R65) -/

/-- XLT.SYNC whose updates are all taken (R53, R54). -/
theorem xltSync_of_updates {s : State} {y : Tables} (hn : 0 < q.p 1 ∧ q.p 1 ≤ 120) (hb : (s.hw.ctx (q.p 0)).bound = true)
    (hm : (s.hw.ctx (q.p 0)).mirrored = true)
    (hy : (Tables.updates s.hw (syncUpdates (q.p 1) (q.p 2)) 0 (syncTables s (q.p 0))).toOption = some y) :
    xltSync q s = (syncApply s q.m (q.p 0) (syncUpdates (q.p 1) (q.p 2)) y.settle, none) := by
  obtain ⟨hpos, hmax⟩ := hn
  unfold xltSync
  cases hu : Tables.updates s.hw (syncUpdates (q.p 1) (q.p 2)) 0 (syncTables s (q.p 0)) with
  | error e =>
    rw [hu] at hy
    exact absurd hy nofun
  | ok z =>
    rw [hu] at hy
    obtain rfl : z = y := Option.some.inj hy
    simp [hu, hb, hm, Nat.ne_of_gt hpos, Nat.not_lt.2 hmax]

/-- XLT.INVALIDATE accepts a request that R60 does not refuse (R58). -/
theorem xltInvalidate_of_parsed {i : Invalidation} (hz : fld (q.p 0) 18 14 = 0 ∧ fld (q.p 0) 192 64 = 0)
    (hi : parseInvalidation h q.ringer (q.p 0) = some i) :
    xltInvalidate q h = (setWork (announceInvalidation h { i with mailbox := some q.m }) q.m 0x206 [] [], none) := by
  obtain ⟨hlow, hhigh⟩ := hz
  simp [xltInvalidate, hlow, hhigh, hi]

/-- XLT_INV from a live node accepts the same (R58, R60). -/
theorem takeInvalidation_of_parsed {p : Packet} {i : Invalidation} (hop : p.opcode = 0x64) (hown : isOwn h p.dst = true)
    (hlen : p.data.length = 32) (hlive : isDead (takeInbox h p) p.src = false)
    (hi : parseInvalidation (takeInbox h p) (some p.src) (leNat p.data) = some i) :
    takeInvalidation p h = announceInvalidation (takeInbox h p) { i with packet := p } := by
  simp [takeInvalidation, hop, hown, hlen, hlive, hi]

/-- The acknowledgement of an invalidation that has drained leaves (R62). -/
theorem sendInvalidationAck_of_drained {src tid : Nat} {i : Invalidation}
    (hi : h.invalidations.find? (fun x => x.mailbox.isNone && x.packet.src == src && x.packet.tid == tid && !invalidationWaits h x) = some i) :
    sendInvalidationAck src tid h =
      send { h with invalidations := h.invalidations.filter (fun j => j.serial != i.serial) } (ackPacket i.packet 0) := by
  simp only [sendInvalidationAck, hi]

end

/-- Settles O46: each command has one lemma above for the request that it grants. -/
theorem contextsAndTranslationComplete : Obligations.ContextsAndTranslationComplete := by
  refine ⟨?bindMirrored, ?bindRooted, ?modify, ?query, ?unbind, ?sync, ?invalidate, ?inv, ?ack⟩
  case bindMirrored =>
    intro s m c agent region ring log2 note ms v ha hopen hfree hring hlog hend hms hregion hv
    refine (exec_ctxBind m s).trans (commit_congr ?_)
    exact busyFirst_served _ ha (ctxBind_of_mirrored hopen hfree rfl rfl hring hlog hend hms hregion hv)
  case bindRooted =>
    intro s m c agent root ring log2 note ms g ha hopen hfree hring hlog hend hms hroot hhome hright hpair
    refine (exec_ctxBind m s).trans (commit_congr ?_)
    exact busyFirst_served _ ha (ctxBind_of_rooted hopen hfree rfl rfl hring hlog hend hms hroot hhome hright hpair)
  case modify =>
    intro s m c note ms ha hb hms
    have ⟨hbound, _⟩ := contextModifyChangesTwoFields s m c note ms ha
    exact hbound hb (by simpa [badTimeout] using hms)
  case query =>
    intro s m c ha
    exact congrArg Host.Outcome.next (runHw_served id ha rfl)
  case unbind =>
    intro s m c force ha hb hq hg
    refine (exec_ctxUnbind m s).trans (commit_congr ?_)
    rw [runHw_served (unbind c) ha (ctxUnbind_of_quiet (q := theRequest s m [c, force]) hb hq hg)]
    simp only [served, State.onHw, settleUnbind_answer]
  case sync =>
    intro s m c n ws y ha hn hb hm hy
    refine (exec_xltSync m s).trans (commit_congr ?_)
    rw [runCommand_of_asks xltSync ha, xltSync_of_updates (q := theRequest s m [c, n, ws]) hn hb hm hy]
    rfl
  case invalidate =>
    intro s m v i ha hz hi
    refine (exec_xltInvalidate m s).trans (commit_congr ?_)
    rw [runHw_unanswered ha (xltInvalidate_of_parsed (q := theRequest s m [v]) hz hi)]
    rfl
  case inv =>
    intro s p i hop hown hlen hlive hi
    exact commit_onHw (takeInvalidation_of_parsed hop hown hlen hlive hi)
  case ack =>
    intro s src tid i hi
    exact commit_onHw (sendInvalidationAck_of_drained hi)

end Sys2Proof.Machine
end

section
/-!
PROOFS. Queues, doorbells and the ends of faults (R73–R77, R236–R248).
-/
namespace Sys2Proof.Machine
open Sys2Proof

section
variable {q : Req} {h : Hw}

/-- QUEUE.CREATE of a free ID with operands in their ranges, for a bound context whose agent may read the ring's region, on a tile that
has room for it, out of a pair (R237, R238). -/
theorem queueCreate_of_accepted {g : Nat} (hopen : poolOpen h = true) (hfree : KMap.has h.queues (q.p 0) = false)
    (hlog : 4 ≤ q.p 4 ∧ q.p 4 ≤ 16) (hscr : q.p 5 ≤ 64) (hinf : 1 ≤ q.p 6 ∧ q.p 6 ≤ 8) (he2e : 10 ≤ q.p 7 ∧ q.p 7 ≤ 5000)
    (halign : q.p 3 % 4096 = 0) (hpool : inPoolFor h (h.ctx (q.p 1)).service (q.p 3) = true)
    (hregion : regionOfRange h (q.p 3) (64 * 2 ^ q.p 4) = some g) (hbound : (h.ctx (q.p 1)).bound = true)
    (hread : hasRight h (h.region g) (h.ctx (q.p 1)).agent .read = true) (hpair : h.pair.state = 0)
    (htile : h.bist.failed.contains (q.p 2) = false) (hbist : bistHolds h (q.p 2) = false)
    (hroom : (queuesOn h (q.p 2)).length < 128 ∧ q.p 5 ≤ freeUnits h (q.p 2)) :
    queueCreate q h =
      (h.setQueue (q.p 0) { ctx := q.p 1, tile := q.p 2, ring := q.p 3, ringLog2 := q.p 4, scratch := q.p 5, inflight := q.p 6, e2e := q.p 7
                            service := (h.ctx (q.p 1)).service }, some Reply.ok) := by
  obtain ⟨hlogLow, hlogHigh⟩ := hlog
  obtain ⟨hinfLow, hinfHigh⟩ := hinf
  obtain ⟨he2eLow, he2eHigh⟩ := he2e
  obtain ⟨hqueues, hscratch⟩ := hroom
  simp only [List.contains_eq_mem, decide_eq_false_iff_not] at htile
  simp [queueCreate, hopen, hfree, halign, hpool, hregion, hbound, hread, hpair, htile, hbist, createService_of_unpaired hpair,
    Nat.not_lt.2 hlogLow, Nat.not_lt.2 hlogHigh, Nat.not_lt.2 hscr, Nat.ne_of_gt hinfLow, Nat.not_lt.2 hinfHigh, Nat.not_lt.2 he2eLow,
    Nat.not_lt.2 he2eHigh, Nat.not_le.2 hqueues, Nat.not_lt.2 hscratch]

/-- QUEUE.DESTROY of a queue with no descriptor (R239). -/
theorem queueDestroy_of_empty (hk : KMap.has h.queues (q.p 0) = true) (he : (h.queue (q.p 0)).execs = []) :
    queueDestroy q h = ({ h with queues := KMap.erase h.queues (q.p 0) }, some Reply.ok) := by
  simp [queueDestroy, hk, he]

theorem queueQuery_of_known (hk : KMap.has h.queues (q.p 0) = true) : queueQuery q h = (h, some (Reply.ok (queueRecord h (q.p 0)))) := by
  simp only [queueQuery, hk, if_true]

end

section
variable {h : Hw} {who : Requester} {c v : Nat}

/-- A doorbell that moves TAIL on, within the ring, is taken and wakes the module (R243). -/
theorem doorbell_of_ahead {id tail : Nat} (hid : fld v 0 12 = id) (htail : fld v 32 32 = tail) (hmay : mayDoorbell h who c = true)
    (hbound : (h.ctx c).bound = true) (hk : KMap.has h.queues id = true) (hctx : (h.queue id).ctx = c)
    (hold : ((h.queue id).tail + 2 ^ 32 - (h.queue id).head) % 2 ^ 32 ≤ (tail + 2 ^ 32 - (h.queue id).head) % 2 ^ 32)
    (hring : (tail + 2 ^ 32 - (h.queue id).head) % 2 ^ 32 ≤ 2 ^ (h.queue id).ringLog2) :
    doorbell who c v h = askWake (h.setQueue id { h.queue id with tail := tail }) := by
  subst hid htail hctx
  simp only [doorbell, hmay, hbound, hk, bne_self_eq_false, Bool.not_true, Bool.or_self, Bool.false_eq_true, if_false, hold, hring,
    decide_true, Bool.and_self, if_true]

/-- RESTART of a halted queue (R248). -/
theorem restart_of_halted {id : Nat} (hid : fld v 0 12 = id) (hcmd : fld v 12 2 = 1) (hmay : mayDoorbell h who c = true)
    (hbound : (h.ctx c).bound = true) (hk : KMap.has h.queues id = true) (hctx : (h.queue id).ctx = c) (hhalt : (h.queue id).halted = true) :
    restart who c v h = h.setQueue id { h.queue id with halted := false, haltIndex := 0, haltReason := 0 } := by
  subst hid hctx
  simp [restart, hcmd, hmay, hbound, hk, hhalt]

/-- A reply that names an open slot with its sequence, for its context, takes effect on all that wait for it (R73–R76). -/
theorem faultReply_of_open {action : Nat} {f : FaultSlot} (hmay : mayDoorbell h who c = true) (haction : fld v 32 2 = action)
    (hbound : (h.ctx c).bound = true) (hslot : KMap.get (h.tile (fld (fld v 0 32) 6 5)).faults (fld (fld v 0 32) 0 6) = f)
    (hopen : f.isOpen = true) (hseq : f.seq = fld (fld v 0 32) 16 16) (hctx : f.ctx = c) (hzero : fld (fld v 0 32) 11 5 = 0) :
    faultReply who c v action h = onWaiters (fld (fld v 0 32) 6 5) (fld (fld v 0 32) 0 6) (if action == 1 then Run.release else Run.abort)
      (freeFault h (fld (fld v 0 32) 6 5) (fld (fld v 0 32) 0 6)) := by
  simp [faultReply, hmay, haction, hbound, hslot, hopen, hseq, hctx, hzero]

/-- FAULT_TIMEOUT ends an open slot as ABORT does, and is counted (R77). -/
theorem faultTimeout_of_open {t k : Nat} {f : FaultSlot} (hslot : KMap.get (h.tile t).faults k = f) (hopen : f.isOpen = true)
    (hlimit : (h.ctx f.ctx).timeout ≠ 0) (hruns : runsFor h (h.ctx f.ctx).service = true) :
    faultTimeout t k h = onWaiters t k Run.abort (freeFault (ctxCount h f.ctx 3) t k) := by
  subst hslot
  simp [faultTimeout, hopen, hlimit, hruns]

end

/-- Settles O54: each command and each doorbell has one lemma above for the case that takes effect. -/
theorem queuesAndDoorbellsComplete : Obligations.QueuesAndDoorbellsComplete := by
  refine ⟨?create, ?destroy, ?query, ?ring, ?restart, ?resume, ?abort, ?timeout⟩
  case create =>
    intro s m id c t ring log2 scr inf e2e g ha hopen hfree hlog hscr hinf he2e halign hpool hregion hbound hread hpair htile hbist hroom
    refine (exec_queueCreate m s).trans (commit_congr ?_)
    exact busyFirst_served _ ha
      (queueCreate_of_accepted hopen hfree hlog hscr hinf he2e halign hpool hregion hbound hread hpair htile hbist hroom)
  case destroy =>
    intro s m id force ha hk he
    refine (exec_queueDestroy m s).trans (commit_congr ?_)
    rw [runHw_served (fun h => { h with queues := KMap.erase h.queues id }) ha
      (queueDestroy_of_empty (q := theRequest s m [id, force]) hk he)]
    rfl
  case query =>
    intro s m id ha hk
    exact congrArg Host.Outcome.next (runHw_served (fun h => h) ha (queueQuery_of_known (q := theRequest s m [id]) hk))
  case ring =>
    intro s who c v id tail hid htail hmay hbound hk hctx hold hring
    exact commit_onHw (doorbell_of_ahead hid htail hmay hbound hk hctx hold hring)
  case restart =>
    intro s who c v id hid hcmd hmay hbound hk hctx hhalt
    exact commit_onHw (restart_of_halted hid hcmd hmay hbound hk hctx hhalt)
  case resume =>
    intro s who c v f hmay haction hbound hslot hopen hseq hctx hzero
    exact commit_onHw (faultReply_of_open hmay haction hbound hslot hopen hseq hctx hzero)
  case abort =>
    intro s who c v f hmay haction hbound hslot hopen hseq hctx hzero
    exact commit_onHw (faultReply_of_open hmay haction hbound hslot hopen hseq hctx hzero)
  case timeout =>
    intro s t k f hslot hopen hlimit hruns
    exact commit_onHw (faultTimeout_of_open hslot hopen hlimit hruns)

end Sys2Proof.Machine
end

section
/-!
PROOFS. A descriptor from its fetch to its completion record (R55–R57, R244–R272, R297).
-/
namespace Sys2Proof.Machine
open Sys2Proof

/-! ### Fetching and looking ahead -/

/-- A slot that a doorbell covers is read, in a running queue with no read under way and at most 8 ahead, where its agent may (R244, R245). -/
theorem fetch_of_permitted {s : State} {id : Nat} {gs : List (Nat × Nat)} {g : Hw} (hk : KMap.has s.hw.queues id = true)
    (hruns : runsQueue s.hw id = true) (hlive : (s.hw.queue id).halted = false ∧ (s.hw.queue id).ending = false)
    (hidle : (s.hw.queue id).execs.any (fun e => !e.2.fetch.isEmpty) = false) (hmore : (s.hw.queue id).head ≠ (s.hw.queue id).tail)
    (hahead : ((s.hw.queue id).head + 2 ^ 32 - (s.hw.queue id).next) % 2 ^ 32 < 8)
    (hpermit : permitRange s.hw (s.hw.ctx (s.hw.queue id).ctx).agent (fpaNode (s.hw.queue id).ring)
      (fpaOffset (s.hw.queue id).ring + 64 * ((s.hw.queue id).head % 2 ^ (s.hw.queue id).ringLog2)) 64 .read = (.ok gs, g)) :
    fetch id s = readSlot id gs { s with hw := g } := by
  obtain ⟨hhalted, hending⟩ := hlive
  have hstop : ((s.hw.queue id).head == (s.hw.queue id).tail ||
      decide (8 ≤ ((s.hw.queue id).head + 2 ^ 32 - (s.hw.queue id).next) % 2 ^ 32)) = false := by
    rw [beq_eq_false_iff_ne.2 hmore, decide_eq_false (Nat.not_le.2 hahead), Bool.or_self]
  simp only [fetch, hk, hruns, hhalted, hending, hidle, hstop, hpermit, Bool.not_true, Bool.or_self, Bool.false_eq_true, if_false]

/-- The walker of a descriptor that looks ahead (R56). -/
def aheadWalker (s : State) (e : Exec) : Walker := { s := s, reads := e.run.walkReads, sclass := e.sclass }

/-- After the walk `w` the tile keeps the entry `p`, and the reads that the walk of descriptor `e` waited for are done with (R56). -/
def walkKept (s : State) (id i : Nat) (e : Exec) (w : Walker) (p : PreEntry) : State :=
  w.s.onHw fun h => keepPre (dropWalks (h.setExec id i { e with run := { e.run with walkReads := [] } }) { walkReads := w.reads })
    (s.hw.queue id).tile p

/-- The entry that the result of a walk for an access of type `acc` to `va` leaves: the translation where it gives the access, else an
absent one; none while the walk waits for a read (R55, R56). -/
def walkEntry (ctx va acc : Nat) : WalkResult → Option PreEntry
  | .wait => none
  | .ok t => some (if t.allows acc then t else { ctx := ctx, va := va / 4096 * 4096, size := 4096, absent := true })
  | .fault _ _ | .poison => some { ctx := ctx, va := va / 4096 * 4096, size := 4096, absent := true }

/-- A walk ahead that waits for nothing leaves its entry (R56). -/
theorem preWalk_of_entry {s : State} {id i : Nat} {e : Exec} {va acc : Nat} {p : PreEntry}
    (he : KMap.find? (s.hw.queue id).execs i = some e) (hdesc : e.desc ≠ [] ∧ e.ended = false)
    (hruns : runsQueue s.hw id = true) (hpage : nextPage s.hw id e = some (va, acc))
    (hentry : walkEntry (s.hw.queue id).ctx va acc (walk (s.hw.queue id).tile (s.hw.queue id).ctx va (aheadWalker s e)).1 = some p)
    (hstill : KMap.find? ((walk (s.hw.queue id).tile (s.hw.queue id).ctx va (aheadWalker s e)).2.s.hw.queue id).execs i = some e) :
    preWalk id i s = walkKept s id i e (walk (s.hw.queue id).tile (s.hw.queue id).ctx va (aheadWalker s e)).2 p := by
  obtain ⟨hread, hended⟩ := hdesc
  simp only [preWalk, he, List.isEmpty_eq_false_iff.2 hread, hended, hruns, hpage, Bool.not_true, Bool.or_self, Bool.false_eq_true, if_false]
  generalize hw : walk (s.hw.queue id).tile (s.hw.queue id).ctx va (aheadWalker s e) = r at hentry hstill ⊢
  obtain ⟨x, w⟩ := r
  simp only [aheadWalker] at hw
  cases x with
  | wait => exact absurd hentry nofun
  | ok t =>
    obtain rfl := Option.some.inj hentry
    simp only [hw, walkKept, State.onHw, hstill]
    split <;> rfl
  | fault | poison =>
    obtain rfl := Option.some.inj hentry
    simp only [hw, walkKept, State.onHw, hstill]

/-! ### Starting and running -/

/-- The descriptor whose turn it is starts, where no rule of its fields is broken (R245, R246, R254). -/
theorem startDesc_of_turn {h : Hw} {id i : Nat} {e : Exec} (hnext : (h.queue id).next = i) (hturn : startTurn h (h.queue id).tile = some id)
    (he : KMap.find? (h.queue id).execs i = some e) (hcomp : e.badComp = false) (hfields : e.badFields = false) :
    startDesc id i h =
      let g := (h.setTile (h.queue id).tile { h.tile (h.queue id).tile with lastQueue := id }).setQueue id
        { (h.queue id) with next := (i + 1) % 2 ^ 32 }
      let e := { e with started := true, space := if e.type == 4 then 0 else baseSpace, since := h.time.now, run := { e.run with walkReads := [] } }
      settleExec id i (settleStaging (g.setExec id i e) (h.queue id).tile) := by
  have hfields' : ∀ (b : Bool) (n t : Nat) (r : Run), Exec.badFields { e with started := b, space := n, since := t, run := r } = false :=
    fun _ _ _ _ => hfields
  simp only [startDesc, hnext, hturn, he, hcomp, hfields', bne_self_eq_false, Bool.or_self, Bool.false_eq_true, if_false]
  rfl

/-- A started descriptor that has not ended starts its next chunk (R57). -/
theorem chunkStart_of_started {s : State} {id i : Nat} {e : Exec} (he : KMap.find? ((settleExec id i s.hw).queue id).execs i = some e)
    (hstate : e.started = true ∧ e.ended = false) (hruns : runsQueue (settleExec id i s.hw) id = true) :
    chunkStart id i s = (onRun id i startRun (s.onHw (settleExec id i))).onHw (settleExec id i) := by
  obtain ⟨hstarted, hended⟩ := hstate
  simp only [chunkStart, State.onHw_hw, he, hstarted, hended, hruns, Bool.not_false, Bool.and_self, if_true]

theorem chunkCommit_of_runs {s : State} {id i : Nat} {l : List (List DotFault)} (hruns : runsQueue s.hw id = true) :
    chunkCommit id i l s = (onRun id i commitRun (s.onHw (strike id l))).onHw (settleExec id i) := by
  simp only [chunkCommit, hruns, if_true]

/-! ### Completion and polls -/

/-- The two writes of a completion record: its bytes from 8 on, and after them, fenced, bytes 0 to 7 (R249). -/
def recordPieces (id : Nat) (e : Exec) : List Piece :=
  let w := fun (off : Nat) (d : List Byte) =>
    ({ dst := some { operand := 7, va := e.compVa + off }, len := d.length, data := d, cursor := e.cursor, uncounted := true
       fence := off == 0 } : Piece)
  [w 8 ((e.record id).drop 8), w 0 ((e.record id).take 8)]

/-- An ended descriptor with no chunk under way begins the writes of its record, where it may write one (R249, R254). -/
theorem completeDesc_of_ended {s : State} {id i : Nat} {e : Exec} (he : KMap.find? ((settleExec id i s.hw).queue id).execs i = some e)
    (hended : e.ended = true) (hruns : runsQueue (settleExec id i s.hw) id = true) (hphase : e.phase ≠ 2)
    (hchunk : e.run.chunk.isSome = false) (hrecord : e.finish ≠ 2 ∧ e.badComp = false) :
    completeDesc id i s =
      let c := { e with phase := 2, run := { committed := e.run.committed, pieces := recordPieces id e } }
      finishRecord id i c (s.onHw fun h => (settleExec id i h).setExec id i c) := by
  obtain ⟨hfinish, hcomp⟩ := hrecord
  have hwrites : (e.finish == 2 || e.badComp) = false := by rw [beq_eq_false_iff_ne.2 hfinish, hcomp, Bool.or_self]
  simp only [completeDesc, State.onHw_hw, he, hended, hruns, bne_iff_ne.2 hphase, hchunk, hwrites, Bool.not_true, Bool.or_self,
    Bool.false_eq_true, if_true, if_false]
  rfl

/-- A DFENCE without a limit whose word did not match reads it again (R272). -/
theorem fencePoll_of_unmatched {s : State} {id i : Nat} {e : Exec} (he : KMap.find? (s.hw.queue id).execs i = some e)
    (hbody : e.type = 11 ∧ e.ended = false ∧ e.phase = 1) (hrun : e.run.stall = 0 ∧ e.run.pieces = []) (hruns : runsQueue s.hw id = true)
    (hwait : e.stage = 2 ∧ e.bits 352 32 = 0) :
    fencePoll id i s = (onRun id i commitRun (onRun id i startRun
      (s.onHw fun h => h.setExec id i (({ e with stage := 1 }).go [{ src := some { operand := 0, va := e.bits 128 64 }, len := 8 }])))).onHw
        (settleExec id i) := by
  obtain ⟨htype, hended, hphase⟩ := hbody
  obtain ⟨hstall, hpieces⟩ := hrun
  obtain ⟨hstage, hlimit⟩ := hwait
  simp only [fencePoll, he, htype, hended, hphase, hstall, hpieces, hruns, hstage, hlimit, bne_self_eq_false, beq_self_eq_true, Bool.not_true,
    Bool.or_self, Bool.and_false, Bool.false_and, Bool.and_self, List.isEmpty_nil, Bool.false_eq_true, if_true, if_false]

/-- A DMERGE within its time reads stamps that have not matched again (R297). -/
theorem stampPoll_of_early {h : Hw} {id i : Nat} {e : Exec} (he : KMap.find? (h.queue id).execs i = some e)
    (hbody : e.type = 5 ∧ e.ended = false ∧ e.phase = 1 ∧ e.stage = 2) (hruns : runsQueue h id = true)
    (hearly : h.time.now < e.since + 10 * (h.queue id).e2e * 1000000) :
    stampPoll id i h = settleExec id i (h.setExec id i { e with stage := 0 }) := by
  obtain ⟨htype, hended, hphase, hstage⟩ := hbody
  simp only [stampPoll, he, htype, hended, hphase, hstage, hruns, Nat.not_le.2 hearly, bne_self_eq_false, Bool.not_true, Bool.or_self,
    Bool.false_eq_true, if_false]

/-- Settles O55: each step of a descriptor has one lemma above (what the array's mistakes and a DATTN's space rest on is in log entries
26 and 27). -/
theorem descriptorsComplete : Obligations.DescriptorsComplete := by
  refine ⟨?fetch, ?absent, ?ahead, ?start, ?chunk, ?commit, ?complete, ?fence, ?stamps⟩
  case fetch =>
    intro s id gs g hk hruns hlive hidle hmore hahead hpermit
    refine (exec_descFetch id s).trans (commit_congr ?_)
    rw [fetch_of_permitted hk hruns hlive hidle hmore hahead hpermit]
  case absent =>
    intro s id i e va acc cause level he hdesc hruns hpage hwalk hstill
    exact commit_congr (preWalk_of_entry he hdesc hruns hpage (congrArg (walkEntry _ va acc) hwalk) hstill)
  case ahead =>
    intro s id i e va acc t he hdesc hruns hpage hwalk hallows hstill
    have hentry : walkEntry (s.hw.queue id).ctx va acc (.ok t) = some t := by simp only [walkEntry, hallows, if_true]
    exact commit_congr (preWalk_of_entry he hdesc hruns hpage ((congrArg (walkEntry _ va acc) hwalk).trans hentry) hstill)
  case start =>
    intro s id i e hnext hturn he hcomp hfields
    exact commit_onHw (startDesc_of_turn hnext hturn he hcomp hfields)
  case chunk =>
    intro s id i e he hstate hruns
    exact commit_congr (chunkStart_of_started he hstate hruns)
  case commit =>
    intro s id i l hruns
    exact commit_congr (chunkCommit_of_runs hruns)
  case complete =>
    intro s id i e he hended hruns hphase hchunk hrecord
    refine (exec_descComplete id i s).trans (commit_congr ?_)
    rw [completeDesc_of_ended he hended hruns hphase hchunk hrecord]
    rfl
  case fence =>
    intro s id i e he hbody hrun hruns hwait
    exact commit_congr (fencePoll_of_unmatched he hbody hrun hruns hwait)
  case stamps =>
    intro s id i e he hbody hruns hearly
    exact commit_onHw (stampPoll_of_early he hbody hruns hearly)

end Sys2Proof.Machine
end

section
/-!
PROOFS. Contributions, segments and instances of collectives, and waiting faults (R69, R309–R327, R688).
-/
namespace Sys2Proof.Machine
open Sys2Proof

/-! ### Contributions (R315, R316) -/

/-- A contribution is taken that comes from a member of the group, belongs to the `Instance` in progress or opens the next, is well formed,
is expected and not counted yet, and whose segment is open or has room (R315). -/
theorem takeColSeg_of_expected {h : Hw} {p : Packet} {g : Group} {i : Instance} {c : ColSeg}
    (hown : p.opcode = 0x50 ∧ isOwn h p.dst = true) (hc : colSegOf p = c)
    (hgroup : (takeInbox h p).coll c.group = g ∧ g.inst.getD {} = i)
    (hserved : KMap.has (takeInbox h p).colls c.group = true ∧ runsFor (takeInbox h p) g.service = true ∧ isDead (takeInbox h p) p.src = false)
    (hmember : KMap.has g.roster c.member = true ∧ (KMap.get g.roster c.member).node = p.src)
    (hepoch : (c.epoch + 65536 - g.last) % 65536 = 1 ∧ i.ended = false)
    (hform : c.segment < g.nseg ∧ c.nelem = g.nelem c.segment ∧ c.bad = false)
    (hlen : p.data.length = 16 + alignUp 4 (payloadBytes g.cfmt (g.nelem c.segment)))
    (hnew : tbit i.excluded c.member = false ∧ tbit i.done c.segment = false ∧ i.counts c.segment c.member = false)
    (hroom : (!KMap.has i.segs c.segment &&
      decide (g.openSegs ≤ (i.segs.filter (fun x => segTile c.group x.1 == segTile c.group c.segment)).length)) = false) :
    takeColSeg p h = acceptSegment (takeInbox h p) c.group c ((p.data.drop 16).take (payloadBytes g.cfmt (g.nelem c.segment))) := by
  obtain ⟨hop, hdst⟩ := hown
  obtain ⟨rfl, rfl⟩ := hgroup
  obtain ⟨hhas, hruns, hlive⟩ := hserved
  obtain ⟨hin, hnode⟩ := hmember
  obtain ⟨hdelta, hended⟩ := hepoch
  obtain ⟨hseg, hnelem, hbad⟩ := hform
  obtain ⟨hexcluded, hdone, hcounted⟩ := hnew
  have hlong (n : Nat) : ¬ 16 + n < 16 := by omega
  simp only [takeColSeg, hop, hdst, hc, hhas, hruns, hlive, hlong, hin, hnode, hdelta, hended, Nat.not_le.2 hseg, hnelem, hbad, hlen,
    hexcluded, hdone, hcounted, hroom, bne_self_eq_false, Bool.not_true, Bool.or_self, Bool.and_false, Bool.false_and, Bool.false_eq_true,
    if_false, Nat.reduceBEq, Nat.reduceLeDiff, decide_false]

/-! ### Segments and instances (R319, R322, R323) -/

/-- A run has performed all its writes: no piece is left, no chunk is under way and no fault holds it. -/
def Run.done (r : Run) : Bool := r.pieces.isEmpty && r.chunk.isNone && r.stall == 0

theorem Run.done_iff {r : Run} : r.done = true ↔ r.pieces = [] ∧ r.chunk.isNone = true ∧ r.stall = 0 := by
  simp [Run.done, and_assoc]

/-- A reduced segment whose writes are performed is done (R319, R320). -/
theorem driveSegment_of_done {s : State} {id k : Nat} {i : Instance} (hi : (s.hw.coll id).inst = some i) (hstage : (i.seg k).stage = 1)
    (hruns : runsFor s.hw (s.hw.coll id).service = true)
    (hdone : (driveRun 4 (collEnv s.hw id (segTile id k)) (i.seg k).run s).1.done = true) :
    driveSegment id k s =
      ((driveRun 4 (collEnv s.hw id (segTile id k)) (i.seg k).run s).2.onHw fun h => h.onInst id fun j =>
        { j with segs := KMap.ins j.segs k { j.seg k with run := (driveRun 4 (collEnv s.hw id (segTile id k)) (i.seg k).run s).1 } }).onHw
          (segmentDone id k) := by
  rw [Run.done] at hdone
  simp only [driveSegment, hi, hstage, hruns, hdone, bne_self_eq_false, Bool.not_true, Bool.or_self, Bool.or_true, Bool.false_eq_true,
    if_true, if_false]

section
variable {s : State} {id : Nat} {i : Instance}

/-- An ended `Instance` without a place for its record is closed (R322). -/
theorem driveInstance_of_unrecorded (hi : (s.hw.coll id).inst = some i) (hended : i.ended = true ∧ i.quiet = true)
    (hruns : runsFor s.hw (s.hw.coll id).service = true) (hva : (s.hw.coll id).compVa = 0) :
    driveInstance id s = s.onHw (finishInstance id (instanceRecord (s.hw.coll id) i id s.hw.time.now)) := by
  obtain ⟨hend, hquiet⟩ := hended
  simp only [driveInstance, hi, hend, hquiet, hruns, hva, beq_self_eq_true, Bool.not_true, Bool.or_self, Bool.false_eq_true, if_true, if_false]

/-- One whose record `b` is begun is closed with it once its writes are performed (R322, R323). -/
theorem driveInstance_of_recorded {b : List Byte} {f : List Bool} (hi : (s.hw.coll id).inst = some i)
    (hended : i.ended = true ∧ i.quiet = true) (hruns : runsFor s.hw (s.hw.coll id).service = true) (hva : (s.hw.coll id).compVa ≠ 0)
    (hgot : i.record.got = [(b, f)]) (hdone : (driveRun 4 (collEnv s.hw id (id % 32)) i.record s).1.done = true)
    (hfailed : (driveRun 4 (collEnv s.hw id (id % 32)) i.record s).1.failed = 0) :
    driveInstance id s = ((driveRun 4 (collEnv s.hw id (id % 32)) i.record s).2.onHw fun h =>
      h.onInst id fun j => { j with record := (driveRun 4 (collEnv s.hw id (id % 32)) i.record s).1 }).onHw (finishInstance id b) := by
  obtain ⟨hend, hquiet⟩ := hended
  rw [Run.done] at hdone
  simp only [driveInstance, hi, hend, hquiet, hruns, beq_eq_false_iff_ne.2 hva, hgot, hdone, hfailed, List.isEmpty_cons, bne_self_eq_false,
    Bool.not_true, Bool.or_self, Bool.false_eq_true, if_true, if_false]

end

/-! ### Missing members (R326, R327) -/

/-- A member with segments missing raises the event; by the policy it is excluded, or asked for the first of them (R326, R327). -/
theorem memberTimeout_of_missing {g : Hw} {id k : Nat} {i : Instance} (hi : (g.coll id).inst = some i) (hended : i.ended = false)
    (hexpected : i.expected.contains k = true) (hmissing : (missingSegs (g.coll id) i k).isEmpty = false)
    (hruns : runsFor g (g.coll id).service = true) :
    memberTimeout id k g =
      let h := raise g (16 * (id % 32) + 8) (id * 256 + k)
      if i.policy = 1 then h.onInst id (excludeMembers (g.coll id) [k])
      else sendNak h (KMap.get i.members k).node id i.epoch k ((missingSegs (g.coll id) i k).headD 0) 1
        (missingSegs (g.coll id) i k).length i.sclass := by
  simp only [memberTimeout, hi, hended, hexpected, hmissing, hruns, Bool.not_true, Bool.or_self, Bool.false_eq_true, if_false, beq_iff_eq]

/-! ### A freed fault slot (R69) -/

/-- With one descriptor that waits to register its fault, and no group, that descriptor alone tries again. -/
theorem slotFreed_of_one {s : State} {t id i : Nat} {q : Queue} {e : Exec} (hone : s.hw.queues = [(id, q)] ∧ s.hw.colls = [])
    (he : q.execs = [(i, e)]) (hstall : e.run.stall = 2) (hcolls : (onRun id i (fun env r x => reregister env r t x) s).hw.colls = []) :
    slotFreed t s = onRun id i (fun env r x => reregister env r t x) s := by
  obtain ⟨hqueues, -⟩ := hone
  simp only [slotFreed, hqueues, he, List.foldl_cons, List.foldl_nil, hstall, beq_self_eq_true, if_true, hcolls]

/-- Settles O57: each step of a collective has one lemma above. -/
theorem collectivesComplete : Obligations.CollectivesComplete := by
  refine ⟨?contribution, ?segment, ?unrecorded, ?recorded, ?excluded, ?asked, ?oneWaits, ?slotFreed⟩
  case contribution =>
    intro s p g i c hown hc hgroup hserved hmember hepoch hform hlen hnew hroom
    refine (exec_colSeg p s).trans (commit_congr ?_)
    exact congrArg (fun g => { s with hw := g }) (takeColSeg_of_expected hown hc hgroup hserved hmember hepoch hform hlen hnew hroom)
  case segment =>
    intro s id k i hi hstage hruns hdone
    exact commit_congr (driveSegment_of_done hi hstage hruns (Run.done_iff.2 hdone))
  case unrecorded =>
    intro s id i hi hended hruns hva
    exact commit_congr (driveInstance_of_unrecorded hi hended hruns hva)
  case recorded =>
    intro s id i b f hi hended hruns hva hgot hdone
    obtain ⟨hpieces, hchunk, hstall, hfailed⟩ := hdone
    exact commit_congr (driveInstance_of_recorded hi hended hruns hva hgot (Run.done_iff.2 ⟨hpieces, hchunk, hstall⟩) hfailed)
  case excluded =>
    intro s id k i hi hended hexpected hmissing hruns hpolicy
    exact commit_onHw ((memberTimeout_of_missing hi hended hexpected hmissing hruns).trans (if_pos hpolicy))
  case asked =>
    intro s id k i hi hended hexpected hmissing hruns hpolicy
    exact commit_onHw ((memberTimeout_of_missing hi hended hexpected hmissing hruns).trans (if_neg (by omega)))
  case oneWaits =>
    intro s t id i q e hone he hstall hcolls
    exact commit_congr (slotFreed_of_one hone he hstall hcolls)
  case slotFreed =>
    intro s t
    exact exec_faultSlotFreed t s

end Sys2Proof.Machine
end

section
/-!
PROOFS. Pool memory stays in its canonical form (R81, R354), and what an access list grants (R89).
-/
namespace Sys2Proof.Machine
open Sys2Proof

/-- The idle cycle counts fabric time and nothing else. -/
theorem idle_keeps (s : State) : Keeps s (idle s) := .ite (.setHw (.refl s)) (.refl s)

/-- One step keeps pool memory canonical: the idle cycle spares it, and a command keeps it whatever the queue's rest. -/
theorem step_keeps_poolCanonical {s t : State} (hs : PoolCanonical s) (h : step s = .next t) : PoolCanonical t := by
  cases hq : s.pending with
  | nil =>
    have hidle : step s = .next (idle s) := by simp only [step, hq]
    obtain rfl : idle s = t := Host.Outcome.next.inj (hidle.symm.trans h)
    obtain ⟨-, hcanon⟩ := idle_keeps s
    exact hcanon hs
  | cons c rest =>
    obtain ⟨-, hcanon⟩ := exec_keeps ((step_cons hq).symm.trans h)
    exact hcanon hs

/-- Settles O6: `step_keeps_poolCanonical`, which rests on the laws of every operation that writes the pool. -/
theorem stepsKeepMemoryCanonical : Obligations.StepsKeepMemoryCanonical := by
  intro s t hs h
  exact step_keeps_poolCanonical hs h

/-- Settles O5: after reset no byte is listed (log entry 5). -/
theorem resetMemoryIsCanonical : Obligations.ResetMemoryIsCanonical := by
  have hempty : State.reset.pool.mem = [] := rfl
  rw [Obligations.ResetMemoryIsCanonical, PoolCanonical, hempty]
  rfl

/-! ### Rights (R89) -/

section
variable {h : Hw} {r : Region} {n : Nat} {need : Right}

/-- An entry names a node directly by its ID, or through the group that the node is in. -/
theorem names_iff {e : AclEntry} :
    e.names h n = true ↔ (e.group = false ∧ e.id = n) ∨ (e.group = true ∧ inGroup h e.id n = true) := by
  cases hg : e.group <;> simp [AclEntry.names, hg]

/-- A right is granted by some entry that names the node. -/
theorem hasRight_iff (hneed : need ≠ .none) :
    hasRight h r n need = true ↔ ∃ e ∈ r.acl, e.names h n = true ∧ e.grants need = true := by
  cases need with
  | none => exact absurd rfl hneed
  | read | write | atomic => simp only [hasRight, List.any_eq_true, Bool.and_eq_true]

/-- A node that no entry names has no right. -/
theorem hasRight_of_unnamed (hneed : need ≠ .none) (hnone : ∀ e ∈ r.acl, e.names h n = false) : hasRight h r n need = false := by
  refine Bool.eq_false_iff.2 fun hright => ?_
  obtain ⟨e, he, hnames, -⟩ := (hasRight_iff hneed).1 hright
  exact absurd hnames (by simp [hnone e he])

end

/-- Settles O14: `hasRight_iff` for each right, of which `AclEntry.grants` reads one bit. -/
theorem rightsAreTheOrOfEntries : Obligations.RightsAreTheOrOfEntries := by
  intro h r n
  refine ⟨fun e => names_iff, hasRight_iff nofun, hasRight_iff nofun, hasRight_iff nofun, fun hnone => ?unnamed⟩
  exact ⟨hasRight_of_unnamed nofun hnone, hasRight_of_unnamed nofun hnone, hasRight_of_unnamed nofun hnone⟩

end Sys2Proof.Machine
end

section
/-!
PROOFS. Regions and agents: the commands of chapter 03 and the ends of what they begin (R85–R105).
-/
namespace Sys2Proof.Machine
open Sys2Proof

section
variable {q : Req} {h : Hw}

/-! ### REGION.CREATE (R95) -/

/-- A region that is not SNAPSHOT has no slot, so its entry is all that is made. -/
theorem makeRegion_of_unversioned {id base service : Nat} {l : List AclEntry} (hkind : q.p 1 ≠ 3) :
    makeRegion h id base service q l = h.setRegion id (withAcl h
      { state := 1, kind := q.p 1, mirrored := q.p 2 == 1, base := base, granules := q.p 4, reserve := q.p 5, tag := q.p 6, time := h.time.now
        generation := ((h.region id).generation + 1) % 2 ^ 32, service := service } l) := by
  simp [makeRegion, hkind]

/-- REGION.CREATE of a COHERENT or NONCOHERENT region that is not mirrored and whose base the module chooses: it lies in the lowest free run. -/
theorem regionCreate_of_room {l : List AclEntry} {v b : Nat} (hopen : poolOpen h = true) (hacl : parseAcl (q.p 7) (q.p 8) = (0, l))
    (hform : q.p 2 = 0 ∧ q.p 3 = 0x3FFFF ∧ q.p 5 = 0) (hn : 0 < q.p 4 ∧ q.p 4 ≤ systemBase) (hkind : q.p 1 ≤ 1)
    (hfree : q.p 0 ≠ 0 ∧ (h.region (q.p 0)).state = 0) (hv : createService h = some v) (hb : lowestRun h (q.p 4) [1, 2, 3] = some b) :
    regionCreate q h =
      let g := makeRegion h (q.p 0) b v q l
      (g, some (Reply.ok (items [.f 16 (q.p 0), .f 18 b, .f 32 (g.region (q.p 0)).generation]))) := by
  obtain ⟨hmirr, hbase, hres⟩ := hform
  obtain ⟨hpos, hmax⟩ := hn
  obtain ⟨hid, hstate⟩ := hfree
  have hprivate : q.p 1 ≠ 2 := by omega
  have hsnap : q.p 1 ≠ 3 := by omega
  simp [regionCreate, hopen, hacl, hmirr, hbase, hres, Nat.ne_of_gt hpos, Nat.not_lt.2 hmax, hprivate, hsnap, hid, hstate, hv, hb]

/-! ### Access lists, groups and release (R96–R99, R102) -/

/-- A new list that R97 allows begins a change of rights. -/
theorem applyAcl_of_allowed {op id : Nat} {l : List AclEntry} (hactive : id ≠ 0 ∧ (h.region id).state = 1)
    (hkind : (h.region id).kind ≠ 2) (hl : l ≠ [] ∧ l.length ≤ 64) :
    applyAcl q op id l h = (beginChange h (h.setRegion id (withAcl h (h.region id) l)) q.m op 0 [id], none) := by
  obtain ⟨hid, hstate⟩ := hactive
  obtain ⟨hsome, hmax⟩ := hl
  simp [applyAcl, hid, hstate, hkind, hsome, Nat.not_lt.2 hmax]

theorem aclSet_of_parsed {l : List AclEntry} (hacl : parseAcl (q.p 1) (q.p 2) = (0, l)) : aclSet q h = applyAcl q 0x304 (q.p 0) l h := by
  simp [aclSet, hacl]

theorem aclAdd_of_parsed {l : List AclEntry} (hacl : parseEntries (arrayWords (q.p 1) (q.p 2)) (q.p 1) = (0, l)) :
    aclAdd q h = applyAcl q 0x305 (q.p 0) (l.foldl addEntry (h.region (q.p 0)).acl) h := by
  simp [aclAdd, hacl]

/-- REMOVE takes entries without rights bits alone (log entry 25). -/
theorem aclRemove_of_parsed {l : List AclEntry} (hacl : parseEntries (arrayWords (q.p 1) (q.p 2)) (q.p 1) = (0, l))
    (hbits : l.any (fun e => e.r || e.w || e.atomic) = false) :
    aclRemove q h =
      applyAcl q 0x306 (q.p 0) ((h.region (q.p 0)).acl.filter (fun e => !l.any (fun d => d.id == e.id && d.group == e.group))) h := by
  simp only [aclRemove, hacl, hbits, bne_self_eq_false, Bool.false_eq_true, if_false]

/-- REGION.RELEASE of a region without bindings that no context or queue names: it is REVOKING and grants nothing (R102). -/
theorem regionRelease_of_unnamed (hactive : q.p 0 ≠ 0 ∧ (h.region (q.p 0)).state = 1) (hkind : (h.region (q.p 0)).kind ≠ 3)
    (hnamed : regionNamed h (q.p 0) = false) :
    regionRelease q h =
      (beginChange h (h.setRegion (q.p 0) { h.region (q.p 0) with state := 2, acl := [] }) q.m 0x302 1 [q.p 0], none) := by
  obtain ⟨hid, hstate⟩ := hactive
  simp [regionRelease, hid, hstate, hkind, hnamed]

/-- AGENT.MGMT.SET from the host or a listed node (R92); a node ID that stands twice is kept once (log entry 25). -/
theorem mgmtSet_of_permitted {ws : List Nat} (hws : arrayWords 16 (q.p 1) = ws)
    (hmay : ∀ n, q.ringer = some n → h.sys.mgmt.contains n = true) (hn : q.p 0 ≤ 16)
    (hids : (ws.take (q.p 0)).any (fun w => decide (4096 ≤ w)) = false) (hrest : (ws.drop (q.p 0)).any (fun w => w != 0) = false) :
    mgmtSet q h = ({ h with sys := { h.sys with mgmt := (ws.take (q.p 0)).eraseDups } }, some Reply.ok) := by
  cases hr : q.ringer with
  | none => simp only [mgmtSet, hws, hr, Nat.not_lt.2 hn, hids, hrest, Bool.or_self, Bool.false_eq_true, if_false]
  | some n => simp only [mgmtSet, hws, hr, hmay n hr, Nat.not_lt.2 hn, hids, hrest, Bool.not_true, Bool.or_self, Bool.false_eq_true, if_false]

/-- The ringer of a mailbox's request may set the list if it is the host or stands on it. -/
theorem ringer_listed {s : State} {m n : Nat} {vals : List Nat}
    (hmay : (s.hw.mailbox m).pcie = true ∨ s.hw.sys.mgmt.contains (s.hw.mailbox m).ringer = true)
    (hr : (theRequest s m vals).ringer = some n) : s.hw.sys.mgmt.contains n = true := by
  rw [theRequest] at hr
  cases hp : (s.hw.mailbox m).pcie with
  | true => simp [hp] at hr
  | false =>
    obtain rfl : (s.hw.mailbox m).ringer = n := by simpa [hp] using hr
    exact hmay.resolve_left (by simp [hp])

/-! ### Drains, scans and wipes (R99–R105) -/

/-- A released region whose drain and recall have ended is WIPING, and the command answers (R100, R103). -/
theorem drainEnd_of_released {m : Nat} {c : Change} (hc : h.changes.find? (fun x => x.mailbox == m && x.kind != 2) = some c)
    (hended : drains h c = false ∧ recalls h c = false ∧ partnerBehind h c.regions = false) (hkind : c.kind = 1)
    (hanswers : c.answers = true) :
    drainEnd m h = answer (forAll c.regions beginWipe { h with changes := h.changes.filter (fun d => d.serial != c.serial) }) m Reply.ok := by
  obtain ⟨hdrained, hrecalled, htaken⟩ := hended
  simp only [drainEnd, hc, hdrained, hrecalled, htaken, hkind, hanswers, beq_self_eq_true, Bool.or_self, Bool.false_eq_true, if_true, if_false]

/-- A slice's scan for a dead agent buries it in every entry (R105). -/
theorem scanEnd_of_dead {s : State} {t m : Nat} {c : Change} (hc : s.hw.changes.find? (fun x => x.mailbox == m) = some c)
    (hkind : c.kind = 2) :
    scanEnd t m s = ((s.hw.dir t).entries.foldl (fun s p => buryHolder c.node t p.1 p.2 s) s).onHw fun h =>
      { h with changes := h.changes.map fun d => if d.serial == c.serial then { d with scanned := Nat.lor d.scanned (2 ^ t) } else d } := by
  simp only [scanEnd, hc, hkind, beq_self_eq_true, if_true]

/-- A wiped region that is not mirrored is FREE at once (R103). -/
theorem wipeDone_of_unmirrored {s : State} {id : Nat} (hstate : (s.hw.region id).state = 3) (hmirr : (s.hw.region id).mirrored = false) :
    wipeDone id s =
      (s.onPool fun p => p.wipe ((s.hw.region id).base * 2097152) (((s.hw.region id).base + (s.hw.region id).extent) * 2097152)).onHw
        fun h => freeRegion (endWipe h id (h.region id).base ((h.region id).base + (h.region id).extent)) id := by
  simp only [wipeDone, hstate, hmirr, State.onHw, State.onPool, bne_self_eq_false, Bool.and_false, Bool.false_eq_true, if_false]

/-- A dead agent that every slice has scanned for, and that holds and awaits no line, is done with (R105). -/
theorem deadDone_of_buried {n : Nat} {c : Change} (hc : h.changes.find? (fun x => x.kind == 2 && x.node == n) = some c)
    (hscanned : c.scanned = 2 ^ 32 - 1) (hheld : (h.dirs.any fun p => p.2.entries.any fun e => !e.2.vector && e.2.ptrs.contains n) = false)
    (hopen : stillOpen h n c.serial = false) (hanswers : c.answers = true) :
    deadDone n h =
      raise (answer { h with changes := h.changes.filter (fun d => d.serial != c.serial) } c.mailbox Reply.ok) 0x312 n := by
  simp only [deadDone, hc, hscanned, hheld, hopen, hanswers, bne_self_eq_false, Bool.or_self, Bool.false_eq_true, if_true, if_false]

end

/-- Settles O47: each command and each end has one lemma above for the form that the statement gives. -/
theorem regionsAndAgentsComplete : Obligations.RegionsAndAgentsComplete := by
  refine ⟨?create, ?query, ?set, ?add, ?remove, ?release, ?group, ?mgmt, ?dead, ?revive, ?drained, ?scanned, ?wiped, ?buried⟩
  case create =>
    intro s m id kind n tag cnt acl b v l ha hopen hacl hn hkind hfree hv hb
    let q := theRequest s m [id, kind, 0, 0x3FFFF, n, 0, tag, cnt, acl]
    have hunversioned : q.p 1 ≠ 3 := Nat.ne_of_lt (Nat.lt_of_le_of_lt hkind (by decide))
    have hcreate := regionCreate_of_room (q := q) hopen hacl ⟨rfl, rfl, rfl⟩ hn hkind hfree hv hb
    rw [makeRegion_of_unversioned hunversioned] at hcreate
    refine (exec_regionCreate m s).trans (commit_congr ?_)
    rw [runHw_served (fun _ => _) ha hcreate]
    simp only [served, State.onHw]
    rfl
  case query =>
    intro s m id ha
    exact congrArg Host.Outcome.next (runHw_served (fun h => h) ha rfl)
  case set =>
    intro s m id cnt acl l ha hacl hactive hkind hl
    refine (exec_regionAclSet m s).trans (commit_congr ?_)
    exact runHw_unanswered ha ((aclSet_of_parsed (q := theRequest s m [id, cnt, acl]) hacl).trans (applyAcl_of_allowed hactive hkind hl))
  case add =>
    intro s m id cnt ws l ha hacl hactive hkind hl
    refine (exec_regionAclAdd m s).trans (commit_congr ?_)
    exact runHw_unanswered ha ((aclAdd_of_parsed (q := theRequest s m [id, cnt, ws]) hacl).trans (applyAcl_of_allowed hactive hkind hl))
  case remove =>
    rintro s m id cnt ws l _ ha hacl hactive hkind hbits rfl hk
    refine (exec_regionAclRemove m s).trans (commit_congr ?_)
    exact runHw_unanswered ha ((aclRemove_of_parsed (q := theRequest s m [id, cnt, ws]) hacl hbits).trans (applyAcl_of_allowed hactive hkind hk))
  case release =>
    intro s m id ha hactive hkind hnamed
    refine (exec_regionRelease m s).trans (commit_congr ?_)
    exact runHw_unanswered ha (regionRelease_of_unnamed hactive hkind hnamed)
  case group =>
    intro s m k v ha
    exact (exec_agentGroupSet m s).trans (commit_congr (runHw_unanswered ha rfl))
  case mgmt =>
    intro s m n v ws ha hws hmay hn hids hrest
    refine (exec_agentMgmtSet m s).trans (commit_congr ?_)
    exact runHw_served _ ha (mgmtSet_of_permitted hws (fun _ => ringer_listed hmay) hn hids hrest)
  case dead =>
    intro s m n ha
    exact (exec_agentDead m s).trans (commit_congr (runHw_unanswered ha rfl))
  case revive =>
    intro s m n ha
    exact (exec_agentRevive m s).trans (commit_congr (runHw_served _ ha rfl))
  case drained =>
    intro s m c hc hdrained hrecalled htaken hkind hanswers
    exact commit_onHw (drainEnd_of_released hc ⟨hdrained, hrecalled, htaken⟩ hkind hanswers)
  case scanned =>
    intro s t m c hc hkind
    exact commit_congr (scanEnd_of_dead hc hkind)
  case wiped =>
    intro s id hstate hmirr
    exact commit_congr (wipeDone_of_unmirrored hstate hmirr)
  case buried =>
    intro s n c hc hscanned hheld hopen hanswers
    exact commit_onHw (deadDone_of_buried hc hscanned hheld hopen hanswers)

end Sys2Proof.Machine
end

section
/-!
PROOFS. Answers to a tile's requests to other nodes, RETRY and the end-to-end timeout (R120, R251, R429).
-/
namespace Sys2Proof.Machine
open Sys2Proof

section
variable {h : Hw} {p : Packet} {o : Out}

/-- A well-formed message for this module that answers the request `o` leaves the inbox and takes effect on it. -/
theorem tileMessage_of_awaited {op : Nat} {bad : Bool} {reqs : List Nat} (f : Out → Hw → Hw) (hp : p.opcode = op ∧ isOwn h p.dst = true)
    (hbad : bad = false) (ho : outFor (takeInbox h p) p reqs = some o) : tileMessage op bad reqs p f h = f o (takeInbox h p) := by
  obtain ⟨rfl, hown⟩ := hp
  simp only [tileMessage, hown, hbad, ho, bne_self_eq_false, Bool.not_true, Bool.or_self, Bool.false_eq_true, if_false]

/-- The answer to a request that is no notification is kept for the tile (R251). -/
theorem takeAnswer_of_unnotified {tid : Nat} {a : Answer} (hn : o.notify = none) :
    takeAnswer h tid o a = { h with outs := KMap.erase h.outs tid, answers := KMap.ins h.answers o.serial a } := by
  simp only [takeAnswer, hn]

/-- So an answer of the form `a` answers the request. -/
theorem tileMessage_answers {op : Nat} {bad : Bool} {reqs : List Nat} {a : Answer} (hp : p.opcode = op ∧ isOwn h p.dst = true)
    (hbad : bad = false) (ho : outFor (takeInbox h p) p reqs = some o) (hn : o.notify = none) :
    tileMessage op bad reqs p (fun o h => takeAnswer h p.tid o a) h = answered h p o a :=
  (tileMessage_of_awaited _ hp hbad ho).trans (takeAnswer_of_unnotified hn)

/-- A request answered RETRY is sent again (R120). -/
theorem reissue_of_retry {tid : Nat} (ho : KMap.find? h.outs tid = some o) (hr : o.retry = true) :
    reissue tid h = send { h with outs := KMap.ins h.outs tid { o with retry := false } } o.packet := by
  simp only [reissue, ho, hr, if_true]

/-- A request that timed out and was reissued fewer than three times is sent again, and counted (R251). -/
theorem e2eTimeout_of_early {tid : Nat} (ho : KMap.find? h.outs tid = some o) (ht : o.tries < 3) :
    e2eTimeout tid h =
      send (queueCount { h with outs := KMap.ins h.outs tid { o with tries := o.tries + 1, retry := false } } o.queue 14) o.packet := by
  simp only [e2eTimeout, ho, ht, if_true]

/-- After three reissues it has the answer TIMEOUT (R251). -/
theorem e2eTimeout_of_last {tid : Nat} (ho : KMap.find? h.outs tid = some o) (ht : 3 ≤ o.tries) :
    e2eTimeout tid h = takeAnswer h tid o { status := stTimeout } := by
  simp only [e2eTimeout, ho, Nat.not_lt.2 ht, if_false]

end

/-- Settles O53: the five answers are messages for a tile (`tileMessage_of_awaited`), each with its own check of its form. -/
theorem tileAnswersComplete : Obligations.TileAnswersComplete := by
  refine ⟨?brdData, ?bdone, ?atomicRet, ?deny, ?retry, ?reissue, ?again, ?timedOut⟩
  case brdData =>
    intro s p o hop hown hbad hst hlen ho hn
    refine commit_onHw ((tileMessage_answers ⟨hop, hown⟩ ?_ ho hn).trans ?_)
    · simp [hbad, hst, hlen]
    · rw [hst]
  case bdone =>
    intro s p o hop hown hbad hlen ho hn
    exact commit_onHw (tileMessage_answers ⟨hop, hown⟩ (by simp [hbad, hlen]) ho hn)
  case atomicRet =>
    intro s p o hop hown hlen hfield ho hn
    exact commit_onHw (tileMessage_answers ⟨hop, hown⟩ (by simp [hlen, hfield]) ho hn)
  case deny =>
    intro s p o hop hown hlen ho hn
    exact commit_onHw (tileMessage_answers ⟨hop, hown⟩ (by simp [hlen]) ho hn)
  case retry =>
    intro s p o hop hown hlen ho
    exact commit_onHw (tileMessage_of_awaited _ ⟨hop, hown⟩ (by simp [hlen]) ho)
  case reissue =>
    intro s k o ho hr
    exact commit_onHw (reissue_of_retry ho hr)
  case again =>
    intro s k o ho ht
    exact commit_onHw (e2eTimeout_of_early ho ht)
  case timedOut =>
    intro s k o ho ht
    exact commit_onHw (e2eTimeout_of_last ho ht)

end Sys2Proof.Machine
end

section
/-!
PROOFS. A request for a line in no agent's hands, and an admitted BULK access (R121, R122, R429).
-/
namespace Sys2Proof.Machine
open Sys2Proof

section
variable {s : State} {t k : Nat} {r : LineReq} {g : Hw}

/-- A line in U, free of a transaction and of a rebuild, goes to the service from U (R121). -/
theorem startLine_of_untracked (htxn : (s.hw.dir t).txnOf (r.loc / 128) = none) (hbroken : (s.hw.dir t).broken.contains (r.loc / 128) = false)
    (hentry : KMap.find? (s.hw.dir t).entries (r.loc / 128) = none) : startLine s t r = serveU s t r none := by
  simp only [startLine, htxn, hbroken, hentry, Option.isSome_none, Bool.or_self, Bool.false_eq_true, if_false]

/-- From U with a way and a slot free, a read for sharing is granted E, and one for ownership M (R121). -/
theorem serveU_of_free (hop : r.opcode = 1 ∨ r.opcode = 2 ∨ r.opcode = 3) (hway : wayFree (s.hw.dir t) (r.loc / 128) = true)
    (hslot : takeSlot s.hw t none (txnFor r 6) = some (k, g)) :
    serveU s t r none =
      (grantLine { s with hw := g } t r k (if r.opcode == 1 then 0x31 else 0x32) { owned := true, ptrs := [r.requester] }, true) := by
  have hgrant : (r.opcode == 1 || r.opcode == 2 || r.opcode == 3) = true := by simpa [or_assoc] using hop
  simp only [serveU, hgrant, hway, hslot, Bool.not_true, Bool.false_eq_true, if_true, if_false]

/-- With no request held before it, one that is served uses up a reservation of its own (R124, R128). -/
theorem coherentRequest_of_served {p : Packet} {u : State} (hover : (s.hw.dir t).overflow = []) (hu : serveMessage s t r p = (u, true)) :
    coherentRequest s t r p = u.onHw fun h =>
      h.modDir t fun d => { d with reserved := if d.reserved == some (p.src, p.tid) then none else d.reserved } := by
  simp only [coherentRequest, hover, hu, List.any_nil, Bool.false_eq_true, if_false]

/-- So RD_SHARED, RD_OWN or UPGRADE of a line in U, with a way and a slot free, opens a transaction and is granted (R122). -/
theorem coherentRequest_of_untracked {p : Packet} {region n loc : Nat} (hop : p.opcode = 1 ∨ p.opcode = 2 ∨ p.opcode = 3)
    (hover : (s.hw.dir t).overflow = []) (htxn : (s.hw.dir t).txnOf (loc / 128) = none)
    (hbroken : (s.hw.dir t).broken.contains (loc / 128) = false) (hentry : KMap.find? (s.hw.dir t).entries (loc / 128) = none)
    (hway : wayFree (s.hw.dir t) (loc / 128) = true) (hslot : takeSlot s.hw t none (txnFor (messageReq region n loc p) 6) = some (k, g)) :
    coherentRequest s t (messageReq region n loc p) p =
      (grantLine { s with hw := g } t (messageReq region n loc p) k (if p.opcode == 1 then 0x31 else 0x32)
        { owned := true, ptrs := [p.src] }).onHw fun h =>
          h.modDir t fun d => { d with reserved := if d.reserved == some (p.src, p.tid) then none else d.reserved } := by
  have hrequest : (p.opcode == 8) = false := beq_false_of_ne (by omega)
  refine coherentRequest_of_served hover ?_
  rw [serveMessage, hrequest]
  exact (startLine_of_untracked htxn hbroken hentry).trans (serveU_of_free hop hway hslot)

end

/-- An admitted BRD or BWR begins at its home, where its bytes lie (R429). -/
theorem bulkArrives_of_admitted {s : State} {op : Nat} {p : Packet} {region kind loc slot shard : Nat} {h : Hw}
    (ha : Admitted badBulk s op p region kind loc slot shard h) :
    bulkArrives op p s = bulkBegins (homeTile p) p region kind slot loc false { s with hw := h } := by
  obtain ⟨rfl, hown, hbad, haddr, hdead, hheld, hnew, hroom, hloc⟩ := ha
  simp only [taken, homeTile, Option.isNone_iff_eq_none] at haddr hdead hheld hnew hroom hloc
  unfold bulkArrives
  simp only [hown, hbad, haddr, hdead, hheld, hnew, hroom, hloc, bne_self_eq_false, Bool.not_true, Bool.or_self,
    Bool.false_eq_true, if_false]
  rfl

/-- Settles O49: an admitted request finds its line in U (`coherentRequest_of_untracked`), and a BULK access begins (`bulkArrives_of_admitted`). -/
theorem grantsAndBulkComplete : Obligations.GrantsAndBulkComplete := by
  refine ⟨?rdShared, ?rdOwn, ?upgrade, ?brd, ?bwr⟩
  case rdShared | rdOwn | upgrade =>
    intro s p region kind loc slot shard h k g ha hkind hover htxn hbroken hentry hway hslot
    have ⟨hop, _⟩ := ha
    have hgrant := coherentRequest_of_untracked (by simp [hop]) hover htxn hbroken hentry hway hslot
    rw [hop] at hgrant
    exact commit_congr ((requestArrives_of_admitted ha).trans ((if_pos (by simp [hkind])).trans hgrant))
  case brd | bwr =>
    intro s p region kind loc slot shard h ha
    have ⟨hop, _⟩ := ha
    refine commit_congr ((bulkArrives_of_admitted ha).trans ?_)
    simp only [bulkBegins, hop]
    rfl

end Sys2Proof.Machine
end

section
/-!
PROOFS. Answers that an open transaction awaits, and waits that reach HOME_TIMEOUT (R122, R123, R125, R133, R140).
-/
namespace Sys2Proof.Machine
open Sys2Proof

section
variable {s : State} {p : Packet} {t k : Nat} {x : Txn}

/-! ### Snoop answers (R122) -/

/-- A sharer's SNPRSP_I in TS, with others still awaited. -/
theorem takeSnprspI_of_sharer (hm : matched s.hw p = some (t, k, x)) (hstate : x.state = 3) (hwaits : x.waits.contains p.src = true)
    (hrest : (x.waits.filter (fun n => n != p.src)).isEmpty = false) :
    takeSnprspI p s = s.onHw fun h => h.modTxn t k fun y => { y with waits := x.waits.filter (fun n => n != p.src) } := by
  simp only [takeSnprspI, hm, hstate, hwaits, sharerAnswer, hrest, beq_self_eq_true, Bool.and_self, Bool.false_eq_true, if_true, if_false]

/-- The owner's SNPRSP_I in TF. -/
theorem takeSnprspI_of_owner (hm : matched s.hw p = some (t, k, x)) (hstate : x.state = 4) (howner : x.owner = p.src) :
    takeSnprspI p s = ownerGone s t k x := by
  simp [takeSnprspI, hm, hstate, howner]

/-- The owner has sent its copy to the requester of an RD_SHARED: both are sharers, and the transaction awaits CMP_ACK. -/
theorem takeSnprspFwd_of_shared {q : Packet} (hm : matched s.hw p = some (t, k, x)) (hstate : x.state = 4) (howner : x.owner = p.src)
    (hsnoop : x.snoop = 0x10) (hserves : x.serves = .message q) (hop : x.opcode = 1) :
    takeSnprspFwd p s = s.onHw fun h =>
      (putEntry h t x.line (({ ptrs := [x.owner] } : DirEntry).addSharer x.requester)).modTxn t k fun y => { y with state := 6 } := by
  simp [takeSnprspFwd, hm, hstate, howner, hsnoop, hserves, forwardTaken, hop]

/-- SNPRSP_WBIF ahead of its WB_DATA: the transaction is in TW. -/
theorem takeSnprspWbif_of_owner (hm : matched s.hw p = some (t, k, x)) (hstate : x.state = 4) (howner : x.owner = p.src)
    (hdata : x.data = false) : takeSnprspWbif p s = s.onHw fun h => h.modTxn t k fun y => { y with state := 5 } := by
  simp [takeSnprspWbif, hm, hstate, howner, hdata]

/-- DATA_ONCE for a BULK read, ahead of its SNPRSP_FWD, is kept (R429). -/
theorem takeDataOnce_of_unanswered {id : Nat} (hm : matched s.hw p = some (t, k, x)) (hstate : x.state = 4) (howner : x.owner = p.src)
    (hsnoop : x.snoop = 0x14) (hserves : x.serves = .bulk id) (hanswered : x.answered = false) :
    takeDataOnce p s = s.onHw fun h => h.modTxn t k fun y => { y with forwarded := some (Packet.body p, Packet.poisonBit p) } := by
  simp [takeDataOnce, hm, hstate, howner, hsnoop, hserves, hanswered]

/-- SNP_DATA of an owner that keeps no copy: the data are stored. -/
theorem takeSnpData_of_invalid (hm : matched s.hw p = some (t, k, x)) (hstate : x.state = 4) (howner : x.owner = p.src)
    (hkept : Packet.agentState p = 0) : takeSnpData p s = ownerGone (storeLine s x.region (x.line * 128) p) t k x := by
  simp [takeSnpData, hm, hstate, howner, hkept]

/-- CMP_ACK of the requester in TA. -/
theorem takeCmpAck_of_requester (hm : matched s.hw p = some (t, k, x)) (hstate : x.state = 6) (hreq : x.requester = p.src) :
    takeCmpAck p s = endGrant s t k x 2 := by
  simp [takeCmpAck, hm, hstate, hreq]

/-! ### Probe answers (R140) -/

/-- What PROBE_RSP `p` tells the transaction: one node fewer is awaited, its copy is noted, and whether the requester's request, which has the
transaction's TID, is open (log entry 24). -/
def Txn.probed (x : Txn) (p : Packet) : Txn :=
  { x with
    waits := x.waits.filter (fun n => n != p.src)
    found := if Packet.agentState p == 0 then x.found else x.found ++ [(p.src, Packet.agentState p)]
    reopened := x.reopened || (p.src == x.requester && Packet.openBit p && Packet.cf p 112 16 == x.tid) }

theorem takeProbeRsp_of_awaited (hm : matched s.hw p = some (t, k, x)) (hstate : x.state = 7) (hwaits : x.waits.contains p.src = true) :
    takeProbeRsp p s =
      let u := s.onHw fun h => h.modTxn t k fun _ => x.probed p
      if probesIn (x.probed p) then rebuildLine u t k (x.probed p) false else u := by
  have hawaited : (x.state == 7 && x.waits.contains p.src) = true := by rw [hstate, hwaits]; rfl
  simp only [takeProbeRsp, hm, hawaited, if_true]
  rfl

/-- While a node is awaited, the probes are not all in. -/
theorem probesIn_of_waiting (hwaits : x.waits.isEmpty = false) : probesIn x = false := by
  simp only [probesIn, hwaits, Bool.false_and]

/-- The only node awaited reports a copy. -/
theorem probed_of_last (hwaits : x.waits = [p.src]) (hfound : x.found = []) (hcopy : Packet.agentState p ≠ 0) :
    x.probed p = { x with
      waits := [], found := [(p.src, Packet.agentState p)]
      reopened := x.reopened || (p.src == x.requester && Packet.openBit p && Packet.cf p 112 16 == x.tid) } := by
  simp [Txn.probed, hwaits, hfound, hcopy]

/-- The probes are in with the report of the only holder, if it owns the line: in E, or in M with its copy come. -/
theorem probesIn_of_owner {n st : Nat} {d : Packet} (hwaits : x.waits = []) (hfound : x.found = [(n, st)])
    (hcopy : st = 2 ∨ st = 3 ∧ x.copied = [(n, d)]) : probesIn x = true := by
  obtain rfl | ⟨rfl, hcopied⟩ := hcopy
  · simp [probesIn, hwaits, hfound]
  · simp [probesIn, probedCopy, hwaits, hfound, hcopied]

/-- PROBE_DATA of a node that has yet to report is kept. -/
theorem takeProbeData_of_awaited (hm : matched s.hw p = some (t, k, x)) (hstate : x.state = 7) (hwaits : x.waits.contains p.src = true) :
    takeProbeData p s = s.onHw fun h => h.modTxn t k fun _ => { x with copied := x.copied ++ [(p.src, p)] } := by
  have hsome : x.waits.isEmpty = false := by
    cases hl : x.waits with
    | nil => simp [hl] at hwaits
    | cons n l => rfl
  have hin : probesIn { x with copied := x.copied ++ [(p.src, p)] } = false := probesIn_of_waiting hsome
  have hawaited : (x.state == 7 && (x.waits.contains p.src || x.found.any (fun f => f.1 == p.src))) = true := by rw [hstate, hwaits]; rfl
  simp only [takeProbeData, hm, hawaited, hin, Bool.false_eq_true, if_true, if_false]

/-! ### Write-backs (R123) -/

theorem txnOf_emit (h : Hw) (v : Nat) (i : MirrorItem) (t line : Nat) : ((emit h v i).dir t).txnOf line = (h.dir t).txnOf line := by
  rw [emit_frame]
  rfl

/-- WB_DATA is noted for the transaction of its line that awaits it, and taken; rebuilds that waited for a slot go on. -/
theorem answerArrives_of_writeBack (f : State → State) (hop : p.opcode = 0x34) (hown : isOwn s.hw p.dst = true) (hbad : badAnswer p = false)
    (hcoh : coherentAddr (taken s p).hw p = true) (htxn : ((taken s p).hw.dir (homeTile p)).txnOf (homeLine p) = some (k, x))
    (hawaits : awaitsWriteBack x p.src = true) :
    answerArrives 0x34 p f s = retryRebuilds (homeTile p) (f (noted s p (homeTile p) k)) := by
  have hfor : takenFor (taken s p).hw p = some (homeTile p, k) := by
    simp only [homeTile, homeLine] at htxn
    simp only [takenFor, hop, htxn, hcoh, hawaits, beq_self_eq_true, Bool.and_self, if_true]
    rfl
  unfold answerArrives
  simp only [hop, hown, hbad, bne_self_eq_false, Bool.not_true, Bool.or_self, Bool.false_eq_true, if_false]
  simp only [noted, taken, State.onHw] at hfor ⊢
  rw [hfor]
  rfl

/-- WB_DATA of the requester in TA is stored and acknowledged with the transaction's HTID. -/
theorem takeWbData_of_requester (haddr : (addressFault s.hw p).isNone = true) (hdead : isDead s.hw p.src = false)
    (htxn : (s.hw.dir (homeTile p)).txnOf (homeLine p) = some (k, x)) (hstate : x.state = 6) (hreq : x.requester = p.src) :
    takeWbData p s = (storeLine s x.region (x.line * 128) p).onHw fun h =>
      ackWriteBack (h.modTxn (homeTile p) k fun y => { y with data := true }) p ((h.dir (homeTile p)).htidOf (homeTile p) k) := by
  simp only [homeTile, homeLine, Option.isNone_iff_eq_none] at haddr htxn
  have hawaits : awaitsWriteBack x p.src = true := by simp [awaitsWriteBack, hstate, hreq]
  simp [takeWbData, haddr, hdead, htxn, hawaits, hstate, homeTile]

/-! ### Timeouts (R133) -/

theorem homeTimedOut_of_granted (hx : KMap.find? (s.hw.dir t).txns k = some x) (hstate : x.state = 6) :
    homeTimedOut t k s = endGrant (s.onHw fun h => suspect (dirCount h t 6) t x.requester) t k x 3 := by
  simp [homeTimedOut, hx, hstate]

/-- The line of an owner that has not written back is poisoned, and its entry goes. -/
theorem homeTimedOut_of_owned (hx : KMap.find? (s.hw.dir t).txns k = some x) (hstate : x.state = 4 ∨ x.state = 5) (hdata : x.data = false) :
    homeTimedOut t k s =
      ownerGone ((poisonLine (s.onHw fun h => suspect (dirCount h t 4) t x.owner) x.line).onHw fun h => dropEntry h t x.line) t k x := by
  have howned : (x.state == 4 || x.state == 5) = true := by simpa using hstate
  simp only [homeTimedOut, hx, howned, hdata, Bool.false_and, Bool.false_eq_true, if_true, if_false]

theorem homeTimedOut_of_shared (hx : KMap.find? (s.hw.dir t).txns k = some x) (hstate : x.state = 3) :
    homeTimedOut t k s =
      sharersGone ((s.onHw fun h => forAll x.waits (fun n h => suspect h t n) (dirCount h t 5)).onHw fun h =>
        h.modTxn t k fun y => { y with waits := [] }) t k x := by
  simp [homeTimedOut, hx, hstate]

/-! ### The rows -/

/-- An answer other than WB_DATA that a transaction awaits comes to what `f` makes of the noted state. -/
theorem commit_answer_of_awaited {op : Nat} {f : State → State} {u : State} (ha : Awaited s op p t k x) (hop : op ≠ 0x34)
    (hf : matched (noted s p t k).hw p = some (t, k, x) → f (noted s p t k) = u) :
    commit (answerArrives op p f) s = .next (answerSettled s p u) := by
  rw [commit, answerArrives_of_awaited f ha hop, hf (matched_noted ha)]
  rfl

end

/-- Settles O50: each answer and each wait has one lemma above for the state of the transaction that it moves on. -/
theorem coherenceAnswersComplete : Obligations.CoherenceAnswersComplete := by
  refine ⟨?sharer, ?owner, ?forwarded, ?writingBack, ?dataOnce, ?ack, ?snpData, ?probe, ?probeData, ?lastProbe, ?writeBack, ?grantTimeout,
    ?ownerTimeout, ?sharerTimeout⟩
  case sharer =>
    intro s p t k x ha hstate hwaits hrest
    exact commit_answer_of_awaited ha (by decide) fun hm => takeSnprspI_of_sharer hm hstate hwaits hrest
  case owner =>
    intro s p t k x ha hstate howner
    exact commit_answer_of_awaited ha (by decide) fun hm => takeSnprspI_of_owner hm hstate howner
  case forwarded =>
    intro s p t k x q ha hstate howner hsnoop hserves hop
    exact commit_answer_of_awaited ha (by decide) fun hm => takeSnprspFwd_of_shared hm hstate howner hsnoop hserves hop
  case writingBack =>
    intro s p t k x ha hstate howner hdata
    exact commit_answer_of_awaited ha (by decide) fun hm => takeSnprspWbif_of_owner hm hstate howner hdata
  case dataOnce =>
    intro s p t k x id ha hstate howner hsnoop hserves hanswered
    exact commit_answer_of_awaited ha (by decide) fun hm => takeDataOnce_of_unanswered hm hstate howner hsnoop hserves hanswered
  case ack =>
    intro s p t k x ha hstate hreq
    exact commit_answer_of_awaited ha (by decide) fun hm => takeCmpAck_of_requester hm hstate hreq
  case snpData =>
    intro s p t k x ha hstate howner hkept
    exact commit_answer_of_awaited ha (by decide) fun hm => takeSnpData_of_invalid hm hstate howner hkept
  case probe =>
    intro s p t k x ha hstate hwaits hrest
    refine commit_answer_of_awaited ha (by decide) fun hm => (takeProbeRsp_of_awaited hm hstate hwaits).trans ?_
    exact if_neg (by simp [probesIn_of_waiting (x := x.probed p) hrest])
  case probeData =>
    intro s p t k x ha hstate hwaits
    exact commit_answer_of_awaited ha (by decide) fun hm => takeProbeData_of_awaited hm hstate hwaits
  case lastProbe =>
    intro s p t k x d ha hstate hwaits hfound hcopy
    have hprobed := probed_of_last hwaits hfound (by omega)
    have hin : probesIn (x.probed p) = true := probesIn_of_owner (d := d) (by rw [hprobed]) (by rw [hprobed]) hcopy
    refine commit_answer_of_awaited ha (by decide) fun hm => (takeProbeRsp_of_awaited hm hstate (by simp [hwaits])).trans ?_
    rw [if_pos hin, hprobed]
  case writeBack =>
    intro s p k x hop hown hbad hcoh haddr hdead htxn hstate hreq
    have hawaits : awaitsWriteBack x p.src = true := by simp [awaitsWriteBack, hstate, hreq]
    refine commit_congr ((answerArrives_of_writeBack _ hop hown hbad hcoh htxn hawaits).trans ?_)
    rw [takeWbData_of_requester (s := noted s p (homeTile p) k) ((addressFault_emit ..).trans haddr) ((isDead_emit ..).trans hdead)
      ((txnOf_emit ..).trans htxn) hstate hreq]
  case grantTimeout =>
    intro s t k x hx hstate
    exact (exec_homeTimeout t k s).trans (commit_congr (congrArg (retryRebuilds t) (homeTimedOut_of_granted hx hstate)))
  case ownerTimeout =>
    intro s t k x hx hstate hdata
    exact (exec_homeTimeout t k s).trans (commit_congr (congrArg (retryRebuilds t) (homeTimedOut_of_owned hx hstate hdata)))
  case sharerTimeout =>
    intro s t k x hx hstate
    exact (exec_homeTimeout t k s).trans (commit_congr (congrArg (retryRebuilds t) (homeTimedOut_of_shared hx hstate)))

end Sys2Proof.Machine
end

section
/-!
PROOFS. Held requests, reservations, the replay filter, decoded storage, snoops of the module, and the COH commands (R116, R127–R136, R363, R482).
-/
namespace Sys2Proof.Machine
open Sys2Proof

section
variable {s : State} {t w : Nat}

/-! ### Held requests, the filter and snoops -/

/-- The only request held that no takeover holds back leaves the queue when it is served (R124, R127). -/
theorem serveOverflow_of_single {u : State} {x : Waiting} (hheld : heldByTakeover s.hw x.packet = false)
    (hserved : serveMessage s t (messageReq x.region x.serial
      (fpaOffset (Packet.addr x.packet) / 128 * 128 + fpaOffset (Packet.addr x.packet) % 128) x.packet) x.packet = (u, true)) :
    serveOverflow t [] [x] s = u.onHw fun h => h.modDir t fun d => { d with overflow := [] } := by
  simp only [serveOverflow, hheld, hserved, List.any_nil, Bool.or_self, Bool.false_eq_true, if_false, List.append_nil]

/-- An ended entry at the front of the filter ended earliest, and is released (R482). -/
theorem filterRelease_of_ended {h : Hw} {e : FilterEntry} {r : List FilterEntry} (hfilter : (h.dir t).filter = e :: r) (he : e.outcome ≠ 0) :
    filterRelease t h = h.modDir t fun d => { d with filter := r } := by
  have hopen : (e.outcome == 0) = false := by simpa using he
  simp only [filterRelease, Hw.modDir, hfilter, List.span, List.span.loop, hopen, List.reverse_nil, List.nil_append]

/-- The module as an agent holds no line: a well-formed snoop is answered SNPRSP_I (R116). -/
theorem snoopedHere_of_sound {h : Hw} {p : Packet} (hlow : 0x10 ≤ p.opcode) (hhigh : p.opcode ≤ 0x15) (hown : isOwn h p.dst = true)
    (hbad : badAnswer p = false) :
    snoopedHere p h = send (takeInbox h p) (mkPacket 0x26 2 p.sclass p.src p.dst p.tid
      (cohControl (Packet.addr p) (Packet.peer p) (Packet.htid p) (Packet.cf p 96 8) false false 0)) := by
  simp [snoopedHere, Nat.not_lt.2 hlow, Nat.not_lt.2 hhigh, hown, hbad]

/-! ### Words of DRAM (R363, R364, log entry 9) -/

/-- The stored bits of word `w` as DRAM returns them with those of `err` flipped. -/
def readBits (s : State) (w err : Nat) : Nat :=
  nxor (encodeWord (leNat (s.pool.bytes (8 * w) 8)) (s.pool.poisoned w)) (err % 2 ^ 80)

/-- A word that cannot be corrected, and of which no standby holds a copy, is stored poisoned with D = 0: it is counted, logged and written back. -/
theorem decodeRead_of_uncorrectable {err : Nat} (hflips : (decodeWord (readBits s w err)).flips = none) (hcopy : copyHeld s w = false) :
    decodeRead s w err .plain =
      ((writeBack ((countEcc (s.onPool fun p => p.clearErr w) w 2).onPool fun p =>
        (p.writeBytes (8 * w) (leBytes 8 0)).setPoison w true) w).onHw fun h =>
          logError h (tileOf (8 * w)) 1 0x03 (mcsInfo w) (8 * w) (mcsDetail (decodeWord (readBits s w err))), some true) := by
  simp only [readBits] at hflips ⊢
  simp only [decodeRead, hflips, hcopy]
  rfl

/-- A word with one bit in error and X clear is stored corrected: it is counted, logged and written back. -/
theorem decodeRead_of_corrected {err j : Nat} (hflips : (decodeWord (readBits s w err)).flips = some [j])
    (hclean : tbit (flipBits (readBits s w err) [j]) 78 = false) :
    decodeRead s w err .plain =
      ((writeBack (countEcc ((s.onPool fun p => p.clearErr w).onPool fun p =>
        (p.writeBytes (8 * w) (leBytes 8 (fld (flipBits (readBits s w err) [j]) 14 64))).setPoison w false) w 0) w).onHw fun h =>
          logError h (tileOf (8 * w)) 0 1 (mcsInfo w) (8 * w) (mcsDetail (decodeWord (readBits s w err))), some false) := by
  simp only [readBits] at hflips hclean ⊢
  simp only [decodeRead, hflips, hclean]
  rfl

/-- A read from DRAM that counts in the row tracker (R369). -/
theorem readDecode_of_tracked {err : BitVec 80} {u : State} {unc : Bool} (hreads : readsDram s.hw w = true)
    (hu : decodeRead s w (nxor (KMap.getD s.pool.errs w 0) err.toNat) .plain = (u, some unc)) :
    readDecode (.word w) err s = trackRow u w unc := by
  simp only [readDecode, hreads, if_true, dramRead, hu, tracked]

/-! ### Scratch and directory entries (R366, R377, log entries 21 and 26) -/

theorem scratchError_of_stored {h : Hw} {id a : Nat} (hk : KMap.has h.queues id = true) (ha : a < 65536 * (h.queue id).scratch) :
    scratchError id a h = logOpen (h.setQueue id { h.queue id with memPz := KMap.setD (h.queue id).memPz (a / 8) true false })
      (32 + (h.queue id).tile) 2 0x13 none none := by
  simp [scratchError, hk, Nat.not_le.2 ha]

/-- An entry that cannot be corrected is dropped, and its line rebuilt (R378). -/
theorem rebuildEntry_of_tracked {line : Nat} (hk : KMap.has (s.hw.dir (tileOf (line * 128))).entries line = true) :
    rebuildEntry s line = startRebuild (s.onHw fun h =>
      dropEntry (logOpen h (64 + tileOf (line * 128)) 2 0x20 none none) (tileOf (line * 128)) line) line := by
  simp only [rebuildEntry, hk, Bool.not_true, Bool.false_and, Bool.false_eq_true, if_false]

/-! ### COH commands (R114, R132) -/

theorem cohConfig_of_inRange {q : Req} {h : Hw} (hus : 10 ≤ q.p 0 ∧ q.p 0 ≤ 1000000) :
    cohConfig q h = ({ h with homeTimeout := q.p 0 }, some Reply.ok) := by
  obtain ⟨hlow, hhigh⟩ := hus
  simp [cohConfig, Nat.not_lt.2 hlow, Nat.not_lt.2 hhigh]

theorem cohLineQuery_of_coherent {q : Req} {h : Hw} {g : Nat} (hpool : inPool h (q.p 0) = true)
    (hregion : regionAt h (granuleOf (fpaOffset (q.p 0))) = some g) (hkind : (h.region g).kind = 0 ∧ g ≠ 0) :
    cohLineQuery q h = (h, some (Reply.ok (lineRecord h (tileOf (fpaOffset (q.p 0))) (fpaOffset (q.p 0) / 128)))) := by
  obtain ⟨hcoherent, hsome⟩ := hkind
  simp [cohLineQuery, hpool, hregion, hcoherent, hsome]

end

/-- Settles O51: each event and each command has one lemma above for the form that the statement gives. -/
theorem coherenceUpkeepComplete : Obligations.CoherenceUpkeepComplete := by
  refine ⟨?overflow, ?resv, ?bulk, ?filter, ?poisoned, ?corrected, ?scratch, ?entry, ?snoop, ?config, ?query, ?line, ?clear⟩
  case overflow =>
    intro s t w g hover hheld hserved
    refine commit_congr ?_
    rw [hover]
    exact serveOverflow_of_single hheld hserved
  case resv =>
    intro s t
    rfl
  case bulk =>
    intro s t
    rfl
  case filter =>
    intro s t e r hfilter he
    exact congrArg (fun h => Host.Outcome.next { s with hw := h }) (filterRelease_of_ended hfilter he)
  case poisoned =>
    intro s w err hreads hflips hcopy
    exact commit_congr (readDecode_of_tracked hreads (decodeRead_of_uncorrectable hflips hcopy))
  case corrected =>
    intro s w err j hreads hflips hclean
    exact commit_congr (readDecode_of_tracked hreads (decodeRead_of_corrected hflips hclean))
  case scratch =>
    intro s id a err hk ha
    exact commit_onHw (scratchError_of_stored hk ha)
  case entry =>
    intro s line err herr hk
    exact commit_congr ((if_pos herr).trans (rebuildEntry_of_tracked hk))
  case snoop =>
    intro s p hlow hhigh hown hbad
    exact congrArg (fun h => Host.Outcome.next { s with hw := h }) (snoopedHere_of_sound hlow hhigh hown hbad)
  case config =>
    intro s m us ha hus
    exact congrArg Host.Outcome.next (runHw_served (fun h => { h with homeTimeout := us }) ha (cohConfig_of_inRange hus))
  case query =>
    intro s m ha
    exact congrArg Host.Outcome.next (runHw_served (fun h => h) ha rfl)
  case line =>
    intro s m a g ha hpool hregion hkind
    exact congrArg Host.Outcome.next (runHw_served (fun h => h) ha (cohLineQuery_of_coherent hpool hregion hkind))
  case clear =>
    intro s m n ha
    exact congrArg Host.Outcome.next (runHw_served _ ha rfl)

end Sys2Proof.Machine
end

section
/-!
PROOFS. Snapshot regions: the SNAP commands, and the ends of their switches, copies and reclaims (R147–R167).
-/
namespace Sys2Proof.Machine
open Sys2Proof

/-- A command that acts on the module and lets the accesses that waited go on: its effect as another function gives it. -/
theorem commit_resumed {s : State} {f g : Hw → Hw} (h : f s.hw = g s.hw) :
    commit (fun s => resumeParked (s.onHw f)) s = .next (mirrored s (resumeParked (s.onHw g))) := by
  simp only [commit, State.onHw, h]

/-- A command that answers within its own change, or in a later row, makes that change: the change as a function of the module. -/
theorem runHw_changed {s : State} {m op : Nat} {params : List Param} {query : Bool} {vals : List Nat}
    {body : Req → Hw → Hw × Option Reply} {f : Hw → Hw} (ha : Asks s m op params query vals) (hb : body (theRequest s m vals) s.hw = (f s.hw, none)) :
    runHw s m op params query body = s.onHw f :=
  runHw_unanswered ha hb

section
variable {q : Req} {h : Hw}

/-! ### SNAP.OPEN (R154) -/

/-- A READ open with VERSION 0, of a node that may read and holds no binding, joins the node to the CURRENT slot. -/
theorem snapOpen_of_reader {id n b : Nat} (hids : q.p 0 = id ∧ q.p 1 = n) (hform : q.p 2 = 0 ∧ q.p 3 = 0)
    (hactive : snapActive h id = true) (hright : hasRight h (h.region id) n .read = true) (hnew : (bindingOf (h.snap id) n).isNone = true)
    (hroom : KMap.firstFree (h.snap id).bindings 64 = some b) :
    snapOpen q h =
      let x := h.snap id
      (answerSnap h (h.setSnap id { x with bindings := KMap.ins x.bindings b { node := n, slot := currentSlot x } }) id q.m stOK
        (items [.f 4 (currentSlot x), .f 32 (x.slot (currentSlot x)).version]), none) := by
  obtain ⟨hid, hnode⟩ := hids
  obtain ⟨hread, hversion⟩ := hform
  have hunbound : bindingOf (h.snap id) n = none := Option.isNone_iff_eq_none.1 hnew
  simp [snapOpen, hid, hnode, hread, hversion, hactive, hright, hunbound, hroom]

/-- A DRAFT open with VERSION 0, of a node that may write and holds no binding, makes a draft of the current version in the
lowest FREE slot. -/
theorem snapOpen_of_writer {id n b k : Nat} (hids : q.p 0 = id ∧ q.p 1 = n) (hform : q.p 2 = 1 ∧ q.p 3 = 0)
    (hactive : snapActive h id = true) (hright : hasRight h (h.region id) n .write = true) (hnew : (bindingOf (h.snap id) n).isNone = true)
    (hroom : KMap.firstFree (h.snap id).bindings 64 = some b)
    (hslot : (List.range 16).find? (fun i => ((h.snap id).slot i).state == 0) = some k) :
    snapOpen q h =
      let x := h.snap id
      let v : VersionSlot := { state := 3, writer := n, base := x.cur, time := h.time.now, map := plainMap (x.slot (currentSlot x)) }
      (answerSnap h (h.setSnap id { x.setSlot k v with bindings := KMap.ins x.bindings b { node := n, slot := k } }) id q.m stOK
        (items [.f 4 k, .f 32 x.cur]), none) := by
  obtain ⟨hid, hnode⟩ := hids
  obtain ⟨hdraft, hversion⟩ := hform
  have hunbound : bindingOf (h.snap id) n = none := Option.isNone_iff_eq_none.1 hnew
  simp [snapOpen, hid, hnode, hdraft, hversion, hactive, hright, hunbound, hroom, hslot]

/-! ### SNAP.PUBLISH, SNAP.REBASE and SNAP.CLOSE (R155–R158, R167) -/

/-- A command of R167 on a bound node begins its switch, unless a condition of its own fails: PUBLISH asks for a draft and for a CUR that
can rise, REBASE for a draft or an orphan, and both for W. -/
theorem snapBegin_of_bound {op id n : Nat} {b : Nat × Binding} (hids : q.p 0 = id ∧ q.p 1 = n)
    (hactive : snapActive h id = true) (hbound : bindingOf (h.snap id) n = some b) (hstate : ((h.snap id).slot b.2.slot).state ≠ 0)
    (hpublish : op = 0x502 → ((h.snap id).slot b.2.slot).state = 3 ∧ (h.snap id).cur ≠ 2 ^ 32 - 1)
    (hrebase : op = 0x503 → ((h.snap id).slot b.2.slot).state = 3 ∨ ((h.snap id).slot b.2.slot).state = 4)
    (hright : op ≠ 0x504 → hasRight h (h.region id) n .write = true) :
    snapBegin op q h =
      let k := nextSerial (setWork h q.m op [] [])
      ({ k.2 with switching := k.2.switching ++ [{ mailbox := q.m, opcode := op, region := id, node := n, serial := k.1 }] }, none) := by
  obtain ⟨hid, hnode⟩ := hids
  have hpub : (op == 0x502 && ((h.snap id).slot b.2.slot).state != 3) = false := by
    simpa using fun hop => (hpublish hop).1
  have hreb : (op == 0x503 && ((h.snap id).slot b.2.slot).state != 3 && ((h.snap id).slot b.2.slot).state != 4) = false := by
    simpa using fun hop hdraft => (hrebase hop).resolve_left hdraft
  have hrgt : (op != 0x504 && !hasRight h (h.region id) n .write) = false := by simpa using hright
  have hcur : (op == 0x502 && (h.snap id).cur == 2 ^ 32 - 1) = false := by
    simpa using fun hop => (hpublish hop).2
  simp only [snapBegin, hid, hnode, hactive, hbound, beq_eq_false_iff_ne.2 hstate, hpub, hreb, hrgt, hcur, Bool.not_true, Bool.or_self,
    Bool.false_eq_true, if_false]

/-- A switch to the end of a binding is answered OK once the node's requests have drained (R158, R167). -/
theorem snapSwitch_of_close {m : Nat} {w : Switching} (hw : h.switching.find? (fun x => x.mailbox == m) = some w)
    (hdrained : switchDrains h w = false) (hop : w.opcode = 0x504) (hanswers : w.answers = true) :
    snapSwitch m h =
      let g := closeBinding h w.region w.node
      answerSnap h { g with switching := g.switching.filter (fun v => v.serial != w.serial) } w.region m stOK [] := by
  simp [snapSwitch, hw, hdrained, hop, hanswers]

/-- A switch to a published draft is answered as `publish` finds CUR and the draft once the node's requests have drained (R155, R167). -/
theorem snapSwitch_of_publish {m : Nat} {w : Switching} (hw : h.switching.find? (fun x => x.mailbox == m) = some w)
    (hdrained : switchDrains h w = false) (hop : w.opcode = 0x502) (hanswers : w.answers = true) :
    snapSwitch m h =
      let r := publish h w.region w.node
      answerSnap h { r.2.2 with switching := r.2.2.switching.filter (fun v => v.serial != w.serial) } w.region m r.1 r.2.1 := by
  simp [snapSwitch, hw, hdrained, hop, hanswers]

/-! ### SNAP.CONFIG and SNAP.QUERY (R160, R161) -/

/-- A new LOW_WATER is compared with the free shards at once (log entry 25). -/
theorem snapConfig_of_active {id k : Nat} (hvals : q.p 0 = id ∧ q.p 1 = k) (hactive : snapActive h id = true) :
    snapConfig q h =
      (answerSnap h (settleLow (h.setSnap id { h.snap id with lowWater := k }) id) id q.m stOK [], none) := by
  obtain ⟨hid, hlow⟩ := hvals
  simp only [snapConfig, hid, hlow, hactive, if_true]

theorem snapQuery_of_active {id : Nat} (hid : q.p 0 = id) (hactive : snapActive h id = true) :
    snapQuery q h = (h, some (Reply.ok (versionBlock h id))) := by
  simp only [snapQuery, hid, hactive, if_true]

/-! ### Copies and reclaims (R159, R164) -/

theorem reclaimDone_of_reclaiming {id k : Nat} (hstate : ((h.snap id).slot k).state = 5) :
    reclaimDone id k h = settleLow (h.setSnap id ((h.snap id).setSlot k {})) id :=
  if_pos (beq_iff_eq.2 hstate)

/-- A copy whose two shards' MCSs serve, with no write hold, ends: the shard's content and then its map entry move to the new PSN. -/
theorem copyDone_of_served {s : State} {id l k : Nat} {c : Copying}
    (hc : (s.hw.snap id).copies.find? (fun x => x.slot == k && x.shard == l) = some c)
    (hold : mcsServesAll s.hw ((((s.hw.snap id).slot k).entry (s.hw.region id) l).psn * 65536) 65536 = true)
    (hnew : mcsServesAll s.hw (c.psn * 65536) 65536 = true) (hwrite : s.hw.pair.writeHold = false) :
    copyDone id l k s =
      let old := (((s.hw.snap id).slot k).entry (s.hw.region id) l).psn
      let v := ((s.hw.snap id).slot k).setEntry (s.hw.region id) l { psn := c.psn, priv := true, origin := old }
      let x := { (s.hw.snap id).setSlot k v with
        copies := (s.hw.snap id).copies.filter (fun d => !(d.slot == k && d.shard == l)), cow := satInc 32 (s.hw.snap id).cow }
      resumeParked (mirrorLines (((readShard s old).onPool fun p => p.copy (old * 65536) (c.psn * 65536) 65536).onHw fun h =>
        settleLow (h.setSnap id x) id) id (c.psn * 65536) 65536) := by
  simp only [copyDone, hc, hold, hnew, hwrite, Bool.not_true, Bool.or_self, Bool.false_eq_true, if_false]

end

/-- Settles O52: each command and each end has one lemma above for the form that the statement gives (what SNAP.CONFIG raises at once
is in log entry 25). -/
theorem snapshotsComplete : Obligations.SnapshotsComplete := by
  refine ⟨?read, ?draft, ?publish, ?rebase, ?close, ?closed, ?published, ?config, ?query, ?copied, ?reclaimed⟩
  case read =>
    intro s m id n b ha hactive hright hnew hroom
    refine (exec_snapOpen m s).trans (commit_congr ?_)
    exact runHw_changed ha (snapOpen_of_reader (q := theRequest s m [id, n, 0, 0]) ⟨rfl, rfl⟩ ⟨rfl, rfl⟩ hactive
      hright hnew hroom)
  case draft =>
    intro s m id n b k ha hactive hright hnew hroom hslot
    refine (exec_snapOpen m s).trans (commit_congr ?_)
    exact runHw_changed ha (snapOpen_of_writer (q := theRequest s m [id, n, 1, 0]) ⟨rfl, rfl⟩ ⟨rfl, rfl⟩ hactive
      hright hnew hroom hslot)
  case publish =>
    intro s m id n b ha hactive hbound hstate hright hcur
    refine (exec_snapPublish m s).trans (commit_congr ?_)
    exact runHw_changed ha (snapBegin_of_bound (q := theRequest s m [id, n]) ⟨rfl, rfl⟩ hactive hbound (by rw [hstate]; decide)
      (fun _ => ⟨hstate, hcur⟩) (fun hop => absurd hop (by decide)) (fun _ => hright))
  case rebase =>
    intro s m id n b ha hactive hbound hstate hright
    refine (exec_snapRebase m s).trans (commit_congr ?_)
    exact runHw_changed ha (snapBegin_of_bound (q := theRequest s m [id, n]) ⟨rfl, rfl⟩ hactive hbound (by rw [hstate]; decide)
      (fun hop => absurd hop (by decide)) (fun _ => .inl hstate) (fun _ => hright))
  case close =>
    intro s m id n b ha hactive hbound hstate
    refine (exec_snapClose m s).trans (commit_congr ?_)
    exact runHw_changed ha (snapBegin_of_bound (q := theRequest s m [id, n]) ⟨rfl, rfl⟩ hactive hbound (by rw [hstate]; decide)
      (fun hop => absurd hop (by decide)) (fun hop => absurd hop (by decide)) (fun hop => absurd rfl hop))
  case closed =>
    intro s m w hw hdrained hop hanswers
    exact commit_resumed (snapSwitch_of_close hw hdrained hop hanswers)
  case published =>
    intro s m w hw hdrained hop hanswers
    exact commit_resumed (snapSwitch_of_publish hw hdrained hop hanswers)
  case config =>
    intro s m id k ha hactive
    refine (exec_snapConfig m s).trans (commit_congr ?_)
    exact runHw_changed ha (snapConfig_of_active (q := theRequest s m [id, k]) ⟨rfl, rfl⟩ hactive)
  case query =>
    intro s m id ha hactive
    exact congrArg Host.Outcome.next (runHw_served (fun h => h) ha (snapQuery_of_active (q := theRequest s m [id]) rfl hactive))
  case copied =>
    intro s id l k c hc hold hnew hwrite
    exact commit_congr (copyDone_of_served hc hold hnew hwrite)
  case reclaimed =>
    intro s id k hstate
    exact commit_onHw (reclaimDone_of_reclaiming hstate)

end Sys2Proof.Machine
end

section
/-!
PROOFS. Element formats: the codes of E8M0 (R180).
-/
namespace Sys2Proof.Machine
open Sys2Proof

section
variable {f c : Nat} {cb : List Nat}

/-- Reading an E8M0 code: 0xFF is the one code without a power of two. -/
theorem decodeElem_of_e8m0 (hf : fElem f = 14) :
    decodeElem f cb c = if c = 255 then .nan else .fin false { m := 1, e := (c : Int) - 127 } := by
  simp [decodeElem, hf]

theorem decodeElem_e8m0_power (hf : fElem f = 14) (hc : c ≠ 255) :
    decodeElem f cb c = .fin false { m := 1, e := (c : Int) - 127 } :=
  (decodeElem_of_e8m0 hf).trans (if_neg hc)

theorem decodeElem_e8m0_nan (hf : fElem f = 14) (hc : c = 255) : decodeElem f cb c = .nan :=
  (decodeElem_of_e8m0 hf).trans (if_pos hc)

/-- No E8M0 code reads as an infinity. -/
theorem decodeElem_e8m0_ne_inf (hf : fElem f = 14) (n : Bool) : decodeElem f cb c ≠ .inf n := by
  by_cases hc : c = 255
  · rw [decodeElem_e8m0_nan hf hc]; nofun
  · rw [decodeElem_e8m0_power hf hc]; nofun

/-- An E8M0 code with a finite value has no sign, and its mantissa is 1. -/
theorem decodeElem_e8m0_fin {n : Bool} {v : Dyadic} (hf : fElem f = 14) (h : decodeElem f cb c = .fin n v) :
    n = false ∧ v.m = 1 := by
  by_cases hc : c = 255
  · exact absurd ((decodeElem_e8m0_nan hf hc).symm.trans h) nofun
  · obtain ⟨rfl, rfl⟩ := Fp.fin.inj ((decodeElem_e8m0_power hf hc).symm.trans h)
    exact ⟨rfl, rfl⟩

end

/-- Settles O16: 0xFF is the one code above 254, and every other code is a power of two with mantissa 1. -/
theorem scaleCodesAreExact : Obligations.ScaleCodesAreExact := by
  intro f c cb hf _
  refine ⟨fun hc => decodeElem_e8m0_power hf (by omega), decodeElem_e8m0_nan hf, decodeElem_e8m0_ne_inf hf, fun n v h => ?_⟩
  obtain ⟨hsign, hm⟩ := decodeElem_e8m0_fin hf h
  exact ⟨hsign, by rw [hm]; decide⟩

end Sys2Proof.Machine
end

section
/-!
PROOFS. The segments of a collective (R311).
-/
namespace Sys2Proof.Machine
open Sys2Proof

section
variable {g : Group} {k : Nat}

theorem Group.segElems_pos (g : Group) : 0 < g.segElems := Nat.two_pow_pos g.segLog2

/-- SEG_ELEMS is at least 256, so it is a multiple of 32 as COUNT is (R301). -/
theorem Group.dvd_segElems (hlog : 8 ≤ g.segLog2) : 32 ∣ g.segElems := Nat.pow_dvd_pow 2 (show 5 ≤ g.segLog2 by omega)

/-- NSEG is the quotient of COUNT and SEG_ELEMS rounded up: `k` segments have room for the elements exactly from NSEG on. -/
theorem Group.nseg_le_iff : g.nseg ≤ k ↔ g.count ≤ k * g.segElems := by
  have hpos := g.segElems_pos
  rw [Group.nseg, ← Nat.lt_succ_iff, Nat.div_lt_iff_lt_mul hpos, Nat.succ_mul]
  omega

theorem Group.lt_nseg_iff : k < g.nseg ↔ k * g.segElems < g.count := by
  rw [← Nat.not_le, Group.nseg_le_iff, Nat.not_le]

/-- Segment `k` runs from `k` × SEG_ELEMS to the lesser of (`k` + 1) × SEG_ELEMS and COUNT. -/
theorem Group.segment_end (hk : k < g.nseg) : k * g.segElems + g.nelem k = Nat.min ((k + 1) * g.segElems) g.count := by
  have hstart := Group.lt_nseg_iff.1 hk
  calc k * g.segElems + min (g.count - k * g.segElems) g.segElems
    _ = min (k * g.segElems + (g.count - k * g.segElems)) (k * g.segElems + g.segElems) := (Nat.add_min_add_left ..).symm
    _ = min g.count ((k + 1) * g.segElems) := by rw [Nat.add_sub_cancel' (Nat.le_of_lt hstart), Nat.succ_mul]
    _ = min ((k + 1) * g.segElems) g.count := Nat.min_comm ..

theorem Group.nelem_pos (hk : k < g.nseg) : 0 < g.nelem k :=
  Nat.lt_min.2 ⟨Nat.sub_pos_of_lt (Group.lt_nseg_iff.1 hk), g.segElems_pos⟩

/-- A segment with another after it is full. -/
theorem Group.nelem_of_next (hk : k + 1 < g.nseg) : g.nelem k = g.segElems := by
  have hnext := Group.lt_nseg_iff.1 hk
  rw [Nat.succ_mul] at hnext
  exact Nat.min_eq_right (by omega)

/-- The last segment holds what the others leave. -/
theorem Group.nelem_last (g : Group) : g.nelem (g.nseg - 1) = g.count - (g.nseg - 1) * g.segElems := by
  have hall : g.count ≤ (g.nseg - 1 + 1) * g.segElems := Group.nseg_le_iff.1 (by omega)
  rw [Nat.succ_mul] at hall
  exact Nat.min_eq_left (by omega)

end

/-- Settles O17: NSEG is the least number of segments with room for COUNT elements (`Group.nseg_le_iff`), so segment `k` begins below COUNT
exactly when `k` is below NSEG. -/
theorem segmentsCoverAnInstance : Obligations.SegmentsCoverAnInstance := by
  intro g hlog _ hcount
  refine ⟨fun k => Group.nseg_le_iff, fun k hk => ⟨Group.segment_end hk, Group.nelem_pos hk⟩, fun k => Group.nelem_of_next,
    g.nelem_last, ?_⟩
  rw [g.nelem_last]
  exact Nat.mod_eq_zero_of_dvd (Nat.dvd_sub (Nat.dvd_of_mod_eq_zero hcount) (Nat.dvd_mul_left_of_dvd (Group.dvd_segElems hlog) _))

end Sys2Proof.Machine
end

section
/-!
PROOFS. The commands on groups, their members and their instances (R300–R308, R329).
-/
namespace Sys2Proof.Machine
open Sys2Proof

/-! ### The open `Instance` of a group -/

theorem KMap.upd_congr {α : Type} {m : KMap α} {k : Nat} {f g : α → α} (h : ∀ v, KMap.find? m k = some v → f v = g v) :
    KMap.upd m k f = KMap.upd m k g := by
  unfold KMap.upd
  cases hv : KMap.find? m k with
  | none => rfl
  | some v => exact congrArg (KMap.ins m k) (h v hv)

/-- Where `i` is the open `Instance`, a change of it is the change that puts its value at `i` there. -/
theorem Hw.onInst_of_open {h : Hw} {id : Nat} {i : Instance} (f : Instance → Instance) (hi : (h.coll id).inst = some i) :
    h.onInst id f = h.onInst id fun _ => f i := by
  refine congrArg (fun t => { h with colls := t }) (KMap.upd_congr fun x hx => ?_)
  have hinst : x.inst = some i := by rw [← hi, Hw.coll, KMap.get, KMap.getD, hx]; rfl
  rw [hinst]
  rfl

/-! ### Groups, members and ends (R300–R308, R329) -/

section
variable {q : Req} {h : Hw}

/-- The group that COLL.GROUP.CREATE makes of its parameters: no member, no open `Instance`, and D one epoch before FIRST_EPOCH (R301, R309). -/
def newGroup (q : Req) (h : Hw) : Group :=
  { ctx := q.p 1, op := q.p 2, cfmt := q.p 3, rfmt := q.p 4, count := q.p 5, segLog2 := q.p 6, openSegs := q.p 7, push := q.p 8 == 1
    resultVa := q.p 9, countedVa := q.p 10, compVa := q.p 11, guard := q.p 12, seed := q.p 13, firstEpoch := q.p 14
    policy := q.p 15, timeout := q.p 16, sclass := q.p 17, service := (h.ctx (q.p 1)).service
    last := (q.p 14 + 65535) % 65536 }

/-- COLL.GROUP.CREATE of a group that is not active, with operands in their ranges, for a bound context, with formats that it may have and scratch for
its segments on every tile, out of a pair (R301, R302). -/
theorem groupCreate_of_accepted (hopen : poolOpen h = true) (hcompute : (h.sys.compute == 3) = false)
    (hfree : KMap.has h.colls (q.p 0) = false) (hcount : q.p 5 % 32 = 0 ∧ 32 ≤ q.p 5 ∧ q.p 5 ≤ 2 ^ 26)
    (hsegs : 8 ≤ q.p 6 ∧ q.p 6 ≤ 12 ∧ 1 ≤ q.p 7 ∧ q.p 7 ≤ 64) (hva : q.p 9 % 64 = 0 ∧ q.p 10 % 32 = 0 ∧ q.p 11 % 64 = 0)
    (hguard : badCollGuard (q.p 12) = false ∧ 10 ≤ q.p 16 ∧ q.p 16 ≤ 10000000) (hbound : (h.ctx (q.p 1)).bound = true)
    (hcfmt : reducible (q.p 3) = true ∧ fSide (q.p 3) = false ∧ badFormat (q.p 3) 0 false = false)
    (hrfmt : (fScale (q.p 4) == 2) = false ∧ fSide (q.p 4) = false ∧ badFormat (q.p 4) 0 true = false ∧ isLut (q.p 4) = false)
    (hpair : h.pair.state = 0) (hnseg : (newGroup q h).nseg ≤ 65536)
    (hrows : rowBytes (fElem (q.p 3)) (newGroup q h).segElems ≤ 4096 ∧ rowBytes (fElem (q.p 4)) (newGroup q h).segElems ≤ 4096)
    (hroom : scratchReserved h + q.p 7 * (newGroup q h).accBytes ≤ 2097152) :
    groupCreate q h = (forBelow 32 (fun t g => settleStaging g t) (h.setColl (q.p 0) (newGroup q h)), some Reply.ok) := by
  obtain ⟨halign, hcountLow, hcountHigh⟩ := hcount
  obtain ⟨hlogLow, hlogHigh, hopenLow, hopenHigh⟩ := hsegs
  obtain ⟨hresult, hcounted, hcomp⟩ := hva
  obtain ⟨hguard, htimeLow, htimeHigh⟩ := hguard
  obtain ⟨hreducible, hcside, hcbad⟩ := hcfmt
  obtain ⟨hrscale, hrside, hrbad, hrlut⟩ := hrfmt
  obtain ⟨hcrow, hrrow⟩ := hrows
  rw [newGroup] at hnseg hcrow hrrow hroom ⊢
  simp only [groupCreate, hopen, hcompute, hfree, createService_of_unpaired hpair, halign, Nat.not_lt.2 hcountLow, Nat.not_lt.2 hcountHigh,
    Nat.not_lt.2 hlogLow, Nat.not_lt.2 hlogHigh, beq_false_of_ne (Nat.ne_of_gt hopenLow), Nat.not_lt.2 hopenHigh, hresult, hcounted, hcomp,
    hguard, Nat.not_lt.2 htimeLow, Nat.not_lt.2 htimeHigh, hbound, hreducible, hcside, hcbad, hrscale, hrside, hrbad, hrlut, hpair,
    Nat.not_lt.2 hnseg, Nat.not_lt.2 hcrow, Nat.not_lt.2 hrrow, Nat.not_lt.2 hroom, bne_self_eq_false, decide_false, Option.isNone_some,
    Bool.not_true, Bool.or_self, Bool.false_and, Bool.false_eq_true, if_false]

theorem groupConfig_of_active (hk : KMap.has h.colls (q.p 0) = true) (ht : 10 ≤ q.p 2 ∧ q.p 2 ≤ 10000000) :
    groupConfig q h = (h.setColl (q.p 0) { h.coll (q.p 0) with policy := q.p 1, timeout := q.p 2, sclass := q.p 3 }, some Reply.ok) := by
  obtain ⟨hlow, hhigh⟩ := ht
  simp [groupConfig, hk, Nat.not_lt.2 hlow, Nat.not_lt.2 hhigh]

/-- COLL.GROUP.DESTROY of a group with no `Instance` open (R304). -/
theorem groupDestroy_of_idle (hk : KMap.has h.colls (q.p 0) = true) (hi : (h.coll (q.p 0)).inst = none) :
    groupDestroy q h = (destroyGroup h (q.p 0), some Reply.ok) := by
  simp [groupDestroy, hk, hi]

/-- With FORCE an open `Instance` is aborted, and the command waits for its end (R304). -/
theorem groupDestroy_of_forced {i : Instance} (hk : KMap.has h.colls (q.p 0) = true) (hi : (h.coll (q.p 0)).inst = some i)
    (hforce : q.p 1 = 1) :
    groupDestroy q h = (setWork (h.setColl (q.p 0) { h.coll (q.p 0) with
      destroying := some q.m, inst := some (if i.ended then i else abortInstance i) }) q.m 0x703 [] [q.p 0], none) := by
  simp [groupDestroy, forceDestroy, hk, hi, hforce]

theorem groupQuery_of_active (hk : KMap.has h.colls (q.p 0) = true) : groupQuery q h = (h, some (Reply.ok (groupRecord h (q.p 0)))) := by
  simp only [groupQuery, hk, if_true]

/-- COLL.MEMBER.ADD of an index and a node that the latched membership lacks: a node other than this module, with a receive buffer of its own
where results are pushed and none where they are not (R306–R308). -/
theorem memberAdd_of_new (hk : KMap.has h.colls (q.p 0) = true)
    (hnew : KMap.has (h.coll (q.p 0)).latched (q.p 1) = false ∧ (h.coll (q.p 0)).latched.any (fun p => p.2.node == q.p 2) = false)
    (hown : isOwn h (q.p 2) = false)
    (hrecv : if (h.coll (q.p 0)).push then q.p 3 % 64 = 0 ∧ fpaNode (q.p 3) = q.p 2 else q.p 3 = 0) :
    memberAdd q h = (h.setColl (q.p 0) { h.coll (q.p 0) with
      latched := KMap.ins (h.coll (q.p 0)).latched (q.p 1) { node := q.p 2, recv := q.p 3, join := joinEpoch (h.coll (q.p 0)) } },
      some (Reply.ok (items [.f 16 (joinEpoch (h.coll (q.p 0)))]))) := by
  obtain ⟨hindex, hnode⟩ := hnew
  have hplaced : (if (h.coll (q.p 0)).push then q.p 3 % 64 != 0 || fpaNode (q.p 3) != q.p 2 else q.p 3 != 0) = false := by
    cases hpush : (h.coll (q.p 0)).push <;> simpa [hpush] using hrecv
  simp only [memberAdd, hk, hindex, hnode, hown, hplaced, Bool.not_true, Bool.or_self, Bool.false_eq_true, if_false]

/-- COLL.MEMBER.REMOVE of a latched member (R307, R308). -/
theorem memberRemove_of_latched (hk : KMap.has h.colls (q.p 0) = true) (hm : KMap.has (h.coll (q.p 0)).latched (q.p 1) = true) :
    memberRemove q h = (h.setColl (q.p 0) { h.coll (q.p 0) with latched := KMap.erase (h.coll (q.p 0)).latched (q.p 1) },
      some (Reply.ok (items [.f 16 (joinEpoch (h.coll (q.p 0)))]))) := by
  simp [memberRemove, hk, hm]

/-- COLL.INSTANCE.END of an open `Instance` aborts it or excludes the members that it misses, by ACTION (R329). -/
theorem instanceEnd_of_open {i : Instance} (hi : (h.coll (q.p 0)).inst = some i) (hended : i.ended = false) :
    instanceEnd q h = (h.onInst (q.p 0) fun _ => if q.p 1 = 1 then abortInstance i
      else excludeMembers (h.coll (q.p 0)) (i.expected.filter fun k => !(missingSegs (h.coll (q.p 0)) i k).isEmpty) i, some Reply.ok) := by
  simp only [instanceEnd, hi, hended, Bool.false_eq_true, if_false, beq_iff_eq]
  split <;> rw [Hw.onInst_of_open _ hi]

end

/-- Settles O56: each command has one lemma above for the request that it grants. -/
theorem collectiveCommandsComplete : Obligations.CollectiveCommandsComplete := by
  refine ⟨?create, ?config, ?destroy, ?force, ?query, ?add, ?remove, ?abort, ?exclude⟩
  case create =>
    intro s m id c op cf rf n sl os ps rv cv cp gd sd ep pol tmo sc ha hopen hcompute hfree hcount hsegs hva hguard hbound hcfmt hrfmt hpair
      hnseg hrows hroom
    refine (exec_collGroupCreate m s).trans (commit_congr ?_)
    exact busyFirst_served _ ha
      (groupCreate_of_accepted hopen hcompute hfree hcount hsegs hva hguard hbound hcfmt hrfmt hpair hnseg hrows hroom)
  case config =>
    intro s m id pol tmo sc ha hk ht
    exact (exec_collGroupConfig m s).trans (commit_congr (runHw_served _ ha (groupConfig_of_active hk ht)))
  case destroy =>
    intro s m id force ha hk hi
    refine (exec_collGroupDestroy m s).trans (commit_congr ?_)
    exact runHw_served (destroyGroup · id) ha (groupDestroy_of_idle (q := theRequest s m [id, force]) hk hi)
  case force =>
    intro s m id i ha hk hi
    refine (exec_collGroupDestroy m s).trans (commit_congr ?_)
    exact runHw_unanswered ha (groupDestroy_of_forced (q := theRequest s m [id, 1]) hk hi rfl)
  case query =>
    intro s m id ha hk
    exact congrArg Host.Outcome.next (runHw_served (fun h => h) ha (groupQuery_of_active (q := theRequest s m [id]) hk))
  case add =>
    intro s m id k n fpa ha hk hnew hown hrecv
    refine (exec_collMemberAdd m s).trans (commit_congr ?_)
    exact runHw_served _ ha (memberAdd_of_new (q := theRequest s m [id, k, n, fpa]) hk hnew hown hrecv)
  case remove =>
    intro s m id k ha hk hm
    refine (exec_collMemberRemove m s).trans (commit_congr ?_)
    exact runHw_served _ ha (memberRemove_of_latched (q := theRequest s m [id, k]) hk hm)
  case abort | exclude =>
    intro s m id i ha hi hended _
    refine (exec_collInstanceEnd m s).trans (commit_congr ?_)
    exact runHw_served _ ha (instanceEnd_of_open hi hended)

end Sys2Proof.Machine
end

section
/-!
PROOFS. A store to one word of pool memory and what it leaves of the others (R354, R355, R365, R366).
-/
namespace Sys2Proof.Machine
open Sys2Proof

/-! ### Poison and bytes after a change of the pool -/

theorem KMap.find?_setD_of_ne {α : Type} [DecidableEq α] (m : KMap α) {k j : Nat} (v d : α) (h : j ≠ k) :
    KMap.find? (KMap.setD m k v d) j = KMap.find? m j := by
  unfold KMap.setD
  split
  · exact KMap.find?_erase_of_ne m h
  · exact KMap.find?_ins_of_ne m v h

/-- The two words may lie in granules of different poison, so the table's default differs between them. -/
theorem Pool.poisoned_setPoison (p : Pool) (w v : Nat) (b : Bool) :
    (p.setPoison w b).poisoned v = if v = w then b else p.poisoned v := by
  by_cases hv : v = w
  · subst hv
    rw [if_pos rfl]
    exact (KMap.getD_setD ..).trans (if_pos rfl)
  · rw [if_neg hv]
    exact congrArg (Option.getD · _) (KMap.find?_setD_of_ne p.poison b _ hv)

@[simp] theorem Pool.clearErr_poisoned (p : Pool) (w v : Nat) : (p.clearErr w).poisoned v = p.poisoned v := rfl
@[simp] theorem Pool.writeBytes_poisoned (p : Pool) (a : Nat) (bs : List Byte) (v : Nat) :
    (p.writeBytes a bs).poisoned v = p.poisoned v := rfl

theorem Pool.bytes_of_written {p : Pool} {m : List Host.Cell} {a n : Nat} {bs : List Byte} (hn : bs.length = n)
    (h : p.mem = Memory.writeBytes m a bs) : p.bytes a n = bs := by
  subst hn
  refine List.ext_getElem (by simp [Pool.bytes]) fun i _ hi => ?_
  simp only [Pool.bytes, h, List.getElem_map, List.getElem_range]
  exact Memory.read_writeBytes_of_inside m a bs hi

/-! ### The read of a word without stored-bit errors (R363) -/

/-- It counts and logs at most: nothing is decoded, so the pool stays as it is and the tracker counts nothing. -/
theorem readStored_pool_of_clean {s : State} {w : Nat} (kind : ReadKind) (h : KMap.find? s.pool.errs w = none) :
    (readStored s w kind).pool = s.pool := by
  simp only [readStored, meetWord, h]
  split
  · rfl
  · split <;> rfl

/-- A word that is neither poisoned nor in error is read as its stored bytes (R366). -/
theorem loadWord_of_clean {s : State} {w : Nat} (herr : KMap.find? s.pool.errs w = none) (hpoison : s.pool.poisoned w = false) :
    loadWord s w = (s.pool.bytes (8 * w) 8, false, readStored s w .plain) := by
  simp only [loadWord, readStored_pool_of_clean .plain herr, hpoison, Bool.false_eq_true, if_false]

/-! ### What a store leaves (R354, R355, R365) -/

/-- The numbered bytes of a piece, written one by one, are the piece written as a whole. -/
theorem foldl_writeByte (s : State) (a off k : Nat) (bs : List Byte) :
    ((bs.zipIdx k).map fun b => (off + b.2, b.1)).foldl (fun s b => s.onPool fun p => p.writeBytes (a + b.1) [b.2]) s =
      s.onPool fun p => p.writeBytes (a + (off + k)) bs := by
  induction bs generalizing s k with
  | nil => rfl
  | cons b r ih =>
    rw [List.zipIdx_cons, List.map_cons, List.foldl_cons, ih]
    rfl

/-- A merge stores its bytes, except that poisoned data, or bytes over a poisoned word, leave the word poisoned (R354, R355). -/
theorem mergeWord_pool_of_clean {s : State} {w : Nat} (off : Nat) (bs : List Byte) (pz : Bool) (h : KMap.find? s.pool.errs w = none) :
    (mergeWord s w (bs.zipIdx.map fun b => (off + b.2, b.1)) pz).pool =
      if pz || s.pool.poisoned w then s.pool.setPoison w true else s.pool.writeBytes (8 * w + off) bs := by
  have hread (f : Hw → Hw) : (readStored (s.onHw f) w .merge).pool = s.pool := readStored_pool_of_clean .merge h
  simp only [mergeWord, foldl_writeByte, hread]
  split
  · rw [State.onPool_pool, hread]
  · rw [State.onPool_pool, hread]; rfl

theorem wholeWord_poisoned (s : State) (w v : Nat) (bs : List Byte) (pz : Bool) :
    (wholeWord s w bs pz).pool.poisoned v = if v = w then pz else s.pool.poisoned v := by
  cases pz <;> simp [wholeWord, Pool.poisoned_setPoison]

theorem wholeWord_mem (s : State) (w : Nat) (bs : List Byte) (pz : Bool) :
    (wholeWord s w bs pz).pool.mem = if pz then s.pool.mem else Memory.writeBytes s.pool.mem (8 * w) bs := by
  cases pz <;> rfl

theorem wholeWord_errs (s : State) (w : Nat) (bs : List Byte) (pz : Bool) : KMap.find? (wholeWord s w bs pz).pool.errs w = none := by
  cases pz <;> exact KMap.find?_erase_self s.pool.errs w

/-- A store of `bs` leaves word `w` poisoned: its data is poisoned, or it merges over a poisoned word (R355). -/
def leavesPoison (s : State) (w : Nat) (bs : List Byte) (pz : Bool) : Bool := pz || (bs.length != 8 && s.pool.poisoned w)

section
variable {s : State} {w off : Nat} {bs : List Byte} {pz : Bool}

theorem storeWord_of_whole (hbs : bs.length = 8) : storeWord s w off bs pz = wholeWord s w bs pz := by simp [storeWord, hbs]

theorem storeWord_of_part (hbs : bs.length ≠ 8) :
    storeWord s w off bs pz = mergeWord s w (bs.zipIdx.map fun b => (off + b.2, b.1)) pz := by simp [storeWord, hbs]

/-- Only the stored word's poison changes, and it says what the store left there. -/
theorem storeWord_poisoned (h : KMap.find? s.pool.errs w = none) (v : Nat) :
    (storeWord s w off bs pz).pool.poisoned v = if v = w then leavesPoison s w bs pz else s.pool.poisoned v := by
  by_cases hbs : bs.length = 8
  · rw [storeWord_of_whole hbs, wholeWord_poisoned, leavesPoison, hbs]
    simp
  · rw [storeWord_of_part hbs, mergeWord_pool_of_clean off bs pz h, leavesPoison, bne_iff_ne.2 hbs, Bool.true_and]
    split
    · next hbad => rw [Pool.poisoned_setPoison, hbad]
    · next hgood =>
      obtain ⟨-, hclean⟩ := Bool.or_eq_false_iff.1 (Bool.eq_false_iff.2 hgood)
      split
      · next hv => rw [hv, Bool.eq_false_iff.2 hgood, Pool.writeBytes_poisoned, hclean]
      · rfl

/-- The bytes are stored unless the word is left poisoned, which changes no byte. -/
theorem storeWord_mem (hfit : off + bs.length ≤ 8) (h : KMap.find? s.pool.errs w = none) :
    (storeWord s w off bs pz).pool.mem =
      if leavesPoison s w bs pz then s.pool.mem else Memory.writeBytes s.pool.mem (8 * w + off) bs := by
  by_cases hbs : bs.length = 8
  · obtain rfl : off = 0 := by omega
    rw [storeWord_of_whole hbs, wholeWord_mem, leavesPoison, hbs]
    simp
  · rw [storeWord_of_part hbs, mergeWord_pool_of_clean off bs pz h, leavesPoison, bne_iff_ne.2 hbs, Bool.true_and]
    split <;> rfl

end

/-- A whole clean word is read back as stored, whatever the word held (R365, R366). -/
theorem loadWord_wholeWord (s : State) (w : Nat) {bs : List Byte} (hbs : bs.length = 8) :
    loadWord (wholeWord s w bs false) w = (bs, false, readStored (wholeWord s w bs false) w .plain) := by
  have hpoison : (wholeWord s w bs false).pool.poisoned w = false := (wholeWord_poisoned s w w bs false).trans (if_pos rfl)
  rw [loadWord_of_clean (wholeWord_errs s w bs false) hpoison, Pool.bytes_of_written hbs (wholeWord_mem s w bs false)]

/-- Settles O9: `loadWord_wholeWord` for the word read back, and `storeWord_mem` and `storeWord_poisoned` for what a store leaves. -/
theorem wordsReadAsStored : Obligations.WordsReadAsStored := by
  intro s w off bs pz hfit
  refine ⟨?readBack, fun hclean => ⟨?poisoned, ?stored, ?otherBytes, ?otherPoison⟩⟩
  case readBack =>
    rintro hbs rfl
    rw [storeWord_of_whole hbs, loadWord_wholeWord s w hbs]
    exact ⟨rfl, rfl⟩
  case poisoned =>
    rintro rfl
    exact ⟨(storeWord_poisoned hclean w).trans (if_pos rfl), storeWord_mem hfit hclean⟩
  case stored =>
    rintro - rfl hword i hi
    have hkept : leavesPoison s w bs false = false := by simp [leavesPoison, hword]
    rw [storeWord_mem hfit hclean, hkept, if_neg Bool.false_ne_true, Memory.read_writeBytes_of_inside _ _ _ hi]
    simp [hi]
  case otherBytes =>
    intro a ha
    rw [storeWord_mem hfit hclean]
    split
    · rfl
    · exact Memory.read_writeBytes_of_outside _ _ _ ha
  case otherPoison =>
    intro v hv
    exact (storeWord_poisoned hclean v).trans (if_neg hv)

end Sys2Proof.Machine
end

section
/-!
PROOFS. The memory controllers: their commands, slots, refresh, power-down, hot words and training (R338–R359).
-/
namespace Sys2Proof.Machine
open Sys2Proof

/-- What an event that touches the module alone, and sends no mirror record, makes of it. -/
theorem next_onHw {s : State} {f g : Hw → Hw} (h : f s.hw = g s.hw) : (.next (s.onHw f) : Result) = .next (s.onHw g) := by
  simp only [State.onHw, h]

theorem modPc_congr {h : Hw} {t k : Nat} {f g : PseudoChannel → PseudoChannel} (hf : f ((h.slice t).pc k) = g ((h.slice t).pc k)) :
    modPc h t k f = modPc h t k g := by simp only [modPc, hf]

/-! ### MEM.CONFIG, MEM.QUERY and MEM.RETRAIN (R352, R358, R359) -/

section
variable {s : State} {m : Fin 16}

theorem execMemConfig_of_accepted {mask age idle pp : Nat} (ha : Asks s m 0x801 [.f 32, .f 16, .f 20, .f 4] false [mask, age, idle, pp])
    (hmask : mask ≠ 0) (hage : 250 ≤ age ∧ age ≤ 65000) (hidle : idle = 0 ∨ 100 ≤ idle ∧ idle ≤ 1000000) (hpp : pp ≤ 8) :
    execMemConfig m s = .next (served s m fun h => forAll (bitsOf 32 mask) (fun t h =>
      h.setSlice t { h.slice t with ageLimit := age, pdIdle := idle, postpone := pp }) h) := by
  obtain ⟨hlow, hhigh⟩ := hage
  have hidle' : (idle == 0 || (decide (100 ≤ idle) && decide (idle ≤ 1000000))) = true := by simpa using hidle
  refine congrArg Host.Outcome.next (runHw_served _ ha ?_)
  simp only [theRequest, Req.p, List.getD_cons_zero, List.getD_cons_succ, beq_false_of_ne hmask, Nat.not_lt.2 hlow, Nat.not_lt.2 hhigh,
    hidle', Nat.not_lt.2 hpp, decide_false, Bool.not_true, Bool.or_self, Bool.false_eq_true, if_false]

theorem execMemQuery_of_slice {t : Nat} (ha : Asks s m 0x802 [.f 8] false [t]) (ht : t < 32) :
    execMemQuery m s = .next (served s m id (Reply.ok (memRecord s.hw t))) :=
  congrArg Host.Outcome.next (runHw_served id ha (if_neg (Nat.not_lt.2 (Nat.le_of_lt_succ ht))))

/-- Where all that are named serve, none is in a state that only others can have. -/
theorem any_state_of_serving {h : Hw} {ids : List Nat} (f : Nat → Bool) (hf : f 2 = false ∧ f 3 = false)
    (hserve : ids.all (fun i => ((h.slice (i / 16)).pc (i % 16)).serves) = true) :
    (ids.map fun i => (h.slice (i / 16)).pc (i % 16)).any (fun p => f p.state) = false := by
  obtain ⟨hhalf, hfull⟩ := hf
  rw [List.any_map, List.any_eq_false]
  intro i hi
  have hstate := List.all_eq_true.1 hserve i hi
  rw [PseudoChannel.serves, Bool.or_eq_true, beq_iff_eq, beq_iff_eq] at hstate
  rcases hstate with hstate | hstate <;> simp [hstate, hhalf, hfull]

/-- MEM.RETRAIN of pseudo-channels that serve, for a full sweep only in slices out of service, takes them out of service (R352, R353). -/
theorem memRetrain_of_serving {q : Req} {h : Hw} {ids : List Nat}
    (hids : (bitsOf 64 (q.p 1)).map (fun i => 16 * (4 * q.p 0 + i / 16) + i % 16) = ids) (hsome : ids ≠ [])
    (hserve : ids.all (fun i => ((h.slice (i / 16)).pc (i % 16)).serves) = true)
    (hfull : q.p 2 = 1 → ids.any (fun i => (h.slice (i / 16)).enabled) = false) :
    memRetrain q h = (setWork (forAll ids (fun i h => modPc h (i / 16) (i % 16) startRetrain) h) q.m 0x803 ids (q.p 2 :: ids), none) := by
  have hopen : (q.p 2 == 1 && ids.any (fun i => (h.slice (i / 16)).enabled)) = false := by
    rw [Bool.and_eq_false_imp, beq_iff_eq]
    exact hfull
  simp only [memRetrain, hids, List.isEmpty_eq_false_iff.2 hsome, hopen,
    any_state_of_serving (fun n => n == 5 || n == 0 || n == 6) ⟨rfl, rfl⟩ hserve, any_state_of_serving (· == 4) ⟨rfl, rfl⟩ hserve,
    Bool.false_eq_true, if_false]

end

/-! ### Slots (R338, R353) -/

section
variable {s : State} {t k : Nat} {g : Hw}

/-- While a pseudo-channel retrains, its slot only makes what waits grow older (R353). -/
theorem mcsSlot_of_retraining {h : Hw} (hstate : ((h.slice t).pc k).state = 4) :
    mcsSlot h t k = (modPc h t k fun p => slotPasses p (if p.back = 3 then 1 else 2), none) := by
  simp only [mcsSlot, PseudoChannel.serves, hstate, Nat.reduceBEq, Bool.or_self, Bool.false_and, Bool.false_eq_true, if_false,
    if_true, beq_iff_eq, modPc]

theorem slotIssued_of_unwiped (hslot : mcsSlot s.hw t k = (g, none)) : slotIssued t k s = s.onHw fun _ => g := by
  simp only [slotIssued, hslot, State.onHw]

theorem slotIssued_of_wiped {b : Nat} (hslot : mcsSlot s.hw t k = (g, some b)) :
    slotIssued t k s = (s.onHw fun _ => g).onPool fun p => p.wipe (blockAt t k b) (blockAt t k b + 256) := by
  simp only [slotIssued, hslot, State.onHw]

end

/-! ### Refresh, power-down and hot words (R344, R346, R356) -/

/-- A refresh is postponed for a bank with requests, while the debt stays below REF_POSTPONE (R344). -/
theorem refreshDue_of_postponed {p : PseudoChannel} {b trefi postpone : Nat} (hbank : p.queue.any (fun r => r.bank == b) = true)
    (hdebt : (p.bank b).debt + 1 < (p.bank b).postpone) (hpd : p.pd = false) :
    refreshDue p b trefi postpone = { p with debtHigh := Nat.max p.debtHigh (Nat.min ((p.bank b).debt + 1) 8) }.setBank b
      { p.bank b with debt := (p.bank b).debt + 1, trefi := trefi, postpone := postpone } := by
  simp only [refreshDue, PseudoChannel.queued, hbank, hpd, Bool.not_true, Bool.false_eq_true, if_false]
  exact if_pos hdebt

theorem mcsRefresh_of_serving {h : Hw} {t k b : Nat} (hserve : ((h.slice t).pc k).serves = true) :
    mcsRefresh h t k b = modPc h t k fun p => refreshDue p b (trefiAt h t) (h.slice t).postpone := by
  simp only [mcsRefresh, hserve, if_true, modPc]

/-- PD_IDLE after its last request a pseudo-channel sleeps (R346). -/
theorem powerDown_of_idle {p : PseudoChannel} (hserve : p.serves = true) (hlimit : p.pdIdle ≠ 0) (hqueue : p.queue = [])
    (hpd : p.pd = false) : powerDown p = { p with pd := true, pdEntries := satInc 32 p.pdEntries } := by
  simp only [powerDown, hserve, bne_iff_ne.2 hlimit, hqueue, hpd, List.isEmpty_nil, Bool.not_false, Bool.and_self, if_true]

theorem hotWordIdle_of_held {h : Hw} {t w : Nat} (hw : w ∈ (h.slice t).hot) (ht : tileOf (16 * w) = t) :
    hotWordIdle h t w = hotWritten h w := by
  simp only [hotWordIdle, List.contains_iff_mem.2 hw, ht, beq_self_eq_true, Bool.and_self, if_true]

/-! ### Training (R352, R353) -/

/-- A quick retrain in which every lane passes: the pseudo-channel takes the new delays and serves again at its former rate (R352, R353). -/
theorem retrainDone_of_quick {h : Hw} {t k : Nat} {ws : List Sweep} {q : PseudoChannel} (hstate : ((h.slice t).pc k).state = 4)
    (hquick : retrainsFully h t k = false) (hpass : sweepAll quickLane ((h.slice t).pc k) ws = (q, true)) :
    retrainDone h t k ws = settleRetrain (retrainLeft
      (modPc h t k fun p => { q with state := p.back, lastFail := false, retrains := satInc 32 p.retrains }) t k) := by
  simp only [retrainDone, hstate, hquick, hpass, bne_self_eq_false, Bool.false_and, Bool.not_true, Bool.false_eq_true, if_false, if_true]
  rfl

/-- Settles O34: the commands, the slot and each event have one lemma above for the form that the statement gives. -/
theorem memoryControllersComplete : Obligations.MemoryControllersComplete := by
  refine ⟨?config, ?query, ?retrain, ?slot, ?wipe, ?waits, ?refresh, ?rfm, ?rowClose, ?temperature, ?sleep, ?hotWord, ?retrained⟩
  case config =>
    intro s m mask age idle pp ha hmask hage hidle hpp
    exact execMemConfig_of_accepted ha hmask hage hidle hpp
  case query =>
    intro s m t ha ht
    exact execMemQuery_of_slice ha ht
  case retrain =>
    intro s m st mask mode ids ha hids hsome hserve hfull
    refine congrArg Host.Outcome.next (runHw_unanswered ha ?_)
    exact memRetrain_of_serving (q := theRequest s m [st, mask, mode]) hids hsome hserve hfull
  case slot =>
    intro s t k r hserve hclk hdue hqueue hlast hchoice hwipes hup hnone
    refine congrArg Host.Outcome.next (slotIssued_of_unwiped ?_)
    rw [mcsSlot_last hserve hclk hdue hqueue hlast hchoice hwipes hup, hnone]
  case wipe =>
    intro s t k r b hserve hclk hdue hqueue hlast hchoice hwipes hup hsome
    refine congrArg Host.Outcome.next (slotIssued_of_wiped ?_)
    rw [mcsSlot_last hserve hclk hdue hqueue hlast hchoice hwipes hup, hsome]
  case waits =>
    intro s t k hstate
    exact congrArg Host.Outcome.next (slotIssued_of_unwiped (mcsSlot_of_retraining hstate))
  case refresh =>
    intro s t k b hserve hbank hdebt hpd
    exact next_onHw ((mcsRefresh_of_serving hserve).trans (modPc_congr (refreshDue_of_postponed hbank hdebt hpd)))
  case rfm =>
    intro s t k b
    exact exec_rfmRequest t k b s
  case rowClose =>
    intro s t k b
    exact exec_rowCloseTimer t k b s
  case temperature =>
    intro s x c hc
    have hmin : Nat.min c 255 = c := Nat.min_eq_left hc
    rw [exec_stackTemperatureChange, execStackTemperatureChange, hmin]
  case sleep =>
    intro s t k hserve hlimit hqueue hpd
    exact next_onHw (modPc_congr (powerDown_of_idle hserve hlimit hqueue hpd))
  case hotWord =>
    intro s t w hw ht
    refine next_onHw ((hotWordIdle_of_held hw ht).trans ?_)
    rw [hotWritten, ht]
  case retrained =>
    intro s t k ws q hstate hquick hpass
    exact commit_resumed (retrainDone_of_quick hstate hquick hpass)

end Sys2Proof.Machine
end

section
/-!
PROOFS. Memory errors: the MEM.ECC, MEM.REMAP and MEM.PPR commands and the row tracker's window (R369–R376).
-/
namespace Sys2Proof.Machine
open Sys2Proof

/-- Two changes of the module are one. -/
theorem onHw_onHw (s : State) (f g : Hw → Hw) : (s.onHw f).onHw g = s.onHw fun h => g (f h) := rfl

/-- A command that reads or changes the pool, and answers at once: the answer follows its change. -/
theorem runCommand_answered {s u : State} {m op : Nat} {params : List Param} {query : Bool} {vals : List Nat}
    {body : Req → State → State × Option Reply} {r : Reply} (ha : Asks s m op params query vals)
    (hb : body (theRequest s m vals) s = (u, some r)) : runCommand s m op params query body = u.onHw fun h => answer h m r := by
  rw [runCommand_of_asks body ha, hb]

/-! ### MEM.ECC (R375, R376) -/

section
variable {s : State} {m : Fin 16}

theorem execMemEccConfig_of_accepted {mask lim win : Nat} (ha : Asks s m 0x804 [.f 32, .f 8, .f 16] false [mask, lim, win])
    (hmask : mask ≠ 0) (hwin : 1 ≤ win ∧ win ≤ 60000) :
    execMemEccConfig m s = .next (served s m fun h => forAll (bitsOf 32 mask) (fun t h =>
      h.setSlice t { h.slice t with rowCeLimit := lim, trackWindow := win }) h) := by
  obtain ⟨hlow, hhigh⟩ := hwin
  refine congrArg Host.Outcome.next (runHw_served _ ha ?_)
  simp only [theRequest, Req.p, List.getD_cons_zero, List.getD_cons_succ, beq_false_of_ne hmask, Nat.not_lt.2 hlow, Nat.not_lt.2 hhigh,
    decide_false, Bool.or_self, Bool.false_eq_true, if_false]

theorem execMemEccQuery_of_slice {t : Nat} (ha : Asks s m 0x805 [.f 8] false [t]) (ht : t < 32) :
    execMemEccQuery m s = .next (served s m id (Reply.ok (eccItems (s.hw.slice t)))) :=
  congrArg Host.Outcome.next (runHw_served id ha (if_neg (Nat.not_lt.2 (Nat.le_of_lt_succ ht))))

end

/-! ### MEM.REMAP and MEM.PPR (R372–R374) -/

section
variable {s : State} {q : Req} {t k bank row i : Nat}

/-- ACTION 0 maps a row without an entry to a free spare (R371, R374). -/
theorem memRemap_of_free {sp : Nat} (hvals : q.vals = [t, 0, k, bank, row]) (hnew : remapAt (s.hw.slice t) k bank row = none)
    (hfree : freeRemap (s.hw.slice t) k = some (i, sp)) :
    memRemap q s = (remapInto s t k bank row i sp false, some Reply.ok) := by
  simp only [memRemap, Req.p, hvals, List.getD_cons_zero, List.getD_cons_succ, hnew, hfree, beq_self_eq_true, Option.isSome_none,
    Bool.false_eq_true, if_true, if_false]

/-- ACTION 1 frees the entry of a row that has one (R374). -/
theorem memRemap_of_mapped (hvals : q.vals = [t, 1, k, bank, row]) (hat : remapAt (s.hw.slice t) k bank row = some i) :
    memRemap q s = (freeRow s t k bank row, some Reply.ok) := by
  simp only [memRemap, Req.p, hvals, List.getD_cons_zero, List.getD_cons_succ, hat, Nat.reduceBEq, Option.isNone_some,
    Bool.false_eq_true, if_false]

/-- The stack has told how a post-package repair went, which takes a free value (log entry 3). -/
def stackTold (s : State) : State := s.onHw fun h => (freshBits 2 h).2

/-- A soft repair of a row of slice `t` counts in its pseudo-channel and enters the repair record (R372, R373). -/
def countSoftRepair (t k : Nat) (e : RepairEntry) (h : Hw) : Hw :=
  let h := modPc h t k fun p => eccCount p 7
  recordRepairs { h with bist := { h.bist with repairs := h.bist.repairs ++ [e] } }

/-- A soft repair that the stack reports done takes the place of the row's remap entry (R372). -/
theorem memPpr_of_repaired (hvals : q.vals = [t, k, bank, row, 0]) (hat : remapAt (s.hw.slice t) k bank row = some i)
    (htold : (freshBits 2 s.hw).1 = 0) :
    memPpr q s = ((freeRow (stackTold s) t k bank row).onHw
      (countSoftRepair t k (rowRepair 3 t k bank row (KMap.get (s.hw.slice t).remaps i).spare)), some Reply.ok) := by
  simp only [memPpr, Req.p, hvals, List.getD_cons_zero, List.getD_cons_succ, hat, htold, Nat.reduceBEq, Nat.reduceLeDiff, Nat.add_zero,
    Bool.false_and, Bool.false_eq_true, if_false, stackTold, State.onHw, countSoftRepair]

/-- Any other report refuses a soft repair, and leaves the row's remap entry in place (R372). -/
theorem memPpr_of_unrepaired (hvals : q.vals = [t, k, bank, row, 0]) (hat : remapAt (s.hw.slice t) k bank row = some i)
    (htold : (freshBits 2 s.hw).1 ≠ 0) : memPpr q s = (stackTold s, some (Reply.denied rResource)) := by
  by_cases hone : (freshBits 2 s.hw).1 = 1
  · simp only [memPpr, Req.p, hvals, List.getD_cons_zero, List.getD_cons_succ, hat, hone, beq_self_eq_true, if_true, stackTold, State.onHw]
  · have hfailed : 2 ≤ (freshBits 2 s.hw).1 := by omega
    simp only [memPpr, Req.p, hvals, List.getD_cons_zero, List.getD_cons_succ, hat, beq_false_of_ne hone, hfailed, Nat.reduceBEq,
      Bool.false_and, Bool.false_eq_true, if_false, if_true, stackTold, State.onHw]

end

/-- Settles O35: each command has its lemmas above for the requests that it accepts (what the stack tells of a repair is a free value,
log entry 3), and the window's end is one change of the tracker. -/
theorem memoryErrorsComplete : Obligations.MemoryErrorsComplete := by
  refine ⟨?eccConfig, ?eccQuery, ?remap, ?free, ?repair, ?window⟩
  case eccConfig =>
    intro s m mask lim win ha hmask hwin
    exact execMemEccConfig_of_accepted ha hmask hwin
  case eccQuery =>
    intro s m t ha ht
    exact execMemEccQuery_of_slice ha ht
  case remap =>
    intro s m t k bank row i sp ha hnew hfree
    exact congrArg Host.Outcome.next (runCommand_answered ha (memRemap_of_free rfl hnew hfree))
  case free =>
    intro s m t k bank row i ha hat
    exact congrArg Host.Outcome.next (runCommand_answered ha (memRemap_of_mapped rfl hat))
  case repair =>
    intro s m t k bank row i ha hat
    refine congrArg Host.Outcome.next ?_
    by_cases htold : (freshBits 2 s.hw).1 = 0
    · rw [runCommand_answered ha (memPpr_of_repaired rfl hat htold), onHw_onHw]
      exact (if_pos htold).symm
    · rw [runCommand_answered ha (memPpr_of_unrepaired rfl hat htold)]
      exact (if_neg htold).symm
  case window =>
    intro s t k bank row
    exact exec_trackWindowExpiry t k bank row s

end Sys2Proof.Machine
end

section
/-!
PROOFS. Bring-up, step by step, and a poisoned fetch of the Zenith core (R377, R550–R565).
-/
namespace Sys2Proof.Machine
open Sys2Proof

section
variable {h : Hw}

/-! ### Steps 2 and 3 (R550, R558, R560) -/

/-- With no TRIAL slot selected the ROM takes the selected slot if it is valid, else the other, which UE 0x34 reports (R558). -/
theorem bootSelect_of_confirmed (hstep : h.sys.step = 1) (hphase : h.sys.phase = 0) (htrial : (selection h.fw.flash).2.1 = false) :
    bootSelect h =
      if slotValid h (selection h.fw.flash).1 then imageLoaded h (selection h.fw.flash).1 false
      else if slotValid h (1 - (selection h.fw.flash).1) then
        logOpen (imageLoaded h (1 - (selection h.fw.flash).1) false) 162 2 0x34 none (some 0)
      else bootFailed h := by
  simp only [bootSelect, hstep, hphase, htrial, bne_self_eq_false, Bool.or_self, Bool.false_eq_true, if_false]

theorem gokomosStart_of_loaded {k : Nat × Bool} (hstep : h.sys.step = 2) (hphase : h.sys.phase = 0) (hloaded : h.sys.loaded = some k) :
    gokomosStart h =
      let g := applyConfig (writeSysFw (h.onSys fun x => { x with phase := 1, step := 3 }) k.1 k.2)
      let g := g.onBist fun b => { b with repairs := b.repairs ++ (recordedRepairs g.fw.flash).filter (fun r => r.kind == 0) }
      g.setRegion 0 (systemRegion g) := by
  simp only [gokomosStart, hstep, hphase, hloaded, bne_self_eq_false, Bool.or_self, Bool.false_eq_true, if_false]

/-! ### Self-test and training (R550, R554, R565) -/

/-- A block that no outcome names passed (log entry 17). -/
theorem bootTestDone_of_running (os : List TestOutcome) (hstep : h.sys.step = 3) (hphase : h.sys.phase = 1) :
    bootTestDone h os =
      let all := bootBlocks.map fun b => (List.find? (fun (o : TestOutcome) => o.block == b.1 && o.index == b.2) os).getD { block := b.1, index := b.2 }
      let g := all.foldl bootTested h
      startTraining (startFabric { g with fw := { g.fw with keyLoaded := true } }) 0 := by
  simp only [bootTestDone, hstep, hphase, bne_self_eq_false, Bool.or_self, Bool.false_eq_true, if_false]

/-- The stack in turn, not the last, hands on to the next (R550 step 6). -/
theorem stackHalfDone_of_turn {k : Nat} (ws : List Sweep) (hstep : h.sys.step = 5) (hturn : k = h.sys.halfDone.length) (hlast : k < 7) :
    stackHalfDone h k ws = startTraining ((halfRate h k ws).onSys fun x => { x with halfDone := x.halfDone ++ [k] }) (k + 1) := by
  simp only [stackHalfDone, hstep, ← hturn, beq_false_of_ne (Nat.ne_of_lt hlast), bne_self_eq_false, Bool.or_self, Bool.false_eq_true,
    if_false]

/-- A stack's full-rate sweep that is not the last to end leaves the step (R554). -/
theorem fullRateDone_of_others {s : State} {k : Nat} {ws : List Sweep} (hstep : s.hw.sys.step = 6)
    (hnew : s.hw.sys.fullDone.contains k = false) (hothers : ((fullRate s.hw k ws).sys.fullDone ++ [k]).length ≠ 8) :
    fullRateDone s k ws = s.onHw fun h => (fullRate h k ws).onSys fun x => { x with fullDone := x.fullDone ++ [k] } := by
  simp only [fullRateDone, hstep, hnew, State.onHw, Hw.onSys_sys, beq_false_of_ne hothers, bne_self_eq_false, Bool.or_self,
    Bool.false_eq_true, if_false]

/-! ### The pool and the long accumulator (R550, R552, R553) -/

theorem poolZeroDone_of_written {s : State} (bad : List Nat) (hstep : s.hw.sys.step = 7) :
    poolZeroDone s bad = { s.onHw (fun h => openPool h bad) with pool := {} } := by
  simp only [poolZeroDone, hstep, bne_self_eq_false, Bool.false_eq_true, if_false]

theorem longAccDone_of_running (pass : Bool) (hstep : h.sys.step = 9) :
    longAccDone h pass =
      let g := h.onSys fun x => { x with step := 10, reduce := if pass && x.reduce != 3 then 2 else 3 }
      autoConfirm (reportFull g (g.sys.reduce == 2)) := by
  simp only [longAccDone, hstep, bne_self_eq_false, Bool.false_eq_true, if_false]

/-- The limit of step 10 fails REDUCE (R550). -/
theorem stepLimit_of_longAcc {s : State} (hfuses : s.hw.sys.fusesSensed = true) (hphase : s.hw.sys.phase = 1) (hstep : s.hw.sys.step = 9) :
    stepLimit s = s.onHw fun h => (logOpen h 162 2 0x32 (some 10) (some 0)).onSys fun x => { x with step := 10, reduce := 3 } := by
  simp only [stepLimit, hfuses, hphase, hstep, Bool.not_true, Nat.reduceBEq, Bool.or_self, Bool.false_eq_true, if_false, State.onHw]

/-! ### Poisoned code (R377) -/

/-- A poisoned word of a page of the loaded image is code (log entry 13): the page is restored if it still matches its digest. -/
theorem poisonFetch_of_imagePage {n : Nat} (hpage : n / 4096 < imagePages h.fw.flash h.sys.slot) :
    poisonFetch h n =
      if pageMatches h.fw.flash h.sys.slot (n / 4096) then logOpen h 162 2 0x30 none none
      else logOpen { h with fw := { h.fw with restart := true } } 162 3 0x31 none none := by
  simp only [poisonFetch, hpage, decide_true, Bool.true_and]

end

/-- Settles O43: each step's end has one lemma above for the state in which that step is under way (a block that no outcome names
passed, log entry 17; a page of the image is code, log entry 13). -/
theorem bringupComplete : Obligations.BringupComplete := by
  refine ⟨?start, ?selfTest, ?halfRate, ?fullRate, ?poolZero, ?longAcc, ?limit, ?select, ?poison⟩
  case start =>
    intro s k hstep hphase hloaded
    exact next_onHw (gokomosStart_of_loaded hstep hphase hloaded)
  case selfTest =>
    intro s os hstep hphase
    exact next_onHw (bootTestDone_of_running os hstep hphase)
  case halfRate =>
    intro s k ws hstep hturn hlast
    exact next_onHw (stackHalfDone_of_turn ws hstep hturn hlast)
  case fullRate =>
    intro s k ws hstep hnew hothers
    exact congrArg Host.Outcome.next (fullRateDone_of_others hstep hnew hothers)
  case poolZero =>
    intro s bad hstep
    exact congrArg Host.Outcome.next (poolZeroDone_of_written bad hstep)
  case longAcc =>
    intro s pass hstep
    exact next_onHw (longAccDone_of_running pass hstep)
  case limit =>
    intro s hfuses hphase hstep
    exact congrArg Host.Outcome.next (stepLimit_of_longAcc hfuses hphase hstep)
  case select =>
    intro s hstep hphase htrial
    exact next_onHw (bootSelect_of_confirmed hstep hphase htrial)
  case poison =>
    intro s n hphase hpage
    refine next_onHw ((if_pos ?_).trans (poisonFetch_of_imagePage hpage))
    rw [hphase, beq_self_eq_true]

end Sys2Proof.Machine
end

section
/-!
PROOFS. The coder of a lane and the receiver's inverse of each of its stages (R389, R390, R424).
-/
namespace Sys2Proof.Machine
open Sys2Proof

/-- The receiver adds the symbol before, which it has as it was sent, to what the precoder took it from (R390). -/
theorem unprecode_precodeSymbols (g : List Nat) (last : Nat) (hlast : last < 4) (hg : ∀ x ∈ g, x < 4) :
    unprecode (precodeSymbols g last) last = g := by
  induction g generalizing last with
  | nil => rfl
  | cons x r ih =>
    obtain ⟨hx, hr⟩ := List.forall_mem_cons.1 hg
    have hhead : ((x + 4 - last) % 4 + last) % 4 = x := by omega
    rw [precodeSymbols, unprecode, hhead, ih _ (Nat.mod_lt _ (by decide)) hr]

/-- Gray mapping exchanges 2 and 3, so it is its own inverse and stays within two bits (R389). -/
theorem grayBits_grayOf : ∀ p : Nat, p < 4 → grayBits (grayOf p) = p ∧ grayOf p < 4 := by decide

/-- The sequence runs on byte by byte whatever the bytes are, so both ends' registers stay in step (R424). -/
theorem scrambleBytes_register_of_length {b c : List Nat} (x : Nat) (hlength : b.length = c.length) :
    (scrambleBytes b x).2 = (scrambleBytes c x).2 := by
  induction b generalizing c x with
  | nil => rw [List.eq_nil_of_length_eq_zero hlength.symm]
  | cons v r ih =>
    cases c with
    | nil => exact absurd hlength (Nat.succ_ne_zero _)
    | cons w q => exact ih _ (Nat.succ.inj hlength)

/-- The same sequence, mixed in twice, cancels (R424). -/
theorem scrambleBytes_scrambleBytes (b : List Nat) (x : Nat) : (scrambleBytes (scrambleBytes b x).1 x).1 = b := by
  induction b generalizing x with
  | nil => rfl
  | cons v r ih => simp only [scrambleBytes, nxor_nxor_cancel, ih]

/-- Settles O15: one lemma above for each stage of the coder. -/
theorem laneCodingReverses : Obligations.LaneCodingReverses := by
  refine ⟨unprecode_precodeSymbols, grayBits_grayOf, scrambleBytes_scrambleBytes, ?register⟩
  case register =>
    intro b c x hlength
    exact scrambleBytes_register_of_length x hlength

end Sys2Proof.Machine
end

section
/-!
PROOFS. Flits that reach a link end: through its elastic buffer, forward error correction and the CRC (R397, R420, R434).
-/
namespace Sys2Proof.Machine
open Sys2Proof

section
variable {h : Hw} {n k : Nat} {f b : List Byte}

/-! ### What the elastic buffer leaves of the receiver's state (R397) -/

theorem handedOn_recover (hfill : (h.link n).rx.fill < 16) : ((handedOn h n f).link n).rx.recover = (h.link n).rx.recover := by
  rw [handedOn_link h n f hfill, heard_recover]

theorem handedOn_number (hfill : (h.link n).rx.fill < 16) : ((handedOn h n f).link n).rx.number = (h.link n).rx.number := by
  rw [handedOn_link h n f hfill, heard_number]

theorem handedOn_expected (hfill : (h.link n).rx.fill < 16) : ((handedOn h n f).link n).rx.expected = (h.link n).rx.expected := by
  rw [handedOn_link h n f hfill, heard_expected]

/-- The slots since the last flit empty the buffer by a free value (log entry 33); one that is still full discards the flit, which the
receive coders have moved past. -/
theorem handedOn_lost (hfull : 16 ≤ (h.link n).rx.fill - (freshBits 8 h).1) :
    handedOn h n f =
      let g := (freshBits 8 (modLink h n fun l => { l with rx := heard l f })).2
      raise (modLink g n fun l => { l.count 16 with rx := { l.rx with fill := (h.link n).rx.fill - (freshBits 8 h).1 } }) 0x31B
        (4 * n + (bitsOf 4 (g.link n).rxLanes).headD 0) := by
  have hfill : ((modLink h n fun l => { l with rx := heard l f }).link n).rx.fill = (h.link n).rx.fill := by
    rw [modLink_link]; rfl
  have hslots : (freshBits 8 (modLink h n fun l => { l with rx := heard l f })).1 = (freshBits 8 h).1 := by
    rw [modLink_frame]; rfl
  rw [handedOn, elastic_lost _ _ (by rwa [hfill, hslots]), hfill, hslots]

/-! ### What becomes of a flit that is handed on (R434) -/

theorem takeFlit_of_uncorrectable (hfec : flitFec f = none) : takeFlit h n f = flitFailed h n := by
  simp only [takeFlit, hfec]

/-- Link `n` counts the codewords that forward error correction corrected (R451). -/
def countCorrected (h : Hw) (n k : Nat) : Hw :=
  modLink h n fun l => { l with counts := KMap.mod l.counts 1 (fun x => satAdd 32 x k) }

theorem takeFlit_of_data (hfec : flitFec f = some (b, k)) (htype : (LinkControl.ofNat (leNat (b.take 8))).ftype = 1)
    (hrecover : (h.link n).rx.recover = false) (hcrc : crcMatches b (h.link n).rx.number = true) :
    takeFlit h n f = takeSequenced (countCorrected h n k) n (LinkControl.ofNat (leNat (b.take 8))) b := by
  simp only [takeFlit, hfec, htype, hrecover, hcrc, Nat.reduceBEq, Bool.not_true, Bool.false_eq_true, if_true, if_false, countCorrected]

theorem takeFlit_of_idle (hfec : flitFec f = some (b, k)) (htype : (LinkControl.ofNat (leNat (b.take 8))).ftype = 0)
    (hrecover : (h.link n).rx.recover = false) (hcrc : crcMatches b (h.link n).rx.number = true) :
    takeFlit h n f =
      takeControl (modLink (countCorrected h n k) n fun l => { l with rx := { l.rx with failRun := 0 } }) n
        (LinkControl.ofNat (leNat (b.take 8))) := by
  simp only [takeFlit, hfec, htype, hrecover, hcrc, Nat.reduceBEq, Bool.not_true, Bool.true_or, Bool.false_eq_true, if_true, if_false,
    countCorrected]

/-- A REPLAY_START gives its own number, no more than 512 before the flit expected, and ends the recovery. -/
theorem takeFlit_of_replayStart (hfec : flitFec f = some (b, k)) (htype : (LinkControl.ofNat (leNat (b.take 8))).ftype = 2)
    (hcrc : crcMatches b (LinkControl.ofNat (leNat (b.take 8))).rseq = true)
    (hback : ((h.link n).rx.expected + 4096 - (LinkControl.ofNat (leNat (b.take 8))).rseq) % 4096 ≤ 512) :
    takeFlit h n f =
      takeSequenced (modLink (countCorrected h n k) n fun l =>
        { l with rx := { l.rx with recover := false, number := (LinkControl.ofNat (leNat (b.take 8))).rseq } }) n
        (LinkControl.ofNat (leNat (b.take 8))) b := by
  simp only [takeFlit, hfec, htype, hcrc, Nat.not_lt.2 hback, beq_self_eq_true, Bool.not_true, Bool.false_eq_true, if_true, if_false,
    countCorrected]

end

/-- Settles O24: the elastic buffer keeps a flit while it has room (`receiveFlit_kept`), and each kind of flit has one lemma above; how far
the buffer has emptied is a free value (log entry 33). -/
theorem linkFlitsComplete : Obligations.LinkFlitsComplete := by
  refine ⟨?data, ?idle, ?replayStart, ?failed, ?lost⟩
  case data =>
    intro s n flit b k hlength hstate hfill hfec htype hrecover hcrc
    refine next_onHw ((receiveFlit_kept _ _ _ hstate hlength hfill).trans (takeFlit_of_data hfec htype ?_ ?_))
    · rw [handedOn_recover hfill, hrecover]
    · rw [handedOn_number hfill, hcrc]
  case idle =>
    intro s n flit b k hlength hstate hfill hfec htype hrecover hcrc
    refine next_onHw ((receiveFlit_kept _ _ _ hstate hlength hfill).trans (takeFlit_of_idle hfec htype ?_ ?_))
    · rw [handedOn_recover hfill, hrecover]
    · rw [handedOn_number hfill, hcrc]
  case replayStart =>
    intro s n flit b k hlength hstate hfill hfec htype hcrc hback
    refine next_onHw ((receiveFlit_kept _ _ _ hstate hlength hfill).trans (takeFlit_of_replayStart hfec htype hcrc ?_))
    rwa [handedOn_expected hfill]
  case failed =>
    intro s n flit hlength hstate hfill hfec
    exact next_onHw ((receiveFlit_kept _ _ _ hstate hlength hfill).trans (takeFlit_of_uncorrectable hfec))
  case lost =>
    intro s n flit hlength hstate hfull
    exact next_onHw ((receiveFlit_lost _ _ _ hstate hlength hfull).trans (handedOn_lost hfull))

end Sys2Proof.Machine
end

section
/-!
PROOFS. The blocks of an ACTIVE link, and how its directions sleep and wake (R396, R400–R403, R425).
-/
namespace Sys2Proof.Machine
open Sys2Proof

section
variable {h : Hw} {n : Nat}

/-! ### Fillers and markers (R396, R400, R425) -/

theorem receiveBlock_of_filler {value : Nat} {b : List Byte} (hstate : (h.link n).state = 3) (hblock : blockIs value b = true) :
    receiveBlock h n value 0 b = h := by
  simp only [receiveBlock, hstate, hblock, bne_self_eq_false, beq_self_eq_true, Bool.false_eq_true, if_false, if_true]

/-- A marker puts the receive direction into the sleep state that it names, which is not OFF. -/
theorem receiveBlock_of_marker {value sleep : Nat} {b : List Byte} (hstate : (h.link n).state = 3) (hblock : blockIs value b = true)
    (hsleep : sleep ≠ 0) :
    receiveBlock h n value sleep b = modLink h n fun l => { l with rx := { l.rx with sleep := sleep } } := by
  simp only [receiveBlock, hstate, hblock, beq_false_of_ne hsleep, bne_self_eq_false, Bool.false_eq_true, if_false, if_true]

theorem fillerSend_of_due (hstate : (h.link n).state = 3) (hsleep : (h.link n).tx.sleep = 1)
    (hdue : 4096 ≤ (h.link n).tx.sinceFiller) : fillerSend h n = modLink h n putFiller := by
  simp only [fillerSend, hstate, hsleep, hdue, beq_self_eq_true, decide_true, Bool.and_self, if_true]

/-! ### Falling asleep (R400) -/

theorem drowseTimer_of_idle (hstate : (h.link n).state = 3) (hsleep : (h.link n).tx.sleep = 1) (hon : (h.link n).drowse ≠ 0)
    (hphase : (h.link n).tr.phase = 0) (hidle : hasToSend h n = false) :
    drowseTimer h n =
      modLink h n fun l => { l.putBlock 0xF4 with slumber := l.slumberNext, tx := { (l.putBlock 0xF4).tx with sleep := 2 } } := by
  simp only [drowseTimer, hstate, hsleep, hphase, hidle, bne_iff_ne.2 hon, beq_self_eq_true, Bool.not_false, Bool.and_self, if_true]

theorem slumberTimer_of_drowse (hstate : (h.link n).state = 3) (hsleep : (h.link n).tx.sleep = 2) (hon : (h.link n).slumber ≠ 0) :
    slumberTimer h n = modLink h n fun l => { l.putBlock 0xF5 with tx := { (l.putBlock 0xF5).tx with sleep := 3 } } := by
  simp only [slumberTimer, hstate, hsleep, bne_iff_ne.2 hon, beq_self_eq_true, Bool.and_self, if_true]

/-! ### Waking (R401–R403) -/

theorem transmitWake_of_asleep (hstate : (h.link n).state = 3) (hsleep : 2 ≤ (h.link n).tx.sleep) (hsend : hasToSend h n = true) :
    transmitWake h n = wakeTransmit h n := by
  simp only [transmitWake, hstate, hsleep, hsend, beq_self_eq_true, decide_true, Bool.and_self, if_true]

/-- Where this end's transmit direction is awake, a wake pattern wakes the receive direction alone. -/
theorem wakePattern_of_receiver (hstate : (h.link n).state = 3) (hrx : 2 ≤ (h.link n).rx.sleep) (htx : (h.link n).tx.sleep < 2) :
    wakePattern h n = modLink (countWakes h n) n fun l => { l with rx := { l.rx with sleep := 1 } } := by
  simp only [wakePattern, hstate, hrx, Nat.not_le.2 htx, bne_self_eq_false, Bool.false_eq_true, if_false, if_true]

theorem wakeLate_of_active (hstate : (h.link n).state = 3) :
    wakeLate h n = enterRetrain (forAll (lanesInUse h n)
      (fun k h => raise (h.setLane k { h.lane k with wakeLate := satInc 32 (h.lane k).wakeLate }) 0x31C k) h) n := by
  simp only [wakeLate, hstate, bne_self_eq_false, Bool.false_eq_true, if_false]

end

/-- Settles O26: each block and each timer has one lemma above. -/
theorem linkSleepComplete : Obligations.LinkSleepComplete := by
  refine ⟨?filler, ?drowseMarker, ?slumberMarker, ?fillerSend, ?drowse, ?slumber, ?wake, ?pattern, ?late⟩
  case filler =>
    intro s n b hstate hblock
    exact next_onHw (g := id) (receiveBlock_of_filler hstate hblock)
  case drowseMarker =>
    intro s n b hstate hblock
    exact next_onHw (receiveBlock_of_marker hstate hblock (by decide))
  case slumberMarker =>
    intro s n b hstate hblock
    exact next_onHw (receiveBlock_of_marker hstate hblock (by decide))
  case fillerSend =>
    intro s n hstate hsleep hdue
    exact next_onHw (fillerSend_of_due hstate hsleep hdue)
  case drowse =>
    intro s n hstate hsleep hon hphase hidle
    exact next_onHw (drowseTimer_of_idle hstate hsleep hon hphase hidle)
  case slumber =>
    intro s n hstate hsleep hon
    exact next_onHw (slumberTimer_of_drowse hstate hsleep hon)
  case wake =>
    intro s n hstate hsleep hsend
    exact next_onHw (transmitWake_of_asleep hstate hsleep hsend)
  case pattern =>
    intro s n hstate hrx htx
    exact next_onHw (wakePattern_of_receiver hstate hrx htx)
  case late =>
    intro s n hstate
    exact next_onHw (wakeLate_of_active hstate)

end Sys2Proof.Machine
end

section
/-!
PROOFS. How a link trains (R387, R442–R444, R551), and its replay, CTRL and widening timers (R437, R446).
-/
namespace Sys2Proof.Machine
open Sys2Proof

section
variable {h : Hw} {n : Nat}

/-! ### Training blocks (R442, R443) -/

section
variable {b : List Byte} {t : TsBlock}

/-- The eighth valid block in a row leads from DETECT to CONFIG. -/
theorem receiveTs_of_detected (htake : tsTake b = some t) (hstate : (h.link n).state = 1) (hrun : 7 ≤ (h.link n).tr.tsRun) :
    receiveTs h n b = modLink (partnerSeen h n t) n fun l => { l with state := 2, tr := { l.tr with tsRun := 0, ready := 0 } } := by
  have heighth : 8 ≤ (h.link n).tr.tsRun + 1 := by omega
  simp only [receiveTs, htake, hstate, heighth, Nat.reduceBEq, Bool.false_eq_true, if_false, if_true, partnerSeen]

theorem receiveTs_of_detecting (htake : tsTake b = some t) (hstate : (h.link n).state = 1) (hrun : (h.link n).tr.tsRun < 7) :
    receiveTs h n b = modLink (partnerSeen h n t) n fun l => { l with tr := { l.tr with tsRun := l.tr.tsRun + 1 } } := by
  have hfew : ¬ 8 ≤ (h.link n).tr.tsRun + 1 := by omega
  simp only [receiveTs, htake, hstate, hfew, Nat.reduceBEq, Bool.false_eq_true, if_false, if_true, partnerSeen]

/-- The eighth READY leads from CONFIG to ACTIVE: sixteen of this end's own have gone out by then (log entry 17). -/
theorem receiveTs_of_ready (htake : tsTake b = some t) (hstate : (h.link n).state = 2) (htype : t.type = 2)
    (hready : 7 ≤ (h.link n).tr.ready) : receiveTs h n b = enterActive (sendTs (partnerSeen h n t) n 1 2 3) n := by
  have heighth : 8 ≤ (h.link n).tr.ready + 1 := by omega
  simp only [receiveTs, htake, hstate, htype, heighth, Nat.reduceBEq, Bool.false_eq_true, if_false, if_true, partnerSeen]

/-- An EQ block is answered, and its PASS bit is kept for its rate and lane. -/
theorem receiveTs_of_eq (htake : tsTake b = some t) (hstate : (h.link n).state = 4) (htype : t.type = 3) :
    receiveTs h n b =
      let g := answerEq (partnerSeen h n t) n t
      let p := (g.link n).tr.passing
      let k := 2 ^ (4 * (t.rate % 4) + t.lane)
      let q := if t.pass then Nat.lor p k else p - Nat.land p k
      modLink g n fun l => { l with tr := { l.tr with passing := q } } := by
  simp only [receiveTs, htake, hstate, htype, Nat.reduceBEq, Bool.true_or, Bool.false_eq_true, if_false, if_true, partnerSeen]

end

/-! ### The ends of rate training and of a retrain (R387, R394, R442) -/

section
variable {ts : List Trial}

/-- The first rate of R224, R112 and R56 that both ends offer and that every wanted lane passes. -/
def bestRate (l : Link) (ts : List Trial) : Option Nat :=
  (List.range 3).find? fun x => decide (l.rateMax ≤ x) && tbit l.tr.rates x && laneSubset (wantedLanes l) (passesBoth l ts x)

theorem rateTrainEnd_of_passed {r : Nat} (hstate : (h.link n).state = 4) (hbest : bestRate (h.link n) ts = some r) :
    rateTrainEnd h n ts =
      autoNarrow (reenterActive (setPrecode (trainLanes h n r (wantedLanes (h.link n)) ts) n r) n r (wantedLanes (h.link n))) n := by
  rw [bestRate] at hbest
  simp only [rateTrainEnd, hstate, hbest, bne_self_eq_false, Bool.false_eq_true, if_false]

/-- With no such rate the link stays at the Dawn rate on lane 0. -/
theorem rateTrainEnd_of_none (hstate : (h.link n).state = 4) (hbest : bestRate (h.link n) ts = none) :
    rateTrainEnd h n ts = reenterActive (setPrecode (trainLanes h n 3 1 ts) n 3) n 3 1 := by
  rw [bestRate] at hbest
  simp only [rateTrainEnd, hstate, hbest, bne_self_eq_false, Bool.false_eq_true, if_false]

theorem retrainEnd_of_passed {w : Nat} (hstate : (h.link n).state = 5)
    (hwidest : widestSet (Nat.land (h.link n).lanes (passesBoth (h.link n) ts (h.link n).rate)) 4 = some w) :
    retrainEnd h n ts =
      autoNarrow (reenterActive (setPrecode (trainLanes h n (h.link n).rate w ts) n (h.link n).rate) n (h.link n).rate w) n := by
  simp only [retrainEnd, hstate, hwidest, bne_self_eq_false, Bool.false_eq_true, if_false]

theorem retrainEnd_of_none (hstate : (h.link n).state = 5)
    (hwidest : widestSet (Nat.land (h.link n).lanes (passesBoth (h.link n) ts (h.link n).rate)) 4 = none) :
    retrainEnd h n ts = linkDown h n := by
  simp only [retrainEnd, hstate, hwidest, bne_self_eq_false, Bool.false_eq_true, if_false]

end

/-! ### Timers of training (R442, R449, R551) -/

theorem configTimeout_of_config (hstate : (h.link n).state = 2) : configTimeout h n = enterDetect h n :=
  if_pos (beq_iff_eq.2 hstate)

theorem downTimeout_of_free (hstate : (h.link n).state = 6) (hheld : (h.link n).held = false) (hclk : h.clk.loss = false) :
    downTimeout h n = enterDetect h n := by
  simp only [downTimeout, hstate, hheld, hclk, beq_self_eq_true, Bool.not_false, Bool.and_self, if_true]

/-- A link that HOLD_DAWN does not name leaves the Dawn rate. -/
theorem dawnRateReq_of_due (hstate : (h.link n).state = 3) (hrate : (h.link n).rate = 3) (hdue : (h.link n).tr.rateDue = true)
    (hhold : tbit h.sys.holdDawn n = false) : dawnRateReq h n = enterRateTrain (sendCtrl h n 5 0 0) n := by
  simp only [dawnRateReq, hstate, hrate, hdue, hhold, beq_self_eq_true, Bool.and_false, Bool.not_false, Bool.and_self, if_true]

/-! ### The replay timer and the CTRL timers (R437, R446) -/

theorem replayTimer_of_outstanding (hstate : (h.link n).state = 3) (hsleep : (h.link n).rx.sleep = 1)
    (hbuffer : (h.link n).tx.buffer ≠ []) : replayTimer h n = replayTrigger h n true := by
  have hkept : (h.link n).tx.buffer.isEmpty = false := List.isEmpty_eq_false_iff.2 hbuffer
  simp only [replayTimer, hstate, hsleep, hkept, beq_self_eq_true, Bool.not_false, Bool.and_self, if_true]

theorem resendCtrl_of_waiting {c i w : Nat} (hstate : (h.link n).state = 3) (hctrl : (h.link n).tx.ctrl = some (c, i, w)) :
    resendCtrl h n = sendCtrl h n c i w := by
  simp only [resendCtrl, hctrl, hstate, beq_self_eq_true, if_true]

theorem ctrlTimeout_of_widthReq {i w : Nat} (hstate : (h.link n).state = 3) (hctrl : (h.link n).tx.ctrl = some (1, i, w)) :
    ctrlTimeout h n = dropChange h n := by
  simp only [ctrlTimeout, hctrl, hstate, beq_self_eq_true, if_true]

theorem ctrlTimeout_of_retrainReq {i w : Nat} (hctrl : (h.link n).tx.ctrl = some (4, i, w)) : ctrlTimeout h n = enterRetrain h n := by
  simp only [ctrlTimeout, hctrl]

/-! ### Widening (R446) -/

/-- The lanes that the width change under way on a link adds. -/
def addedLanes (l : Link) : Nat := l.tr.lanes - Nat.land l.tr.lanes l.lanes

section
variable {ts : List Trial}

/-- The partner of a width request answers once its added lanes pass. -/
theorem widenPass_of_answerer (hstate : (h.link n).state = 3) (hmine : (h.link n).tr.mine = false) (hphase : (h.link n).tr.phase = 2)
    (hpass : laneSubset (addedLanes (h.link n)) (passingLanes ts (h.link n).rate) = true) :
    widenPass h n ts = ackWidth (trainLanes h n (h.link n).rate (addedLanes (h.link n)) ts) n := by
  rw [addedLanes] at hpass
  simp only [widenPass, hstate, hmine, hphase, hpass, addedLanes, bne_self_eq_false, beq_self_eq_true, Bool.not_true, Bool.not_false,
    Bool.or_self, Bool.and_self, Bool.false_eq_true, if_false, if_true]

/-- The requester moves once its added lanes pass, the WIDTH_ACK in hand. -/
theorem widenPass_of_requester (hstate : (h.link n).state = 3) (hmine : (h.link n).tr.mine = true) (hphase : (h.link n).tr.phase = 4)
    (hpass : laneSubset (addedLanes (h.link n)) (passingLanes ts (h.link n).rate) = true) :
    widenPass h n ts = goWidth (trainLanes h n (h.link n).rate (addedLanes (h.link n)) ts) n := by
  rw [addedLanes] at hpass
  simp only [widenPass, hstate, hmine, hphase, hpass, addedLanes, bne_self_eq_false, beq_self_eq_true, Bool.not_true, Bool.false_and,
    Bool.or_self, Bool.and_self, Bool.false_eq_true, if_false, if_true]

end

theorem widenTimeout_of_answerer (hstate : (h.link n).state = 3) (hmine : (h.link n).tr.mine = false)
    (hphase : (h.link n).tr.phase = 2) :
    widenTimeout h n = onWidthAbandon (sendCtrl h n 6 (h.link n).tr.reqId (h.link n).tr.lanes) n := by
  simp only [widenTimeout, hstate, hmine, hphase, beq_self_eq_true, Bool.not_false, Bool.and_self, Bool.true_or, if_true]

end

/-- Settles O27: each block, end and timer has one lemma above for the state of the link that it finds (that the eighth READY received
suffices is log entry 17). -/
theorem linkTrainingComplete : Obligations.LinkTrainingComplete := by
  refine ⟨?detected, ?detecting, ?ready, ?eq, ?rateEnd, ?rateNone, ?retrainEnd, ?retrainNone, ?config, ?down, ?dawn⟩
  case detected =>
    intro s n b t htake hstate hrun
    exact next_onHw (receiveTs_of_detected htake hstate hrun)
  case detecting =>
    intro s n b t htake hstate hrun
    exact next_onHw (receiveTs_of_detecting htake hstate hrun)
  case ready =>
    intro s n b t htake hstate htype hready
    exact next_onHw (receiveTs_of_ready htake hstate htype hready)
  case eq =>
    intro s n b t htake hstate htype
    exact next_onHw (receiveTs_of_eq htake hstate htype)
  case rateEnd =>
    intro s n ts r hstate hbest
    exact next_onHw (rateTrainEnd_of_passed hstate hbest)
  case rateNone =>
    intro s n ts hstate hbest
    exact next_onHw (rateTrainEnd_of_none hstate hbest)
  case retrainEnd =>
    intro s n ts w hstate hwidest
    exact next_onHw (retrainEnd_of_passed hstate hwidest)
  case retrainNone =>
    intro s n ts hstate hwidest
    exact next_onHw (retrainEnd_of_none hstate hwidest)
  case config =>
    intro s n hstate
    exact next_onHw (configTimeout_of_config hstate)
  case down =>
    intro s n hstate hheld hclk
    exact next_onHw (downTimeout_of_free hstate hheld hclk)
  case dawn =>
    intro s n hstate hrate hdue hhold
    exact next_onHw (dawnRateReq_of_due hstate hrate hdue hhold)

/-- Settles O28: each timer has one lemma above for what it finds under way. -/
theorem linkTimersComplete : Obligations.LinkTimersComplete := by
  refine ⟨?replay, ?resend, ?widthReq, ?retrainReq, ?answerer, ?requester, ?abandon⟩
  case replay =>
    intro s n hstate hsleep hbuffer
    exact next_onHw (replayTimer_of_outstanding hstate hsleep hbuffer)
  case resend =>
    intro s n c i w hstate hctrl
    exact next_onHw (resendCtrl_of_waiting hstate hctrl)
  case widthReq =>
    intro s n i w hstate hctrl
    exact next_onHw (ctrlTimeout_of_widthReq hstate hctrl)
  case retrainReq =>
    intro s n i w hctrl
    exact next_onHw (ctrlTimeout_of_retrainReq hctrl)
  case answerer =>
    intro s n ts hstate hmine hphase hpass
    exact next_onHw (widenPass_of_answerer hstate hmine hphase hpass)
  case requester =>
    intro s n ts hstate hmine hphase hpass
    exact next_onHw (widenPass_of_requester hstate hmine hphase hpass)
  case abandon =>
    intro s n hstate hmine hphase
    exact next_onHw (widenTimeout_of_answerer hstate hmine hphase)

end Sys2Proof.Machine
end

section
/-!
PROOFS. The eye, and what light, heat and laser power do to the gates of an optical link (R393–R395, R406–R410).
-/
namespace Sys2Proof.Machine
open Sys2Proof

/-! ### The eye (R393–R395) -/

/-- The fourth window in a row below EFM_LOW makes a lane DEGRADED, and its link may ask for fewer lanes (R395, R447). -/
theorem efmWindow_of_degrading {h : Hw} {k swing : Nat} {eyes : List (Int × Int)} (hstate : (h.link (k / 4)).state = 3)
    (huse : tbit (h.link (k / 4)).lanes (k % 4) = true) (hsleep : (h.link (k / 4)).rx.sleep = 1) (hswing : swing ≠ 0)
    (hgood : (h.lane k).degraded = false) (hefm : efmOf eyes swing < efmLow (h.link (k / 4))) (hlow : 3 ≤ (h.lane k).low) :
    efmWindow h k eyes swing =
      let g := adapt h k
      let x := g.lane k
      autoNarrow (raise (g.setLane k { x with
        efm := efmOf eyes swing, efmMin := Nat.min x.efmMin (efmOf eyes swing), low := x.low + 1, high := 0, degraded := true
        degrades := satInc 32 x.degrades }) 0x31A k) (k / 4) := by
  have hkept : ((adapt h k).lane k).low = (h.lane k).low := by rw [adapt_lane]
  have hmin : ((adapt h k).lane k).efmMin = (h.lane k).efmMin := by rw [adapt_lane]
  have hfourth : 4 ≤ (h.lane k).low + 1 := by omega
  have hnothigh : ¬ efmLow (h.link (k / 4)) + 4 ≤ efmOf eyes swing := by omega
  simp only [efmWindow, hstate, huse, hsleep, beq_false_of_ne hswing, hefm, hfourth, hnothigh, hkept, hmin, adapt_degraded,
    hgood, bne_self_eq_false, Bool.not_true, Bool.not_false, Bool.or_self, Bool.and_self, decide_true, Bool.false_eq_true, if_false,
    if_true]

/-! ### Light (R406, R409) -/

section
variable {h : Hw} {n : Nat} {power : List Int}

/-- With AUTO_SHUT, a link without light on any lane has its OPEN gate SHUT and goes down. -/
theorem losTimeout_of_dark (hopt : 16 ≤ n) (hgate : ((senseLight h n power).link n).gate = 1)
    (hauto : ((senseLight h n power).link n).autoShut = true) (hdark : allDark (senseLight h n power) n = true) :
    losTimeout h n power =
      let g := setGate (senseLight h n power) n 2
      linkDown (raise (g.setEngine (engineOf n) { g.engine (engineOf n) with shuts := satInc 32 (g.engine (engineOf n)).shuts }) 0x31E n)
        n := by
  simp only [losTimeout, hopt, hgate, hauto, hdark, beq_self_eq_true, decide_true, Bool.and_self, if_true]

theorem losEnd_of_shut (hopt : 16 ≤ n) (hgate : ((senseLight h n power).link n).gate = 2)
    (hlight : allLight (senseLight h n power) n = true) : losEnd h n power = setGate (senseLight h n power) n 1 := by
  simp only [losEnd, hopt, hgate, hlight, beq_self_eq_true, decide_true, Bool.true_or, Bool.and_self, if_true]

theorem shutProbe_of_shut (hopt : 16 ≤ n) (hgate : (h.link n).gate = 2) :
    shutProbe h n =
      setGate (h.setEngine (engineOf n) { h.engine (engineOf n) with probes := satInc 32 (h.engine (engineOf n)).probes }) n 3 := by
  simp only [shutProbe, hopt, hgate, beq_self_eq_true, decide_true, Bool.and_self, if_true]

theorem probeEnd_of_probe (hopt : 16 ≤ n) (hgate : (h.link n).gate = 3) :
    probeEnd h n power = setGate (senseLight h n power) n (if allLight (senseLight h n power) n then 1 else 2) := by
  simp only [probeEnd, hopt, hgate, beq_self_eq_true, decide_true, Bool.and_self, if_true]

end

/-! ### Heat and laser power (R408, R410) -/

section
variable {h : Hw} {n : Nat} {power : Int}

theorem overTemp_of_hot {e temp : Nat} (hhot : 85 < temp) :
    overTemp h e temp = forAll (portsOf e) (fun n h => if (h.link n).gate == 4 then h
      else logOpen (linkDown (raise (setGate h n 4) 0x31F n) n) (96 + n) 2 0x43 none (some 0))
      (h.setEngine e { h.engine e with temp := temp }) :=
  if_neg (Nat.not_le.2 hhot)

/-- Laser input below 16 dBm is reported once. -/
theorem laserLow_of_low (hopt : 16 ≤ n) (hpower : power < 1600) (hnew : (h.link n).laserLow = false) :
    laserLow h n power = raise (h.setLink n { h.link n with laserLow := true }) 0x31D n := by
  simp only [laserLow, Nat.not_lt.2 hopt, hpower, hnew, decide_true, Bool.not_false, Bool.and_self, if_false, if_true]

/-- A rise to 17 dBm lets it be reported again. -/
theorem laserLow_of_risen (hopt : 16 ≤ n) (hpower : 1700 ≤ power) :
    laserLow h n power = h.setLink n { h.link n with laserLow := false } := by
  have henough : ¬ power < 1600 := by omega
  simp only [laserLow, Nat.not_lt.2 hopt, henough, hpower, decide_false, Bool.false_and, Bool.false_eq_true, if_false, if_true]

end

/-- Settles O30: each event has one lemma above for the lane, gate or link that it changes. -/
theorem laneEventsComplete : Obligations.LaneEventsComplete := by
  refine ⟨?window, ?dark, ?light, ?shutProbe, ?probeEnd, ?hot, ?laserLow, ?laserRisen⟩
  case window =>
    intro s k eyes swing hstate huse hsleep hswing hgood hefm hlow
    exact next_onHw (efmWindow_of_degrading hstate huse hsleep hswing hgood hefm hlow)
  case dark =>
    intro s n power hopt hsame hgate hauto hdark
    exact next_onHw (losTimeout_of_dark hopt (hsame ▸ hgate) (hsame ▸ hauto) hdark)
  case light =>
    intro s n power hopt hsame hgate hlight
    exact next_onHw (losEnd_of_shut hopt (hsame ▸ hgate) hlight)
  case shutProbe =>
    intro s n hopt hgate
    exact next_onHw (shutProbe_of_shut hopt hgate)
  case probeEnd =>
    intro s n power hopt hgate
    exact next_onHw (probeEnd_of_probe hopt hgate)
  case hot =>
    intro s e temp hhot
    exact next_onHw (overTemp_of_hot hhot)
  case laserLow =>
    intro s n power hopt hpower hnew
    exact next_onHw (laserLow_of_low hopt hpower hnew)
  case laserRisen =>
    intro s n power hopt hpower
    exact next_onHw (laserLow_of_risen hopt hpower)

end Sys2Proof.Machine
end

section
/-!
PROOFS. The LANE and OPT commands (R406, R407, R412–R417).
-/
namespace Sys2Proof.Machine
open Sys2Proof

/-! ### LANE commands (R412–R414) -/

section
variable {s : State} {m : Fin 16}

theorem execLaneConfig_of_disabled {n rate pre : Nat} (ha : Asks s m 0x901 [.f 6, .f 2, .f 2] false [n, rate, pre])
    (hstate : (s.hw.link n).state = 0) (hrate : rate ≠ 3) (hpre : pre ≠ 3) :
    execLaneConfig m s = .next (served s m fun h => h.setLink n { h.link n with rateMax := rate, precode := pre }) := by
  refine congrArg Host.Outcome.next (busyFirst_served _ ha ?_)
  simp only [theRequest, Req.p, List.getD_cons_zero, List.getD_cons_succ, hstate, beq_false_of_ne hrate, beq_false_of_ne hpre,
    bne_self_eq_false, Bool.or_self, Bool.false_eq_true, if_false]

/-- A value that turns a timer off, or lies in its range, passes the check of LANE.POWER. -/
theorem timer_accepted {x lo hi : Nat} (h : x = 0 ∨ lo ≤ x ∧ x ≤ hi) : (x == 0 || (decide (lo ≤ x) && decide (x ≤ hi))) = true := by
  simpa only [Bool.or_eq_true, beq_iff_eq, Bool.and_eq_true, decide_eq_true_eq] using h

theorem execLanePower_of_accepted {ls d u low : Nat} (ha : Asks s m 0x902 [.f 64, .f 16, .f 32, .f 8] false [ls, d, u, low])
    (hls : ls ≠ 0) (hd : d = 0 ∨ 100 ≤ d ∧ d ≤ 65000) (hu : u = 0 ∨ 10 ≤ u ∧ u ≤ 1000000) :
    execLanePower m s = .next (served s m fun h => forAll (bitsOf 64 ls) (fun k h =>
      let off := (h.link k).state == 0
      h.setLink k { h.link k with
        drowseNext := d, slumberNext := u, efmLow := low, drowse := if off then d else (h.link k).drowse
        slumber := if off then u else (h.link k).slumber }) h) := by
  refine congrArg Host.Outcome.next (runHw_served _ ha ?_)
  simp only [theRequest, Req.p, List.getD_cons_zero, List.getD_cons_succ, beq_false_of_ne hls, timer_accepted hd, timer_accepted hu,
    Bool.not_true, Bool.or_self, Bool.false_eq_true, if_false]

/-- The body of a LANE.QUERY answer: the link's own record, then one for each of its lanes (R414). -/
def laneQueryBody (h : Hw) (n : Nat) : List Byte :=
  recordBytes 8 [(6, n), (1, b2n (16 ≤ n)), (4, if 16 ≤ n then engineOf n else 0), (2, (h.link n).rate),
    (3, if (h.link n).state != 0 && (h.link n).state != 6 then laneCount (h.link n).lanes else 0)
    , (32, KMap.get (h.link n).counts 16), (16, 0)] ++ ((List.range 4).map (laneRecord h n)).flatten

/-- LANE.QUERY without CLEAR changes nothing. -/
theorem execLaneQuery_of_link {n : Nat} (ha : Asks s m 0x903 [.f 8, .f 1] false [n, 0]) (hn : n ≤ 63) :
    execLaneQuery m s = .next (served s m id (Reply.ok (laneQueryBody s.hw n))) := by
  refine congrArg Host.Outcome.next (runHw_served id ha ?_)
  simp only [laneQuery, theRequest, Req.p, List.getD_cons_zero, List.getD_cons_succ, Nat.not_lt.2 hn, Nat.reduceBEq, Bool.false_eq_true,
    if_false, id, laneQueryBody]

/-! ### OPT commands (R415–R417) -/

/-- An engine turned on leaves its answer to the row that reports its modulators at temperature. -/
theorem execOptEngine_of_off {e : Nat} (ha : Asks s m 0x904 [.f 4, .f 1] false [e, 1]) (he : e ≤ 11)
    (hoff : (s.hw.engine e).on = false) :
    execOptEngine m s =
      .next (s.onHw fun h => setWork (h.setEngine e { h.engine e with on := true, heating := some m.val }) m 0x904 [] [e]) := by
  refine congrArg Host.Outcome.next (runHw_unanswered ha ?_)
  simp only [optEngine, theRequest, Req.p, List.getD_cons_zero, List.getD_cons_succ, Nat.not_lt.2 he, hoff, Nat.reduceBEq,
    Bool.false_eq_true, if_false]

theorem atTemperature_of_waiting {h : Hw} {e m : Nat} (hon : (h.engine e).on = true) (hheating : (h.engine e).heating = some m)
    (hwork : (workOf h m 0x904).map (·.args) = some [e]) :
    atTemperature h e = answer (h.setEngine e { h.engine e with heating := none }) m Reply.ok := by
  simp only [atTemperature, hon, hheating, hwork, beq_self_eq_true, Bool.not_true, Bool.false_eq_true, if_false, if_true]

/-- OPEN holds whatever the gate was; AUTO_SHUT is taken for each gate named, open ones included (log entry 32). -/
theorem execOptGate_of_open {gs auto : Nat} (ha : Asks s m 0x905 [.f 48, .f 1, .f 1] false [gs, 1, auto]) (hgs : gs ≠ 0)
    (hon : (bitsOf 48 gs).any (fun i => !(s.hw.engine (i / 4)).on) = false)
    (hcool : (bitsOf 48 gs).any (fun i => (s.hw.link (16 + i)).gate == 4 && 80 < (s.hw.engine (i / 4)).temp) = false) :
    execOptGate m s = .next (served s m fun h => forAll (bitsOf 48 gs)
      (fun i h => h.setLink (16 + i) { h.link (16 + i) with gate := 1, autoShut := auto == 1 }) h) := by
  refine congrArg Host.Outcome.next (runHw_served _ ha ?_)
  simp only [optGate, theRequest, Req.p, List.getD_cons_zero, List.getD_cons_succ, beq_false_of_ne hgs, hon, hcool, Nat.reduceBEq,
    Bool.true_and, Bool.false_eq_true, if_false, if_true]

theorem execOptGate_of_close {gs auto : Nat} (ha : Asks s m 0x905 [.f 48, .f 1, .f 1] false [gs, 0, auto]) (hgs : gs ≠ 0)
    (hon : (bitsOf 48 gs).any (fun i => !(s.hw.engine (i / 4)).on) = false) :
    execOptGate m s = .next (served s m fun h => forAll (bitsOf 48 gs) (fun i h => setGate h (16 + i) 0) h) := by
  refine congrArg Host.Outcome.next (runHw_served _ ha ?_)
  simp only [optGate, theRequest, Req.p, List.getD_cons_zero, List.getD_cons_succ, beq_false_of_ne hgs, hon, Nat.reduceBEq,
    Bool.false_and, Bool.false_eq_true, if_false]

/-- Free values are counted, and nothing else is changed by their being taken. -/
theorem freshList_frame (k : Nat) (h : Hw) : (freshList k h).2 = { h with freeCount := h.freeCount + k } := by
  induction k generalizing h with
  | zero => rfl
  | succ k ih =>
    refine (ih (freshBits 16 h).2).trans ?_
    simp only [freshBits, fresh, Nat.add_assoc, Nat.add_comm 1 k]

@[simp] theorem freshList_link (k : Nat) (h : Hw) (n : Nat) : (freshList k h).2.link n = h.link n := by rw [freshList_frame]; rfl
@[simp] theorem freshList_lane (k : Nat) (h : Hw) (n : Nat) : (freshList k h).2.lane n = h.lane n := by rw [freshList_frame]; rfl

/-- The body of an OPT.QUERY answer (R417); `light` are the powers that the converters give. -/
def optQueryBody (h : Hw) (e : Nat) (light : List Nat) : List Byte :=
  recordBytes 128 ([(4, e), (1, b2n (h.engine e).on), (3, 0), (8, (h.engine e).temp)]
    ++ (portsOf e).map (fun k => (3, (h.link k).gate)) ++ (portsOf e).map (fun k => (1, b2n (h.link k).autoShut))
    ++ (light.take 4).map (fun v => (16, v))
    ++ (List.range 16).map (fun j => (1, b2n (h.lane (64 + 16 * e + j)).los)) ++ [(16, 0)]
    ++ (light.drop 4).map (fun v => (16, v)) ++ [(32, (h.engine e).shuts), (32, (h.engine e).probes)])

/-- The laser and receive powers are measured, so free values (log entry 16). -/
theorem execOptQuery_of_engine {e : Nat} (ha : Asks s m 0x906 [.f 8] false [e]) (he : e ≤ 11) :
    execOptQuery m s =
      .next (served s m (fun h => (freshList 20 h).2) (Reply.ok (optQueryBody s.hw e (freshList 20 s.hw).1))) := by
  refine congrArg Host.Outcome.next (runHw_served _ ha ?_)
  simp only [optQuery, theRequest, Req.p, List.getD_cons_zero, Nat.not_lt.2 he, freshList_link, freshList_lane, if_false, optQueryBody]

end

/-- Settles O31: each command has one lemma above for the request that it accepts (the powers of OPT.QUERY are log entry 16, an OPEN of an
open gate log entry 32), and the row that reports an engine at temperature answers the mailbox that waits. -/
theorem laneCommandsComplete : Obligations.LaneCommandsComplete := by
  refine ⟨?config, ?power, ?query, ?engine, ?temperature, ?openGate, ?closeGate, ?optQuery⟩
  case config =>
    intro s m n rate pre ha hstate hrate hpre
    exact execLaneConfig_of_disabled ha hstate hrate hpre
  case power =>
    intro s m ls d u low ha hls hd hu
    exact execLanePower_of_accepted ha hls hd hu
  case query =>
    intro s m n ha hn
    exact execLaneQuery_of_link ha hn
  case engine =>
    intro s m e ha he hoff
    exact execOptEngine_of_off ha he hoff
  case temperature =>
    intro s e m hon hheating hwork
    exact next_onHw (atTemperature_of_waiting hon hheating hwork)
  case openGate =>
    intro s m gs auto ha hgs hon hcool
    exact execOptGate_of_open ha hgs hon hcool
  case closeGate =>
    intro s m gs auto ha hgs hon
    exact execOptGate_of_close ha hgs hon
  case optQuery =>
    intro s m e ha he
    exact execOptQuery_of_engine ha he

end Sys2Proof.Machine
end


section
/-!
PROOFS. A number packed from fields gives each of them back (R422), and what passes while no command waits (R475).
-/
namespace Sys2Proof.Machine
open Sys2Proof

/-! ### Packed fields -/

theorem fld_pack_head (w v : Nat) (r : List (Nat × Nat)) : fld (pack ((w, v) :: r)) 0 w = v % 2 ^ w := by
  simp [fld, pack]

/-- What lies above the first field is packed from the fields after it. -/
theorem fld_pack_tail {w lo : Nat} (v len : Nat) (r : List (Nat × Nat)) (h : w ≤ lo) :
    fld (pack ((w, v) :: r)) lo len = fld (pack r) (lo - w) len := by
  have hsplit : 2 ^ lo = 2 ^ w * 2 ^ (lo - w) := by rw [← Nat.pow_add, Nat.add_sub_cancel' h]
  have habove : (v % 2 ^ w + 2 ^ w * pack r) / 2 ^ w = pack r := by
    rw [Nat.add_mul_div_left _ _ (Nat.two_pow_pos w), Nat.div_eq_of_lt (Nat.mod_lt _ (Nat.two_pow_pos w)), Nat.zero_add]
  rw [fld, fld, pack, hsplit, ← Nat.div_div_eq_div_mul, habove]

theorem pack_lt (fields : List (Nat × Nat)) : pack fields < 2 ^ (fields.map Prod.fst).sum := by
  induction fields with
  | nil => exact Nat.one_pos
  | cons p r ih =>
    obtain ⟨w, v⟩ := p
    have hlow : v % 2 ^ w < 2 ^ w := Nat.mod_lt _ (Nat.two_pow_pos w)
    calc pack ((w, v) :: r) < 2 ^ w * (pack r + 1) := by rw [pack, Nat.mul_add_one]; omega
      _ ≤ 2 ^ w * 2 ^ (r.map Prod.fst).sum := Nat.mul_le_mul_left _ ih
      _ = _ := by rw [List.map_cons, List.sum_cons, Nat.pow_add]

theorem tbit_eq_fld (x i : Nat) : tbit x i = (fld x i 1 == 1) := by rw [tbit, fld, Nat.pow_one]

theorem b2n_mod_two (b : Bool) : (b2n b % 2 == 1) = b := by cases b <;> rfl

/-- Settles O10: a field is what `fld_pack_head` and `fld_pack_tail` read at its place, and the widths add up to 64 (`pack_lt`). -/
theorem controlWordKeepsItsFields : Obligations.ControlWordKeepsItsFields := by
  intro c hftype hnakId hack hcrvc hcrcum hfirst hrseq hrsv
  refine ⟨?fields, ?width⟩
  case fields =>
    simp only [LinkControl.ofNat, LinkControl.toNat, tbit_eq_fld, fld_pack_head, fld_pack_tail, Nat.reduceLeDiff, Nat.reduceSub,
      Nat.reducePow, b2n_mod_two, Nat.mod_eq_of_lt hftype, Nat.mod_eq_of_lt hnakId, Nat.mod_eq_of_lt hack, Nat.mod_eq_of_lt hcrvc,
      Nat.mod_eq_of_lt hcrcum, Nat.mod_eq_of_lt hfirst, Nat.mod_eq_of_lt hrseq, Nat.mod_eq_of_lt hrsv]
  case width =>
    exact pack_lt [(3, c.ftype), (1, b2n c.nak), (2, c.nakId), (12, c.ack), (3, c.crvc), (12, c.crcum), (6, c.first), (12, c.rseq), (13, c.rsv)]

/-! ### The idle cycle (R475) -/

theorem step_nil {s : State} (h : s.pending = []) : step s = .next (idle s) := by
  simp only [step, h]

/-- Settles O2: `idle` is what passes while the queue is empty (log entry 2). -/
theorem emptyQueueCountsTime : Obligations.EmptyQueueCountsTime := by
  intro s h
  exact step_nil h

end Sys2Proof.Machine
end

section
/-!
PROOFS. CTRL flits and the LINK.* commands (R434, R444–R447, R450, R451).
-/
namespace Sys2Proof.Machine
open Sys2Proof

/-! ### CTRL flits (R434, R446) -/

section
variable {h : Hw} {n k : Nat} {f b : List Byte}

theorem takeFlit_of_ctrl (hfec : flitFec f = some (b, k)) (htype : (LinkControl.ofNat (leNat (b.take 8))).ftype = 6)
    (hrecover : (h.link n).rx.recover = false) (hcrc : crcMatches b (h.link n).rx.number = true) :
    takeFlit h n f =
      onCtrl (takeControl (modLink (countCorrected h n k) n fun l => { l with rx := { l.rx with failRun := 0 } }) n
        (LinkControl.ofNat (leNat (b.take 8)))) n b := by
  simp only [takeFlit, hfec, htype, hrecover, hcrc, Nat.reduceBEq, Bool.not_true, Bool.or_true, Bool.false_eq_true, if_true, if_false,
    countCorrected]

/-- A CTRL flit that its CRC confirms has its control word taken, then the effect of its command. -/
theorem receiveFlit_of_ctrl (hlength : f.length = 192) (hstate : (h.link n).state = 3) (hfill : (h.link n).rx.fill < 16)
    (hfec : flitFec f = some (b, k)) (htype : (LinkControl.ofNat (leNat (b.take 8))).ftype = 6)
    (hrecover : (h.link n).rx.recover = false) (hcrc : crcMatches b (h.link n).rx.number = true) :
    receiveFlit h n f = onCtrl (controlTaken h n f k (LinkControl.ofNat (leNat (b.take 8)))) n b := by
  refine (receiveFlit_kept h n f hstate hlength hfill).trans (takeFlit_of_ctrl hfec htype ?_ ?_)
  · rw [handedOn_recover hfill, hrecover]
  · rw [handedOn_number hfill, hcrc]

/-! ### The command of a CTRL flit (R446) -/

theorem onCtrl_of_widthReq (hcmd : fld (leNat ((b.drop 8).take 8)) 0 8 = 1) :
    onCtrl h n b = onWidthReq h n (fld (leNat ((b.drop 8).take 8)) 8 8) (fld (leNat ((b.drop 8).take 8)) 16 4)
      (fld (leNat ((b.drop 8).take 8)) 32 12) := by
  simp only [onCtrl, hcmd]

theorem onCtrl_of_widthAck (hcmd : fld (leNat ((b.drop 8).take 8)) 0 8 = 2) :
    onCtrl h n b = onWidthAck h n (fld (leNat ((b.drop 8).take 8)) 8 8) := by
  simp only [onCtrl, hcmd]

theorem onCtrl_of_widthGo (hcmd : fld (leNat ((b.drop 8).take 8)) 0 8 = 3) :
    onCtrl h n b = onWidthGo h n (fld (leNat ((b.drop 8).take 8)) 8 8) := by
  simp only [onCtrl, hcmd]

theorem onCtrl_of_retrainReq (hcmd : fld (leNat ((b.drop 8).take 8)) 0 8 = 4) : onCtrl h n b = enterRetrain h n := by
  simp only [onCtrl, hcmd]

theorem onCtrl_of_rateReq (hcmd : fld (leNat ((b.drop 8).take 8)) 0 8 = 5) : onCtrl h n b = enterRateTrain h n := by
  simp only [onCtrl, hcmd]

theorem onCtrl_of_widthAbandon (hcmd : fld (leNat ((b.drop 8).take 8)) 0 8 = 6) : onCtrl h n b = onWidthAbandon h n := by
  simp only [onCtrl, hcmd]

end

/-- Settles O25: the flit is taken (`receiveFlit_of_ctrl`), and each command has one lemma above. -/
theorem linkControlFlitsComplete : Obligations.LinkControlFlitsComplete := by
  refine ⟨?widthReq, ?widthAck, ?widthGo, ?retrainReq, ?rateReq, ?widthAbandon⟩ <;>
    (rintro s n flit b k _ hlength hstate hfill hfec htype hrecover hcrc rfl hcmd
     refine next_onHw ((receiveFlit_of_ctrl hlength hstate hfill hfec htype hrecover hcrc).trans ?_))
  case widthReq => exact onCtrl_of_widthReq hcmd
  case widthAck => exact onCtrl_of_widthAck hcmd
  case widthGo => exact onCtrl_of_widthGo hcmd
  case retrainReq => exact onCtrl_of_retrainReq hcmd
  case rateReq => exact onCtrl_of_rateReq hcmd
  case widthAbandon => exact onCtrl_of_widthAbandon hcmd

/-! ### LINK.* commands (R450, R451) -/

section
variable {s : State} {m : Fin 16} {q : Req} {h : Hw}

theorem execLinkEnable_of_enable {ls : Nat} (ha : Asks s m 0xA01 [.f 64, .f 1] false [ls, 1])
    (hfree : (bitsOf 64 ls).any (fun k => bistHolds s.hw (5 * 64 + k)) = false) :
    execLinkEnable m s =
      .next (served s m fun h => forAll (bitsOf 64 ls) (fun k h => if h.pwr.state == 2 then h else linkEnable h k) h) := by
  refine congrArg Host.Outcome.next (runHw_served _ ha ?_)
  simp only [theRequest, Req.p, List.getD_cons_zero, List.getD_cons_succ, hfree, Bool.and_false, Bool.false_eq_true, beq_self_eq_true,
    if_false, if_true]

theorem execLinkEnable_of_disable {ls : Nat} (ha : Asks s m 0xA01 [.f 64, .f 1] false [ls, 0]) :
    execLinkEnable m s = .next (served s m fun h => forAll (bitsOf 64 ls) (fun k h => linkDisable h k) h) := by
  refine congrArg Host.Outcome.next (runHw_served _ ha ?_)
  simp only [theRequest, Req.p, List.getD_cons_zero, List.getD_cons_succ, Nat.reduceBEq, Bool.false_and, Bool.false_eq_true, if_false]

theorem execLinkConfig_of_disabled {n w : Nat} (ha : Asks s m 0xA02 [.f 6, .f 3] false [n, w]) (hw : w = 1 ∨ w = 2 ∨ w = 4)
    (hstate : (s.hw.link n).state = 0) :
    execLinkConfig m s = .next (served s m fun h => modLink h n fun l => { l with widthMax := w }) := by
  have hwidth : (w == 1 || w == 2 || w == 4) = true := by rcases hw with rfl | rfl | rfl <;> rfl
  refine congrArg Host.Outcome.next (runHw_served _ ha ?_)
  simp only [theRequest, Req.p, List.getD_cons_zero, List.getD_cons_succ, hwidth, hstate, bne_self_eq_false, Bool.not_true,
    Bool.false_eq_true, if_false]

/-- A new REPLAY_TIMER takes effect at once on a link that is not ACTIVE (class L, log entry 17). -/
theorem execLinkTune_of_accepted {ls lim tim auto : Nat} (ha : Asks s m 0xA03 [.f 64, .f 4, .f 32, .f 1] false [ls, lim, tim, auto])
    (hlim : lim ≠ 0) (htim : 500 ≤ tim ∧ tim ≤ 100000) :
    execLinkTune m s = .next (served s m fun h => forAll (bitsOf 64 ls) (fun k h => modLink h k fun l =>
      { l with replayLimit := lim, replayTimerNext := tim, widthAuto := auto == 1
               replayTimer := if l.state == 3 then l.replayTimer else tim }) h) := by
  refine congrArg Host.Outcome.next (runHw_served _ ha ?_)
  simp only [theRequest, Req.p, List.getD_cons_zero, List.getD_cons_succ, beq_eq_false_iff_ne.2 hlim, Nat.not_lt.2 htim.1,
    Nat.not_lt.2 htim.2, decide_false, Bool.or_self, Bool.false_eq_true, if_false]

/-- MODE RETRAIN asks the partner for a retrain (log entry 33), and a later row answers. -/
theorem linkRetrain_of_active (hmode : q.p 1 = 0) (hstate : (h.link (q.p 0)).state = 3) (hphase : (h.link (q.p 0)).tr.phase = 0)
    (hctrl : (h.link (q.p 0)).tx.ctrl = none) :
    linkRetrain q h = (requestRetrain (setWork h q.m 0xA04 [] [q.p 0]) (q.p 0), none) := by
  simp only [linkRetrain, hmode, hstate, hphase, hctrl, Nat.reduceBEq, Nat.reduceBNe, bne_self_eq_false, beq_self_eq_true,
    Option.isSome_none, Bool.and_false, Bool.false_and, Bool.or_self, Bool.false_eq_true, if_false, if_true]

/-- A permitted set, other than the one in use, is asked of the partner, and a later row answers. -/
theorem linkWidth_of_change (hset : permittedSets.contains (q.p 1) = true) (hwidth : laneCount (q.p 1) ≤ (h.link (q.p 0)).widthMax)
    (hstate : (h.link (q.p 0)).state = 3) (hrate : (h.link (q.p 0)).rate ≠ 3) (hphase : (h.link (q.p 0)).tr.phase = 0)
    (hnew : q.p 1 ≠ (h.link (q.p 0)).lanes) (hctrl : (h.link (q.p 0)).tx.ctrl = none) :
    linkWidth q h = (requestWidth (setWork h q.m 0xA05 [] [q.p 0]) (q.p 0) (q.p 1), none) := by
  simp only [linkWidth, hset, Nat.not_lt.2 hwidth, hstate, beq_eq_false_iff_ne.2 hrate, hphase, hctrl, beq_eq_false_iff_ne.2 hnew,
    bne_self_eq_false, Option.isSome_none, Bool.not_true, decide_false, Bool.or_self, Bool.false_eq_true, if_false]

theorem linkQuery_of_link (hn : q.p 0 ≤ 63) :
    linkQuery q h =
      (if q.p 1 = 1 then modLink h (q.p 0) fun l => { l with counts := l.counts.filter (fun p => 11 ≤ p.1) } else h,
        some (Reply.ok (linkRecord (h.link (q.p 0))))) := by
  by_cases hclear : q.p 1 = 1
  · simp only [linkQuery, Nat.not_lt.2 hn, hclear, beq_self_eq_true, if_false, if_true]
  · simp only [linkQuery, Nat.not_lt.2 hn, beq_eq_false_iff_ne.2 hclear, hclear, Bool.false_eq_true, if_false]

end

/-- Settles O29: each command has one lemma above for the request that it accepts (that MODE RETRAIN only asks by RETRAIN_REQ is log
entry 33, when a tuned timer takes effect log entry 17). -/
theorem linkCommandsComplete : Obligations.LinkCommandsComplete := by
  refine ⟨?enable, ?disable, ?config, ?tune, ?retrain, ?width, ?query⟩
  case enable =>
    intro s m ls ha hfree _
    exact execLinkEnable_of_enable ha hfree
  case disable =>
    intro s m ls ha
    exact execLinkEnable_of_disable ha
  case config =>
    intro s m n w ha hw hstate
    exact execLinkConfig_of_disabled ha hw hstate
  case tune =>
    intro s m ls lim tim auto ha hlim htim
    exact execLinkTune_of_accepted ha hlim htim
  case retrain =>
    intro s m n ha hstate hphase hctrl
    refine congrArg Host.Outcome.next (runHw_changed (f := fun h => requestRetrain (setWork h m 0xA04 [] [n]) n) ha ?_)
    exact linkRetrain_of_active (q := theRequest s m [n, 0]) rfl hstate hphase hctrl
  case width =>
    intro s m n w ha hset hwidth hstate hrate hphase hnew hctrl
    refine congrArg Host.Outcome.next (runHw_changed (f := fun h => requestWidth (setWork h m 0xA05 [] [n]) n w) ha ?_)
    exact linkWidth_of_change (q := theRequest s m [n, w]) hset hwidth hstate hrate hphase hnew hctrl
  case query =>
    intro s m n c ha hn
    exact congrArg Host.Outcome.next
      (runHw_served (fun h => if c = 1 then modLink h n fun l => { l with counts := l.counts.filter (fun p => 11 ≤ p.1) } else h)
        ha (linkQuery_of_link (q := theRequest s m [n, c]) hn))

end Sys2Proof.Machine
end

section
/-!
PROOFS. Fabric time: its messages, its timers and the TIME.* commands (R475–R480, R483, R484).
-/
namespace Sys2Proof.Machine
open Sys2Proof

/-! ### Messages (R476–R478) -/

section
variable {h : Hw} {port arrival : Nat} {p : Packet}

theorem onSync_of_parent (hlegal : timeLegal p 0x70 = true) (hrole : h.time.role = 2) (hport : port = h.time.parent)
    (hclk : h.clk.loss = false) (hhere : timeHere h h.time.parent p = true) :
    onSync h port p arrival = (dropTime h port p).modTime fun t => takeSync t p arrival := by
  simp only [onSync, hlegal, timeHere_dropTime, dropTime_time, dropTime_clk, hrole, hport, hclk, hhere, beq_self_eq_true, Bool.not_true,
    Bool.not_false, Bool.and_self, Bool.false_eq_true, if_false, if_true]

theorem onDelayReq_of_active (hlegal : timeLegal p 0x71 = true) (hstate : ((dropTime h port p).link port).state = 3)
    (hhere : timeHere h port p = true) :
    onDelayReq h port p arrival =
      sendOn (dropTime h port p) port (timePacket (dropTime h port p) 0x72 port (tf p 0 64) arrival 0 (tf p 192 16) 0 0) := by
  simp only [onDelayReq, hlegal, timeHere_dropTime, hstate, hhere, beq_self_eq_true, Bool.not_true, Bool.and_self, Bool.false_eq_true,
    if_false, if_true]

/-- The answer to the request that the child sent gives the delay of its parent link. -/
theorem onDelayResp_of_requested {t1 : Nat} (hlegal : timeLegal p 0x72 = true) (hrequest : h.time.request = some (tf p 192 16, t1))
    (hrole : h.time.role = 2) (hport : port = h.time.parent) (hhere : timeHere h h.time.parent p = true) :
    onDelayResp h port p arrival = (dropTime h port p).modTime fun t =>
      { t with delay := (((arrival : Int) - t1) - ((tf p 128 64 : Int) - tf p 64 64)) / 2, request := none } := by
  simp only [onDelayResp, hlegal, timeHere_dropTime, dropTime_time, hrequest, hrole, hport, hhere, beq_self_eq_true, Bool.not_true,
    Bool.and_self, Bool.false_eq_true, if_false, if_true]

theorem onAnnounce_of_parent (hlegal : timeLegal p 0x73 = true) (hrole : h.time.role = 2) (hport : port = h.time.parent)
    (hhere : timeHere h h.time.parent p = true) :
    onAnnounce h port p =
      (dropTime h port p).modTime fun t => { t with root := tf p 208 12, steps := (tf p 220 8 + 1) % 256 } := by
  simp only [onAnnounce, hlegal, timeHere_dropTime, dropTime_time, hrole, hport, hhere, beq_self_eq_true, Bool.not_true, Bool.and_self,
    Bool.false_eq_true, if_false, if_true]

/-! ### Timers (R477–R479) -/

theorem syncTimer_of_root (hstate : h.time.state = 4) :
    syncTimer h =
      let t := h.time
      let h := forAll ((bitsOf 64 t.syncOut).filter (fun n => liveLink h n)) (fun n h =>
        let h := sendOn h n (timePacket h 0x70 n 0 0 0 t.seq t.root t.steps)
        sendOn h n (timePacket h 0x73 n 0 0 0 t.seq t.root t.steps)) h
      { h with time := { h.time with seq := (t.seq + 1) % 2 ^ 16, syncInterval := t.syncNext } } := by
  simp only [syncTimer, hstate, beq_self_eq_true, Bool.true_or, if_true]

/-- A root without a live SYNC_OUT link sends nothing. -/
theorem syncTimer_of_unlinked (hstate : h.time.state = 4) (hlinks : (bitsOf 64 h.time.syncOut).filter (fun k => liveLink h k) = []) :
    syncTimer h = { h with time := { h.time with seq := (h.time.seq + 1) % 2 ^ 16, syncInterval := h.time.syncNext } } := by
  simp only [syncTimer_of_root hstate, hlinks]
  rfl

theorem syncTimer_of_linked {n : Nat} (hstate : h.time.state = 4)
    (hlinks : (bitsOf 64 h.time.syncOut).filter (fun k => liveLink h k) = [n]) :
    syncTimer h =
      let t := h.time
      let h := sendOn h n (timePacket h 0x70 n 0 0 0 t.seq t.root t.steps)
      let h := sendOn h n (timePacket h 0x73 n 0 0 0 t.seq t.root t.steps)
      { h with time := { h.time with seq := (t.seq + 1) % 2 ^ 16, syncInterval := t.syncNext } } := by
  simp only [syncTimer_of_root hstate, hlinks]
  rfl

theorem delayTimer_of_child (hrole : h.time.role = 2) (hlive : liveLink h h.time.parent = true) :
    delayTimer h =
      let t := h.time
      let h := sendOn h t.parent (timePacket h 0x71 t.parent 0 0 0 t.seq 0 0)
      { h with time := { h.time with seq := (t.seq + 1) % 2 ^ 16, delayInterval := t.delayNext } } := by
  simp only [delayTimer, hrole, hlive, beq_self_eq_true, Bool.and_self, if_true]

theorem syncLoss_of_locked (hrole : h.time.role = 2) (hstate : h.time.state = 2) :
    syncLoss h = h.modTime fun t => { t with state := 3, good := 0, bad := 0 } := by
  simp only [syncLoss, hrole, hstate, beq_self_eq_true, Bool.or_true, Bool.and_self, if_true]

theorem holdoverLimit_of_holdover (hstate : h.time.state = 3) : holdoverLimit h = timeFree h :=
  if_pos (beq_iff_eq.2 hstate)

end

/-- Settles O22: each message and each timer has one lemma above. -/
theorem timeMessagesComplete : Obligations.TimeMessagesComplete := by
  refine ⟨?sync, ?delayReq, ?delayResp, ?announce, ?unlinked, ?linked, ?delayTimer⟩
  case sync =>
    intro s port p arrival hlegal hrole hport hclk hhere
    exact next_onHw (onSync_of_parent hlegal hrole hport hclk hhere)
  case delayReq =>
    intro s port p arrival hlegal hstate hhere
    exact next_onHw (onDelayReq_of_active hlegal hstate hhere)
  case delayResp =>
    intro s port p arrival t1 hlegal hrequest hrole hport hhere
    exact next_onHw (onDelayResp_of_requested hlegal hrequest hrole hport hhere)
  case announce =>
    intro s port p arrival hlegal hrole hport hhere
    exact next_onHw (onAnnounce_of_parent hlegal hrole hport hhere)
  case unlinked =>
    intro s hstate hlinks
    exact next_onHw (syncTimer_of_unlinked hstate hlinks)
  case linked =>
    intro s n hstate hlinks
    exact next_onHw (syncTimer_of_linked hstate hlinks)
  case delayTimer =>
    intro s hrole hlive
    exact next_onHw (delayTimer_of_child hrole hlive)

/-! ### Commands (R483, R484) -/

section
variable {s : State} {m : Fin 16}

/-- A role and intervals within their ranges; a child's parent link is ACTIVE. -/
theorem execTimeConfig_of_accepted {role port si di hl : Nat}
    (ha : Asks s m 0xB09 [.f 2, .f 6, .f 16, .f 16, .f 32] false [role, port, si, di, hl]) (hrole : role < 3)
    (hsync : 0 < si ∧ si ≤ 1000) (hdelay : 10 ≤ di ∧ di ≤ 60000) (hlimit : 100 ≤ hl ∧ hl ≤ 10000000)
    (hparent : role = 2 → (s.hw.link port).state = 3) :
    execTimeConfig m s = .next (served s m fun h => h.modTime fun t =>
      { applyRole h role port t with syncNext := si, delayNext := di, holdoverLimit := hl }) := by
  have hranges : (role == 3 || si == 0 || decide (1000 < si) || decide (di < 10) || decide (60000 < di) || decide (hl < 100)
      || decide (10000000 < hl)) = false := by
    simp only [Bool.or_eq_false_iff, beq_eq_false_iff_ne, decide_eq_false_iff_not]
    omega
  have hactive : (role == 2 && (s.hw.link port).state != 3) = false := by
    rw [Bool.and_eq_false_imp, beq_iff_eq, bne_eq_false_iff_eq]
    exact hparent
  refine congrArg Host.Outcome.next (runHw_served _ ha ?_)
  simp only [theRequest, Req.p, List.getD_cons_zero, List.getD_cons_succ, hranges, hactive, Bool.false_eq_true, if_false]

theorem execTimeLink_of_asked {n x on : Nat} (ha : Asks s m 0xB0A [.f 6, .f 32, .f 1] false [n, x, on]) :
    execTimeLink m s = .next (served s m fun h => { h with time := { h.time with
      asym := KMap.setD h.time.asym n (toInt 32 x) 0
      syncOut := if on = 1 then Nat.lor h.time.syncOut (2 ^ n) else h.time.syncOut - Nat.land h.time.syncOut (2 ^ n) } }) := by
  refine congrArg Host.Outcome.next (runHw_served _ ha ?_)
  simp only [theRequest, Req.p, List.getD_cons_zero, List.getD_cons_succ, beq_iff_eq]

theorem execTimeSet_of_root {x : Nat} (ha : Asks s m 0xB0B [.f 64] false [x]) (hrole : s.hw.time.role = 1) :
    execTimeSet m s = .next (served s m fun h => { h with time := { h.time with now := x, slew := 0, frac := 0 } }) := by
  refine congrArg Host.Outcome.next (runHw_served _ ha ?_)
  simp only [theRequest, Req.p, List.getD_cons_zero, hrole, bne_self_eq_false, Bool.false_eq_true, if_false]

end

/-- Settles O23: each event and each command has one lemma above. -/
theorem timeCommandsComplete : Obligations.TimeCommandsComplete := by
  refine ⟨?loss, ?limit, ?config, ?link, ?set, ?query⟩
  case loss =>
    intro s hrole hstate
    exact next_onHw (syncLoss_of_locked hrole hstate)
  case limit =>
    intro s hstate
    exact next_onHw (holdoverLimit_of_holdover hstate)
  case config =>
    intro s m role port si di hl ha hrole hsync hdelay hlimit hparent
    exact execTimeConfig_of_accepted ha hrole hsync hdelay hlimit hparent
  case link =>
    intro s m n x on ha
    exact execTimeLink_of_asked ha
  case set =>
    intro s m x ha hrole
    exact execTimeSet_of_root ha hrole
  case query =>
    intro s m ha
    exact congrArg Host.Outcome.next (runHw_served id ha rfl)

end Sys2Proof.Machine
end

section
/-!
PROOFS. The router: packets that arrive and start, its timers and gates, and the ROUTE, QOS and HORIZON commands (R453–R473, R483, R484).
-/
namespace Sys2Proof.Machine
open Sys2Proof

/-! ### Arrival on an inner port (R454–R456) -/

section
variable {h : Hw} {port : Nat} {p : Packet}

/-- A packet of a tile, of management or of the sequencer that names this module goes to the block of its port. -/
theorem routePacket_of_own (hon : h.sys.routerOn = true) (hinner : 64 ≤ port) (hpolice : police h port p = (false, h))
    (hform : malformed p = false) (hheld : heldService h p.dst = false) (hown : isOwn h p.dst = true) :
    routePacket h port p = queueAt h (destPort p) false p := by
  simp only [routePacket, hon, Nat.not_lt.2 hinner, hpolice, hform, hheld, hown, decide_false, Bool.not_true, Bool.false_and, Bool.or_self,
    Bool.false_eq_true, if_false, if_true]

/-- Another is forwarded, its TTL one less, by the table that its epoch names. -/
theorem routePacket_of_forwarded (hon : h.sys.routerOn = true) (hinner : 64 ≤ port) (hpolice : police h port p = (false, h))
    (hform : malformed p = false) (hheld : heldService h p.dst = false) (hown : isOwn h p.dst = false) (hvc : p.vc ≠ 7) (httl : p.ttl ≠ 0) :
    routePacket h port p = routeBy h (epochOf h port p).1 { (epochOf h port p).2 with ttl := (epochOf h port p).2.ttl - 1 } := by
  simp only [routePacket, hon, Nat.not_lt.2 hinner, hpolice, hform, hheld, hown, beq_eq_false_iff_ne.2 hvc, beq_eq_false_iff_ne.2 httl,
    decide_false, Bool.not_true, Bool.false_and, Bool.or_self, Bool.false_eq_true, if_false]

/-! ### Starts (R464, R465, R476) -/

theorem deliver_of_awaited (hstray : isStray p.opcode = false) :
    deliver h port p = { h with router := { h.router with inbox := h.router.inbox ++ [{ port := port, packet := p }] } } := by
  simp only [deliver, hstray, Bool.false_and, Bool.false_eq_true, if_false]

theorem egressStart_of_inner {q : Queued} (hnext : nextStart (forBelow 7 (fun v h => tagHead h port v) h) port = some q) (hinner : 64 ≤ port) :
    egressStart h port = deliver (leaveQueue (forBelow 7 (fun v h => tagHead h port v) h) port q) port q.packet := by
  unfold egressStart
  dsimp only
  rw [hnext]
  simp only [Nat.not_lt.2 hinner, if_false]

theorem egressStart_of_link {q : Queued} (hnext : nextStart (forBelow 7 (fun v h => tagHead h port v) h) port = some q) (hlink : port < 64) :
    egressStart h port =
      let g := leaveQueue (forBelow 7 (fun v h => tagHead h port v) h) port q
      modLink (stampTime g q.packet).2 port fun l => sendPacket l (stampTime g q.packet).1 := by
  unfold egressStart
  dsimp only
  rw [hnext]
  simp only [hlink, if_true]

/-- A slot that no packet takes carries an IDLE flit. -/
theorem egressStart_of_none (hnext : nextStart (forBelow 7 (fun v h => tagHead h port v) h) port = none) (hlink : port < 64)
    (hstate : ((forBelow 7 (fun v h => tagHead h port v) h).link port).state = 3) (hawake : ((forBelow 7 (fun v h => tagHead h port v) h).link port).tx.sleep = 1) :
    egressStart h port = modLink (countStall (forBelow 7 (fun v h => tagHead h port v) h) port) port sendIdle := by
  unfold egressStart
  dsimp only
  rw [hnext]
  simp only [hlink, hstate, hawake, decide_true, beq_self_eq_true, Bool.and_self, if_true]

/-! ### Salvage and gate lists (R459, R471, R473) -/

theorem salvageExpire_of_cons {r : List Packet} (hsalvage : h.router.salvage = p :: r) :
    salvageExpire h = routerCount { h with router := { h.router with salvage := r } } 2 := by
  simp only [salvageExpire, hsalvage]

theorem cycleStart_of_due {b : Nat} {es : List (Nat × Nat)} (hnext : (h.horizon port).next = some (b, es))
    (hdue : (h.horizon port).due ≤ h.time.now) :
    cycleStart h port =
      h.setHorizon port { base := b, entries := es, next := none, entry := 0, running := timeGates h && !es.isEmpty } := by
  simp only [cycleStart, hnext, Nat.not_lt.2 hdue, if_false]

theorem entryBoundary_of_running (hrunning : (h.horizon port).running = true)
    (hentry : (h.horizon port).entry + 1 < (h.horizon port).entries.length) :
    entryBoundary h port = h.setHorizon port { h.horizon port with entry := (h.horizon port).entry + 1 } := by
  simp only [entryBoundary, hrunning, hentry, decide_true, Bool.and_self, if_true]

end

/-- Settles O32: arrivals, starts, salvage and gate lists have one lemma each above; the refill and the end of FLIP_HOLD have no case. -/
theorem routerEventsComplete : Obligations.RouterEventsComplete := by
  refine ⟨?own, ?forwarded, ?inner, ?link, ?idle, ?refill, ?flipHold, ?salvage, ?cycle, ?entry⟩
  case own =>
    intro s port p hon hinner hpolice hform hheld hown
    exact next_onHw (routePacket_of_own hon hinner hpolice hform hheld hown)
  case forwarded =>
    intro s port p hon hinner hpolice hform hheld hown hvc httl
    exact next_onHw (routePacket_of_forwarded hon hinner hpolice hform hheld hown hvc httl)
  case inner =>
    intro s port q hnext hinner hstray
    exact next_onHw ((egressStart_of_inner hnext hinner).trans (deliver_of_awaited hstray))
  case link =>
    intro s port q hnext hlink
    exact next_onHw (egressStart_of_link hnext hlink)
  case idle =>
    intro s port hnext hlink hstate hawake
    exact next_onHw (egressStart_of_none hnext hlink hstate hawake)
  case refill =>
    intro s
    exact exec_shaperRefill s
  case flipHold =>
    intro s
    exact exec_flipHoldExpiry s
  case salvage =>
    intro s p r hsalvage
    exact next_onHw (salvageExpire_of_cons hsalvage)
  case cycle =>
    intro s port b es hnext hdue
    exact next_onHw (congrArg settleHorizon (cycleStart_of_due hnext hdue))
  case entry =>
    intro s port hrunning hentry
    exact next_onHw (entryBoundary_of_running hrunning hentry)

/-! ### Commands (R453, R457, R462, R466, R470–R473, R483, R484) -/

section
variable {s : State} {m : Fin 16} {q : Req} {h : Hw}

/-- Times within their ranges, and roles that change on links that are DISABLED. -/
theorem execRouteConfig_of_accepted {ttl fh sh roles : Nat} (ha : Asks s m 0xB01 [.f 8, .f 32, .f 32, .f 64] false [ttl, fh, sh, roles])
    (httl : ttl ≠ 0) (hflip : 10 ≤ fh ∧ fh ≤ 100000) (hsalvage : 100 ≤ sh ∧ sh ≤ 1000000)
    (hlinks : (bitsOf 64 (nxor roles s.hw.router.roles)).any (fun k => (s.hw.link k).state != 0) = false) :
    execRouteConfig m s = .next (served s m fun h => { h with router := { h.router with
      ttlInit := ttl, flipHold := fh, salvageHold := sh, roles := roles } }) := by
  refine congrArg Host.Outcome.next (runHw_served _ ha ?_)
  simp only [theRequest, Req.p, List.getD_cons_zero, List.getD_cons_succ, beq_eq_false_iff_ne.2 httl, Nat.not_lt.2 hflip.1,
    Nat.not_lt.2 hflip.2, Nat.not_lt.2 hsalvage.1, Nat.not_lt.2 hsalvage.2, hlinks, decide_false, Bool.or_self, Bool.false_eq_true, if_false]

/-- In epoch 0 table B is the inactive one. -/
theorem routeLoad_of_epochZero {es : List Nat} (hes : (List.range (q.p 1)).map (fun i => fld (q.p 2) (64 * i) 64) = es)
    (hcount : 0 < q.p 1 ∧ q.p 1 ≤ 128) (hroom : q.p 0 + q.p 1 ≤ 4096) (hlegal : es.all entryLegal = true)
    (hhold : h.router.holding = false) (hepoch : h.router.epoch = 0) :
    routeLoad q h = ({ h with router := { h.router with
      tableB := es.zipIdx.foldl (fun t e => KMap.set t (q.p 0 + e.2) e.1) h.router.tableB } }, some (Reply.ok)) := by
  simp only [routeLoad, hes, beq_eq_false_iff_ne.2 (Nat.ne_of_gt hcount.1), Nat.not_lt.2 hcount.2, Nat.not_lt.2 hroom, hlegal, hhold, hepoch,
    decide_false, beq_self_eq_true, Bool.not_true, Bool.or_self, Bool.false_eq_true, if_false, if_true]

/-- The body of ROUTE.QUERY, in the order in which R484 lists it (log entry 20). -/
def routeQueryBody (h : Hw) (left : Nat) : List Byte :=
  items ([.f 1 h.router.epoch, .f 32 left, .f 32 (salvageBytes h)] ++ (List.range 5).map (fun i => .f 32 (KMap.get h.router.counts i))
    ++ (List.range 96).map (fun i => .f 32 (KMap.get h.router.counts (16 + i))))

theorem routeQuery_of_settled (hhold : h.router.holding = false) : routeQuery h = (h, some (Reply.ok (routeQueryBody h 0))) := by
  simp only [routeQuery, hhold, Bool.false_eq_true, if_false]
  rfl

theorem execQosMode_of_accepted {modes hi lo : Nat} (ha : Asks s m 0xB05 [.f 4, .f 20, .f 20] false [modes, hi, lo]) (hlow : lo < hi)
    (hhigh : hi ≤ 16384) :
    execQosMode m s = .next (served s m fun h =>
      resumeQueues { h with router := { h.router with modes := modes, thrHigh := hi, thrLow := lo } }) := by
  refine congrArg Host.Outcome.next (runHw_served _ ha ?_)
  simp only [theRequest, Req.p, List.getD_cons_zero, List.getD_cons_succ, Nat.not_le.2 hlow, Nat.not_lt.2 hhigh, decide_false, Bool.or_self,
    Bool.false_eq_true, if_false]

/-- An inner port takes weights and no shapers. -/
theorem qosPort_of_inner (hinner : 64 ≤ q.p 0) (hport : q.p 0 ≤ 97)
    (hweights : ((List.range 7).map fun v => fld (q.p 1) (8 * v) 8).any (fun w => w == 0) = false) (hshapers : q.p 2 = 0) :
    qosPort q h =
      (let w := (List.range 7).map fun v => fld (q.p 1) (8 * v) 8
       h.setQos (q.p 0) { h.qos (q.p 0) with
         weightsNext := w, weights := if !h.router.egress.any (fun x => x.port == q.p 0) then w else (h.qos (q.p 0)).weights },
        some (Reply.ok)) := by
  simp only [qosPort, Nat.not_lt.2 hport, hweights, hinner, hshapers, Nat.not_lt.2 hinner, decide_false, bne_self_eq_false, Bool.or_self,
    Bool.and_false, Bool.false_and, Bool.false_eq_true, if_false]

/-- COUNT 0 latches the removal of the list in force. -/
theorem horizonLoad_of_removal (hcount : q.p 2 = 0) (hlist : (h.horizon (q.p 0)).entries ≠ []) :
    horizonLoad q h = (h.setHorizon (q.p 0) { h.horizon (q.p 0) with
      next := some (q.p 1, []), due := takesForce h.time.now (h.horizon (q.p 0)) (q.p 1) [] }, some (Reply.ok)) := by
  have hkept : (h.horizon (q.p 0)).entries.isEmpty = false := List.isEmpty_eq_false_iff.2 hlist
  simp only [horizonLoad, hcount, hkept, List.range_zero, List.map_nil, List.any_nil, Nat.not_lt_zero, decide_false, bne_self_eq_false,
    Bool.or_self, Bool.false_and, Bool.and_false, Bool.false_eq_true, if_false]

end

/-- Settles O33: each command has one lemma above for the request that it accepts, but ROUTE.FLIP and QOS.POLICE, which accept every one (the
layout of ROUTE.QUERY is log entry 20). -/
theorem routerCommandsComplete : Obligations.RouterCommandsComplete := by
  refine ⟨?config, ?load, ?flip, ?query, ?mode, ?port, ?police, ?horizon⟩
  case config =>
    intro s m ttl fh sh roles ha httl hflip hsalvage hlinks
    exact execRouteConfig_of_accepted ha httl hflip hsalvage hlinks
  case load =>
    intro s m first n ws es ha hes hcount hroom hlegal hhold hepoch
    refine congrArg Host.Outcome.next (runHw_served _ ha ?_)
    exact routeLoad_of_epochZero (q := theRequest s m [first, n, ws]) hes hcount hroom hlegal hhold hepoch
  case flip =>
    intro s m ha
    exact congrArg Host.Outcome.next (runHw_served routeFlip ha rfl)
  case query =>
    intro s m ha hhold
    exact congrArg Host.Outcome.next (runHw_served id ha (routeQuery_of_settled hhold))
  case mode =>
    intro s m modes hi lo ha hlow hhigh
    exact execQosMode_of_accepted ha hlow hhigh
  case port =>
    intro s m port ws sh ha hinner hport hweights hshapers
    refine congrArg Host.Outcome.next (runHw_served _ ha ?_)
    exact qosPort_of_inner (q := theRequest s m [port, ws, sh]) hinner hport hweights hshapers
  case police =>
    intro s m port r b ha
    exact congrArg Host.Outcome.next (runHw_served _ ha rfl)
  case horizon =>
    intro s m port base ws ha hlist
    refine congrArg Host.Outcome.next (runHw_served _ ha ?_)
    exact horizonLoad_of_removal (q := theRequest s m [port, base, 0, ws]) rfl hlist

end Sys2Proof.Machine
end

section
/-!
PROOFS. Mirror pairs: their commands, their records, and what a divergence, a takeover, a fence, a resynchronisation and a switch come to
(R493–R514).
-/
namespace Sys2Proof.Machine
open Sys2Proof

/-- The state codes of a module in a pair that is not FENCED. -/
theorem stateCodes_of_inPair {n : Nat} (hn : n = 1 ∨ n = 2 ∨ n = 3) :
    (n == 1 || n == 2 || n == 3) = true ∧ (n == 0) = false ∧ (n == 4) = false := by
  rcases hn with rfl | rfl | rfl <;> decide

/-! ### Commands (R511–R513) -/

section
variable {q : Req} {h : Hw}

/-- Ranges of PAIR.JOIN (R511): links, return mode, and node IDs that differ where the mode asks it. -/
theorem pairJoin_inRange {partner links sym s0 s1 sb ret me : Nat} (hranges : 1 ≤ popcount 16 links ∧ popcount 16 links ≤ 4 ∧ ret ≠ 3)
    (hnodes : partner ≠ me ∧ s0 ≠ me ∧ s0 ≠ partner)
    (hmode : if sym = 1 then s1 ≠ me ∧ s1 ≠ partner ∧ sb = 0 ∧ s0 ≠ s1 else s1 = 0) :
    (popcount 16 links == 0 || decide (4 < popcount 16 links) || ret == 3 || partner == me || s0 == me || s0 == partner
      || (sym == 1 && (s1 == me || s1 == partner)) || (if (sym == 1) = true then sb == 1 || s0 == s1 else s1 != 0)) = false := by
  obtain ⟨hsome, hfour, hret⟩ := hranges
  obtain ⟨hpartner, hme, hother⟩ := hnodes
  have hnone : popcount 16 links ≠ 0 := by omega
  by_cases hsym : sym = 1
  · rw [if_pos hsym] at hmode
    obtain ⟨hme1, hother1, hstandby, hservices⟩ := hmode
    simp [hnone, hfour, hret, hpartner, hme, hother, hsym, hme1, hother1, hstandby, hservices]
  · rw [if_neg hsym] at hmode
    simp [hnone, hfour, hret, hpartner, hme, hother, hsym, hmode]

/-- What PAIR.JOIN offers the partner: this module's own side of the pair. -/
def joinOf (q : Req) (h : Hw) : JoinInfo :=
  { node := h.sys.moduleId, partner := q.p 0, symmetric := q.p 2 == 1, service0 := q.p 3, service1 := q.p 4, standby := q.p 5 == 1
    regions := regionExtents h }

/-- A join within its ranges, over ACTIVE links to the partner, stands and is tried against the partner's. -/
theorem pairJoin_of_accepted (hopen : poolOpen h = true) (hfree : h.pair.state = 0 ∨ h.pair.state = 4)
    (hranges : 1 ≤ popcount 16 (q.p 1) ∧ popcount 16 (q.p 1) ≤ 4 ∧ q.p 6 ≠ 3)
    (hnodes : q.p 0 ≠ h.sys.moduleId ∧ q.p 3 ≠ h.sys.moduleId ∧ q.p 3 ≠ q.p 0)
    (hmode : if q.p 2 = 1 then q.p 4 ≠ h.sys.moduleId ∧ q.p 4 ≠ q.p 0 ∧ q.p 5 = 0 ∧ q.p 3 ≠ q.p 4 else q.p 4 = 0)
    (hlinks : (bitsOf 16 (q.p 1)).any (fun n => (h.link n).state != 3 || (h.link n).partner != q.p 0) = false)
    (hempty : (((!(q.p 2 == 1) && q.p 5 == 1) || h.pair.state == 4)
      && (h.regions.any (fun r => r.1 != 0 && r.2.state != 0) || contextBound h || groupActive h)) = false) :
    pairJoin q h =
      (tryForm ((setWork (sendControl h (.join (joinOf q h))) q.m 0xC01 [] []).onPair fun p =>
        { p with asked := some (q.m, q.p 1, q.p 6, joinOf q h) }), none) := by
  have hunpaired : (h.pair.state != 0 && h.pair.state != 4) = false := by rcases hfree with e | e <;> rw [e] <;> rfl
  simp only [pairJoin, hopen, hunpaired, pairJoin_inRange hranges hnodes hmode, hlinks, hempty, Bool.not_true, Bool.false_eq_true, if_false,
    joinOf]

theorem pairLeave_of_inPair (hpaired : h.pair.state ≠ 0 ∧ h.pair.state ≠ 4) :
    pairLeave q h = (leavePair (sendControl h .leave), some Reply.ok) := by
  simp only [pairLeave, beq_eq_false_iff_ne.2 hpaired.1, beq_eq_false_iff_ne.2 hpaired.2, Bool.false_eq_true, if_false]

theorem pairLeave_of_fenced (hfenced : h.pair.state = 4) : pairLeave q h = (leavePair h, some Reply.ok) := by
  simp only [pairLeave, hfenced, Nat.reduceBEq, Bool.false_eq_true, if_false, if_true]

theorem pairSwitch_of_active (hactive : (activeServices h).contains (q.p 0) = true) (hpaired : h.pair.state = 2)
    (hstill : h.pair.moving.isSome = false) :
    pairSwitch q h = (setWork (beginSwitch (q.p 0) (some q.m) h) q.m 0xC03 [] [q.p 0], none) := by
  simp only [pairSwitch, hactive, hpaired, hstill, Nat.reduceBEq, bne_self_eq_false, Bool.not_true, Bool.or_self, Bool.false_eq_true,
    if_false]

theorem pairConfig_of_pair (hpaired : h.pair.state ≠ 0) (hret : q.p 0 ≠ 3) :
    pairConfig q h = (h.onPair fun p => { p with ret := q.p 0 }, some Reply.ok) := by
  simp only [pairConfig, beq_eq_false_iff_ne.2 hpaired, beq_eq_false_iff_ne.2 hret, Bool.false_eq_true, if_false]

theorem syncGranule_of_idle (hphase : h.pair.syncPhase ≠ 2) : syncGranule h = (0, h) := by
  rw [syncGranule, if_neg (by rwa [beq_iff_eq])]

/-- The granule that the data copy has reached is a free value (log entries 16 and 29). -/
theorem syncGranule_of_copying (hphase : h.pair.syncPhase = 2) :
    syncGranule h = ((Config.freeValue h.freeCount).toNat % 2 ^ 18, { h with freeCount := h.freeCount + 1 }) := by
  rw [syncGranule, if_pos (beq_iff_eq.2 hphase)]
  rfl

theorem pairQuery_of_granule {g : Nat} {t : Hw} (hg : syncGranule h = (g, t)) :
    pairQuery q h = (t, some (Reply.ok (pairRecord t g))) := by
  simp only [pairQuery, hg]

theorem joinTimeout_of_asked {k l r : Nat} {j : JoinInfo} (hasked : h.pair.asked = some (k, l, r, j)) :
    joinTimeout h = answer (h.onPair fun p => { p with asked := none }) k { status := stTimeout } := by
  simp only [joinTimeout, hasked]

end

/-- Settles O58: each command has one lemma above for the request that it accepts (the granule of a copy is a free value, log entries 16
and 29), and a join that finds no partner times out. -/
theorem pairCommandsComplete : Obligations.PairCommandsComplete := by
  refine ⟨?join, ?leave, ?fenced, ?switch, ?config, ?query, ?copying, ?timeout⟩
  case join =>
    intro s m partner links sym s0 s1 sb ret ha hopen hfree hranges hnodes hmode hlinks hempty _
    refine congrArg Host.Outcome.next ((busyFirst_of_asks _ _ ha).trans (runHw_unanswered ha ?_))
    exact pairJoin_of_accepted (q := theRequest s m [partner, links, sym, s0, s1, sb, ret]) hopen hfree hranges hnodes hmode hlinks hempty
  case leave =>
    intro s m ha hpaired
    exact congrArg Host.Outcome.next (runHw_served _ ha (pairLeave_of_inPair hpaired))
  case fenced =>
    intro s m ha hfenced
    exact congrArg Host.Outcome.next (runHw_served _ ha (pairLeave_of_fenced hfenced))
  case switch =>
    intro s m v ha hactive hpaired hstill
    refine congrArg Host.Outcome.next (runHw_unanswered ha ?_)
    exact pairSwitch_of_active (q := theRequest s m [v]) hactive hpaired hstill
  case config =>
    intro s m r ha hpaired hret
    refine congrArg Host.Outcome.next (runHw_served _ ha ?_)
    exact pairConfig_of_pair (q := theRequest s m [r]) hpaired hret
  case query =>
    intro s m ha hphase
    exact congrArg Host.Outcome.next (runHw_served (fun h => h) ha (pairQuery_of_granule (syncGranule_of_idle hphase)))
  case copying =>
    intro s m ha hphase
    refine congrArg Host.Outcome.next ?_
    refine (runHw_served (fun h => { h with freeCount := h.freeCount + 1 }) ha
      (pairQuery_of_granule (syncGranule_of_copying hphase))).trans ?_
    simp only [served, State.onHw]
  case timeout =>
    intro s k l r j hasked
    exact next_onHw (joinTimeout_of_asked hasked)

/-! ### Records, acknowledgements and the watch on the partner (R493, R494, R497) -/

theorem takeRecord_of_standby {s : State} {l : Nat} {r : MirrorRec} (hitem : isControl r.item = false)
    (hpaired : s.hw.pair.state = 1 ∨ s.hw.pair.state = 2 ∨ s.hw.pair.state = 3) (hlink : tbit s.hw.pair.links l = true)
    (hfence : s.hw.pair.fenceOut = false ∨ s.hw.pair.state = 1) (hstandby : (standbyServices s.hw).contains r.service = true) :
    takeRecord l r s =
      (applyItem r.item s).onHw fun h => h.onPair fun p => { p with acks := (Config.mirrorDigest r.item :: p.acks).take 16 } := by
  have hunfenced : (s.hw.pair.fenceOut && s.hw.pair.state != 1) = false := by
    rcases hfence with e | e
    · rw [e, Bool.false_and]
    · rw [e, bne_self_eq_false, Bool.and_false]
  simp only [takeRecord, hitem, (stateCodes_of_inPair hpaired).1, hlink, hunfenced, hstandby, Bool.not_true, Bool.or_self,
    Bool.false_eq_true, if_false]

theorem takeRecord_of_control {s : State} {l : Nat} {r : MirrorRec} (hitem : isControl r.item = true)
    (htakes : s.hw.pair.state = 0 ∨ s.hw.pair.state = 4 ∨ (tbit s.hw.pair.links l = true ∧ s.hw.pair.fenceOut = false)) :
    takeRecord l r s = s.onHw (applyControl r.item) := by
  rw [takeRecord, if_pos hitem]
  rcases htakes with e | e | ⟨hlink, hfence⟩
  · rw [e, if_pos (by simp)]
  · rw [e, if_pos (by simp)]
  · rw [hlink, hfence, if_pos (by simp)]

section
variable {h : Hw}

theorem mirrorLinkLost_of_inPair (hpaired : h.pair.state = 1 ∨ h.pair.state = 2 ∨ h.pair.state = 3) (hlost : h.pair.linkLost = false) :
    mirrorLinkLost h =
      if standsBy (forAll h.pair.services (fun v h => diverge v true h) h)
      then probe (forAll h.pair.services (fun v h => diverge v true h) h) else forAll h.pair.services (fun v h => diverge v true h) h := by
  obtain ⟨-, hsingle, hfenced⟩ := stateCodes_of_inPair hpaired
  simp only [mirrorLinkLost, hsingle, hfenced, hlost, Bool.or_self, Bool.false_eq_true, if_false]

/-! ### The oldest record is acknowledged (R494, R497) -/

section
variable {r : MirrorRec} {rest : List (MirrorRec × Word)}

/-- Acknowledgement of a data write: it carries no digest. -/
theorem takeMirrorAck_of_line (d : Word) {mine : Word} (hout : h.pair.outgoing = (r, mine) :: rest) (hitem : isMetadata r.item = false)
    (hagree : h.pair.diverged.isEmpty = true) :
    takeMirrorAck d h = releaseAnswers (h.onPair fun p => { p with outgoing := rest }) r.seq := by
  simp only [takeMirrorAck, hout, hitem, hagree, Hw.onPair, Bool.false_and, Bool.false_eq_true, if_false, if_true]

theorem takeMirrorAck_of_equal {d : Word} (hout : h.pair.outgoing = (r, d) :: rest) (hitem : isMetadata r.item = true)
    (hagree : h.pair.diverged.isEmpty = true) :
    takeMirrorAck d h = releaseAnswers ((pairCount h 0).onPair fun p => { p with outgoing := rest }) r.seq := by
  simp only [takeMirrorAck, hout, hitem, hagree, pairCount, Hw.onPair, bne_self_eq_false, Bool.and_false, Bool.false_eq_true, if_false,
    if_true]

/-- A digest that differs makes the record's service diverge, and what waits for the record waits on. -/
theorem takeMirrorAck_of_different {d mine : Word} (hout : h.pair.outgoing = (r, mine) :: rest) (hitem : isMetadata r.item = true)
    (hdiffer : d ≠ mine)
    (hdiverged : (diverge r.service false ((pairCount h 0).onPair fun p => { p with outgoing := rest })).pair.diverged.isEmpty = false) :
    takeMirrorAck d h =
      sendControl (diverge r.service false ((pairCount h 0).onPair fun p => { p with outgoing := rest })) (.diverge r.service) := by
  simp only [takeMirrorAck, hout, hitem, bne_iff_ne.2 hdiffer, Bool.and_self, if_true]
  exact if_neg (Bool.eq_false_iff.1 hdiverged)

end

/-! ### The self-check and the probes (R498, R499) -/

section
variable {f : Bool}

/-- The self-check that a divergence began ends: its result is counted where it fails, kept, and told the partner over a mirror link. -/
theorem selfCheckEnd_of_running {bad : Bool} (hcheck : h.pair.check = 1) (hdiverged : h.pair.diverged.isEmpty = false)
    (hbad : (f || selfCheckFails h) = bad) :
    selfCheckEnd f h =
      let g := (if bad then pairCount h 3 else h).onPair fun p => { p with check := if bad then 3 else 2, own := some bad }
      decide' (if g.pair.linkLost then g else sendControl g (.check bad)) := by
  simp only [selfCheckEnd, hcheck, hdiverged, hbad, bne_self_eq_false, Bool.or_self, Bool.false_eq_true, if_false]

theorem selfCheckEnd_of_failed_unlinked (hcheck : h.pair.check = 1) (hdiverged : h.pair.diverged.isEmpty = false)
    (hlost : h.pair.linkLost = true) (hbad : (f || selfCheckFails h) = true) :
    selfCheckEnd f h = decide' ((pairCount h 3).onPair fun p => { p with check := 3, own := some true }) := by
  simp only [selfCheckEnd_of_running hcheck hdiverged hbad, pairCount, Hw.onPair, hlost, if_true]

theorem selfCheckEnd_of_failed (hcheck : h.pair.check = 1) (hdiverged : h.pair.diverged.isEmpty = false)
    (hlost : h.pair.linkLost = false) (hbad : (f || selfCheckFails h) = true) :
    selfCheckEnd f h = decide' (sendControl ((pairCount h 3).onPair fun p => { p with check := 3, own := some true }) (.check true)) := by
  simp only [selfCheckEnd_of_running hcheck hdiverged hbad, pairCount, Hw.onPair, hlost, Bool.false_eq_true, if_true, if_false]

theorem selfCheckEnd_of_passed_unlinked (hcheck : h.pair.check = 1) (hdiverged : h.pair.diverged.isEmpty = false)
    (hlost : h.pair.linkLost = true) (hgood : (f || selfCheckFails h) = false) :
    selfCheckEnd f h = decide' (h.onPair fun p => { p with check := 2, own := some false }) := by
  simp only [selfCheckEnd_of_running hcheck hdiverged hgood, Hw.onPair, hlost, Bool.false_eq_true, if_true, if_false]

theorem selfCheckEnd_of_passed (hcheck : h.pair.check = 1) (hdiverged : h.pair.diverged.isEmpty = false)
    (hlost : h.pair.linkLost = false) (hgood : (f || selfCheckFails h) = false) :
    selfCheckEnd f h = decide' (sendControl (h.onPair fun p => { p with check := 2, own := some false }) (.check false)) := by
  simp only [selfCheckEnd_of_running hcheck hdiverged hgood, Hw.onPair, hlost, Bool.false_eq_true, if_false]

/-- While probes are under way, one more goes or, after the fourth, the active counts as failed. -/
theorem probeTimer_of_probing (hlost : h.pair.linkLost = true) (hprobes : h.pair.probes ≠ 0) (hopen : h.pair.other.isSome = false)
    (hstands : standsBy h = true) :
    probeTimer h = if h.pair.probes < 4 then probe h else decide' (h.onPair fun p => { p with other := some true }) := by
  simp only [probeTimer, hlost, beq_eq_false_iff_ne.2 hprobes, hopen, hstands, Bool.not_true, Bool.or_self, Bool.false_eq_true, if_false]

end

end

/-- Settles O59: each record, timer and acknowledgement has one lemma above (that the last 16 digests are kept is log entry 15, that an end
without mirror links decides by its own check log entry 29). -/
theorem pairRecordsComplete : Obligations.PairRecordsComplete := by
  refine ⟨?standby, ?control, ?heartbeat, ?lostStandby, ?lostActive, ?failedUnlinked, ?failed, ?passedUnlinked, ?passed, ?probe, ?lastProbe,
    ?line, ?equal, ?different⟩
  case standby =>
    intro s l r hitem hpaired hlink hfence hstandby
    exact congrArg Host.Outcome.next (takeRecord_of_standby hitem hpaired hlink hfence hstandby)
  case control =>
    intro s l r hitem htakes
    exact congrArg Host.Outcome.next (takeRecord_of_control hitem htakes)
  case heartbeat =>
    intro s hpaired
    exact next_onHw (if_pos (stateCodes_of_inPair hpaired).1)
  case lostStandby =>
    intro s hpaired hlost hstands
    exact next_onHw ((mirrorLinkLost_of_inPair hpaired hlost).trans (if_pos hstands))
  case lostActive =>
    intro s hpaired hlost hstands
    exact next_onHw ((mirrorLinkLost_of_inPair hpaired hlost).trans (if_neg (Bool.eq_false_iff.1 hstands)))
  case failedUnlinked =>
    intro s f hcheck hdiverged hlost hbad
    exact next_onHw (selfCheckEnd_of_failed_unlinked hcheck hdiverged hlost hbad)
  case failed =>
    intro s f hcheck hdiverged hlost hbad
    exact next_onHw (selfCheckEnd_of_failed hcheck hdiverged hlost hbad)
  case passedUnlinked =>
    intro s f hcheck hdiverged hlost hgood
    exact next_onHw (selfCheckEnd_of_passed_unlinked hcheck hdiverged hlost hgood)
  case passed =>
    intro s f hcheck hdiverged hlost hgood
    exact next_onHw (selfCheckEnd_of_passed hcheck hdiverged hlost hgood)
  case probe =>
    intro s hlost hprobes hopen hstands hmore
    exact next_onHw ((probeTimer_of_probing hlost hprobes hopen hstands).trans (if_pos hmore))
  case lastProbe =>
    intro s hlost hprobes hopen hstands hlast
    exact next_onHw ((probeTimer_of_probing hlost hprobes hopen hstands).trans (if_neg hlast))
  case line =>
    intro s d r mine rest hout hitem hagree
    exact next_onHw (takeMirrorAck_of_line d hout hitem hagree)
  case equal =>
    intro s d r rest hout hitem hagree
    exact next_onHw (takeMirrorAck_of_equal hout hitem hagree)
  case different =>
    intro s d mine r rest hout hitem hdiffer hdiverged
    exact next_onHw (takeMirrorAck_of_different hout hitem hdiffer hdiverged)

/-! ### Takeover and fence (R501, R503, R504) -/

/-- A takeover of one service: the fence is driven, what waited completes, the service becomes active, and its open transactions are
probed. -/
theorem takeOver_of_one {s : State} {v : Nat} (htaking : s.hw.pair.taking = [v]) (hwait : s.hw.pair.fenceWait = false)
    (hfence : s.hw.pair.fenceIn = false ∨ s.hw.pair.fenceOut = true) :
    takeOver s =
      let a := (s.onHw fun h => h.onPair fun p =>
        { p with fenceOut := true, fenceIn := true, state := 3, writeHold := true, taking := [], alone := p.services }).onHw completeAlone
      let b := probeOpen v (a.onHw fun h => becomeActive v (setEpoch h v (nextEpoch (pepochOf h v))))
      (b.onHw fun h => logOpen (raise (pairCount h 5) 0x323 v) coreLog 2 0x39 none (some 0)).onHw (resendInstances [v]) := by
  have hfree : (s.hw.pair.fenceIn && !s.hw.pair.fenceOut) = false := by
    rcases hfence with e | e
    · rw [e, Bool.false_and]
    · rw [e, Bool.not_true, Bool.and_false]
  simp only [takeOver, htaking, hwait, hfree, List.isEmpty_cons, Bool.or_self, Bool.false_eq_true, if_false, List.foldl_cons,
    List.foldl_nil]

theorem takeOver_of_fenced {s : State} (htaking : s.hw.pair.taking.isEmpty = false) (hwait : s.hw.pair.fenceWait = false)
    (hfence : s.hw.pair.fenceIn = true ∧ s.hw.pair.fenceOut = false) : takeOver s = s.onHw enterFenced := by
  simp only [takeOver, htaking, hwait, hfence, Bool.not_false, Bool.or_self, Bool.and_self, Bool.false_eq_true, if_false, if_true]

section
variable {h : Hw}

theorem fenceLow_of_inPair (hpaired : h.pair.state = 1 ∨ h.pair.state = 2 ∨ h.pair.state = 3) (hfence : h.pair.fenceOut = false) :
    fenceLow h = enterFenced h := by
  obtain ⟨-, hsingle, hfenced⟩ := stateCodes_of_inPair hpaired
  simp only [fenceLow, hsingle, hfenced, hfence, Bool.or_self, Bool.false_eq_true, if_false]

/-! ### Resynchronisation and switch (R508–R510) -/

theorem emit_service0 (h : Hw) (v : Nat) (i : MirrorItem) : (emit h v i).pair.service0 = h.pair.service0 := by
  unfold emit
  split <;> rfl

theorem raise_pair (h : Hw) (n info : Nat) : (raise h n info).pair = h.pair := by rw [raise_frame]

theorem resyncDone_of_copied (hstate : h.pair.state = 1) (hphase : h.pair.syncPhase = 2) :
    resyncDone h =
      let a := h.onPair fun p => { p with state := 2, syncPhase := 0, fenceIn := false, fenceOut := false, returned := false }
      let b := raise (emit a (mirrorHead a) .dataDone) 0x325 h.pair.service0
      if reclaims h.pair then sendControl b (.reclaim h.pair.service0) else b := by
  simp only [resyncDone, hstate, hphase, bne_self_eq_false, Bool.or_self, Bool.false_eq_true, if_false, raise_pair, emit_service0]
  rfl

theorem switchDrained_of_idle {v k : Nat} (hmoving : h.pair.moving = some (v, some k)) (hbusy : serviceBusy h v = false)
    (hstate : h.pair.state = 2) :
    switchDrained h =
      let e := nextEpoch (pepochOf h v)
      let a := setRole (setEpoch (pairCount (emit h v (.handOver v e)) 6) v e) v 2
      let b := abandonChunks (a.onPair fun p => { p with moving := none, heldPackets := p.heldPackets.filter (fun q => q.packet.dst != v) })
      answer ((h.pair.heldPackets.filter (fun p => p.packet.dst == v)).foldl releasePacket b) k Reply.ok := by
  simp only [switchDrained, hmoving, hbusy, hstate, bne_self_eq_false, Bool.or_self, Bool.false_eq_true, if_false]

end

section
variable {s : State}

/-- The addresses of a region's bytes in the pool. -/
def regionLo (r : Region) : Nat := r.base * 2097152
def regionHi (r : Region) : Nat := (r.base + r.extent) * 2097152

/-- The 128-byte lines of a region that hold data or poison. -/
def usedLines (p : Pool) (r : Region) : List Nat :=
  ((List.filter (fun c : Nat × Byte => decide (regionLo r ≤ c.1) && decide (c.1 < regionHi r)) p.mem).map (fun (c : Nat × Byte) => c.1 / 128)
    ++ (List.filter (fun c : Nat × Bool => decide (regionLo r ≤ 8 * c.1) && decide (8 * c.1 < regionHi r)) p.poison).map
      (fun (c : Nat × Bool) => c.1 / 16)).eraseDups

/-- A region's records of the data copy: the standby wipes its granules, and then takes each line in use (log entry 15). -/
def copyRegion (p : Pool) (h : Hw) (r : Nat × Region) : Hw :=
  (usedLines p r.2).foldl (fun g l => emit g r.2.service (lineItem p (128 * l))) (emit h r.2.service (.wipe r.1))

/-- The data of mirrored regions follows the metadata, one region after another. -/
theorem metadataDone_of_sent {rs : List (Nat × Region)} (hstate : s.hw.pair.state = 1) (hphase : s.hw.pair.syncPhase = 1)
    (hregions : s.hw.regions.filter (fun x => x.2.mirrored && x.2.state != 0) = rs) :
    metadataDone s = s.onHw fun h =>
      let a := h.onPair fun p => { p with syncPhase := 2 }
      rs.foldl (copyRegion s.pool) (emit a (mirrorHead a) .metadataDone) := by
  subst hregions
  simp only [metadataDone, hstate, hphase, bne_self_eq_false, Bool.or_self, Bool.false_eq_true, if_false]
  rfl

end

/-- Settles O60: each outcome has one lemma above (one write hold for all services, no roles while FENCED, PAIR_FENCE_N sensed in a pair
alone and FENCE_IN cleared at the end of a resynchronisation are log entry 29, the records of its data log entry 15). -/
theorem pairOutcomesComplete : Obligations.PairOutcomesComplete := by
  refine ⟨?takeover, ?fenced, ?fenceWait, ?writeHold, ?fenceLow, ?noRegion, ?oneRegion, ?reclaim, ?resynced, ?switched⟩
  case takeover =>
    intro s v htaking hwait hfence
    exact congrArg Host.Outcome.next (takeOver_of_one htaking hwait hfence)
  case fenced =>
    intro s htaking hwait hfence
    exact congrArg Host.Outcome.next (takeOver_of_fenced htaking hwait hfence)
  case fenceWait =>
    intro s
    exact exec_takeoverFenceWaitEnd s
  case writeHold =>
    intro s
    exact exec_takeoverWriteHoldEnd s
  case fenceLow =>
    intro s hpaired hfence
    exact next_onHw (fenceLow_of_inPair hpaired hfence)
  case noRegion =>
    intro s hstate hphase hnone
    have hregions : s.hw.regions.filter (fun x => x.2.mirrored && x.2.state != 0) = [] := by
      rw [List.filter_eq_nil_iff]
      exact List.any_eq_false.1 hnone
    exact congrArg Host.Outcome.next (metadataDone_of_sent hstate hphase hregions)
  case oneRegion =>
    intro s r hstate hphase hregions
    exact congrArg Host.Outcome.next (metadataDone_of_sent hstate hphase hregions)
  case reclaim =>
    intro s hstate hphase hback
    exact next_onHw ((resyncDone_of_copied hstate hphase).trans (if_pos hback))
  case resynced =>
    intro s hstate hphase hback
    exact next_onHw ((resyncDone_of_copied hstate hphase).trans (if_neg (Bool.eq_false_iff.1 hback)))
  case switched =>
    intro s v k hmoving hbusy hstate
    exact next_onHw (switchDrained_of_idle hmoving hbusy hstate)

end Sys2Proof.Machine
end

section
/-!
PROOFS. The window onto mailboxes and the event controller, the mailbox service, claims, messages and slot clears, and GPIO (R515–R543,
R648–R661).
-/
namespace Sys2Proof.Machine
open Sys2Proof

/-! ### Writes of a mailbox page (R515, R516, R519) -/

section
variable {h : Hw} {m o value : Nat}

/-- An 8-byte write within the page of a mailbox, its ring apart, is a write of that offset of the mailbox. -/
theorem writeReg_mailbox (who : Requester) (hm : m < 16) (ho : o < 0x1000) (halign : o % 8 = 0) (hring : o ≠ 0x18) :
    writeReg h who (0x10000 + 0x1000 * m + o) 8 value = writeMailbox h m o value := by
  have haligned : (0x10000 + 0x1000 * m + o) % 8 = 0 := by omega
  have hblock : (0x10000 + 0x1000 * m + o) / 0x10000 = 1 := by omega
  have hpage : (0x10000 + 0x1000 * m + o) % 0x10000 / 0x1000 = m := by omega
  have hoffset : (0x10000 + 0x1000 * m + o) % 0x1000 = o := by omega
  simp only [writeReg, accessLegal, haligned, writeWord, hblock, hpage, hoffset, beq_eq_false_iff_ne.2 hring, beq_self_eq_true,
    Bool.and_self, Bool.true_or, Bool.not_true, Bool.false_eq_true, if_false, if_true]

theorem writeMailbox_of_busy (ho : o < 0x800) (hbusy : (h.mailbox m).state = 1) :
    writeMailbox h m o value = h.setMailbox m { h.mailbox m with ignored := satInc 16 (h.mailbox m).ignored } := by
  simp only [writeMailbox, Nat.not_le.2 ho, hbusy, beq_self_eq_true, if_false, if_true]

theorem writeMailbox_of_response (ho : 0x800 ≤ o) : writeMailbox h m o value = h := by
  simp only [writeMailbox, ho, if_true]

end

/-- Settles O18: a write of a mailbox page (`writeReg_mailbox`) has one lemma above for each half. -/
theorem busyMailboxesKeepTheirRequest : Obligations.BusyMailboxesKeepTheirRequest := by
  intro h who m o value halign
  refine ⟨?request, ?response⟩
  case request =>
    intro ho hring hbusy
    rw [writeReg_mailbox who m.isLt (by omega) halign hring, writeMailbox_of_busy ho hbusy]
  case response =>
    intro hlow hhigh
    rw [writeReg_mailbox who m.isLt hhigh halign (by omega), writeMailbox_of_response hlow]

/-! ### The mailbox service (R518, R520, R529) -/

section
variable {s : State} {m : Nat}

/-- A ring of a mailbox that is not BUSY, for an opcode that the table knows, is accepted and waits its turn. -/
theorem ring_of_accepted {h : Hw} {who : Requester} (hphase : h.sys.phase = 1) (hfree : (h.mailbox m).state ≠ 1)
    (hop : opcodeKnown (h.mailbox m).opcode = true) :
    ring h who m =
      let x := h.mailbox m
      raise { h.setMailbox m { x with
          state := 1, rtag := x.tag, work := none, ringer := match who with | .pcie => 0 | .fabric n => n
          pcie := match who with | .pcie => true | .fabric _ => false } with mbxOrder := h.mbxOrder ++ [m] } (0x380 + m) 0 := by
  simp only [ring, hphase, beq_eq_false_iff_ne.2 hfree, hop, bne_self_eq_false, Bool.false_eq_true, if_false, if_true]
  rfl

theorem mbxRingWrite_of_permitted {who : Requester} {value : Nat} (hring : tbit value 0 = true) (hmay : mayManage s.hw who = true) :
    mbxRingWrite s who m value = s.onHw fun h => ring h who m := by
  simp only [mbxRingWrite, hring, hmay, Bool.and_self, if_true]

/-- MBX.NOP takes a body of any whole number of words. -/
theorem nop_of_accepted (hrun : mayRun s.hw m 0x102 = true) (hlock : s.hw.tap.unlock ≠ 1) (hwords : (s.hw.mailbox m).len % 8 = 0)
    (hlen : (s.hw.mailbox m).len ≤ 2016) (hreserved : (s.hw.mailbox m).reserved = 0) (hpart : (s.hw.mailbox m).part = 0) :
    nop s m = served s m id (Reply.ok (leBytes (s.hw.mailbox m).len (s.hw.mailbox m).body)) := by
  simp only [nop, hrun, beq_eq_false_iff_ne.2 hlock, hwords, Nat.not_lt.2 hlen, hreserved, hpart, decide_false, bne_self_eq_false,
    Bool.or_self, Bool.false_eq_true, if_false, if_true]
  rfl

end

/-- Settles O19: a ring, MBX.INFO and MBX.NOP have one lemma each. -/
theorem mailboxServiceCompletes : Obligations.MailboxServiceCompletes := by
  refine ⟨?ring, ?info, ?nop⟩
  case ring =>
    intro s m who value hring hmay hphase hfree hop
    refine congrArg Host.Outcome.next ((mbxRingWrite_of_permitted hring hmay).trans ?_)
    exact congrArg (fun h => { s with hw := h }) (ring_of_accepted hphase hfree hop)
  case info =>
    intro s m ha
    exact congrArg Host.Outcome.next (runHw_served id ha rfl)
  case nop =>
    intro s m hrun hlock hwords hlen hreserved hpart
    exact congrArg Host.Outcome.next (nop_of_accepted hrun hlock hwords hlen hreserved hpart)

/-! ### Claims, completions and messages (R534–R538, R659) -/

section
variable {h : Hw} {v : Nat}

/-- A claim with a service slot free takes the source that R535 picks. -/
theorem claim_of_pending {n : Nat} (hroom : (h.vector v).outstanding < 16) (hpick : claimPick h v = some n) :
    (claim h v).2 = (h.setSource n { h.source n with count := 0, inService := some v }).setVector v { h.vector v with
      unanswered := false, attempted := false, outstanding := (h.vector v).outstanding + 1, lastClaimed := n
      claimResult := claimWord n (h.source n) } := by
  simp only [claim, Nat.not_le.2 hroom, hpick, if_false]

theorem complete_of_inService {n : Nat} (hservice : (h.source n).inService = some v) :
    complete h v n = (settleTarget (h.setSource n { h.source n with inService := none }) n).setVector v
      { h.vector v with outstanding := (h.vector v).outstanding - 1, attempted := false } := by
  simp only [complete, hservice, beq_self_eq_true, if_true]

/-- A completion of a source that the vector does not serve is counted and nothing else. -/
theorem complete_of_other {n : Nat} (hservice : (h.source n).inService ≠ some v) :
    complete h v n = h.setVector v { h.vector v with badComplete := satInc 16 (h.vector v).badComplete } := by
  simp only [complete, beq_eq_false_iff_ne.2 hservice, Bool.false_eq_true, if_false]

/-- A message over PCI Express that nothing holds goes as a write. -/
theorem sendMessage_of_pcie (hmay : mayMessage h v = true) (hnew : (h.vector v).attempted = false) (hvector : v < 64)
    (hheld : messageHeld h v = false) (hpcie : (h.vector v).delivery = false) :
    sendMessage h v =
      messageSent { h with pcie := { h.pcie with mastered := some ((h.vector v).msixAddr, (h.vector v).msixData) } } v := by
  simp only [sendMessage, hmay, hnew, Nat.not_le.2 hvector, hheld, hpcie, Bool.not_true, Bool.not_false, Bool.or_self, Bool.false_eq_true,
    if_false, if_true]

theorem unansweredTimeout_of_unanswered (hwait : (h.vector v).unanswered = true) :
    unansweredTimeout h v = h.setVector v { h.vector v with unanswered := false, attempted := false } := by
  simp only [unansweredTimeout, hwait, if_true]

/-- With no message held, EVC_MSIX_CTL takes the entry's data and mask. -/
theorem writeMsixCtl_of_free {value : Nat} (hheld : (h.vector v).held = false) :
    writeMsixCtl h v value = h.setVector v { h.vector v with
      msixData := fld value 0 32, msixMask := tbit value 32, attempted := false, held := false } := by
  simp only [writeMsixCtl, hheld, Bool.false_and, Bool.and_false, Bool.false_eq_true, if_false]

/-! ### Slots of an error log (R543, R661) -/

section
variable {l value : Nat}

theorem clearSlot_first (hbit : value % 2 = 1) :
    clearSlot h l 0 value = settleFatal (h.setLog l { h.log l with first := { (h.log l).first with valid := false } }) l := by
  simp only [clearSlot, hbit, Nat.reduceBEq, Bool.false_eq_true, if_false]

theorem clearSlot_latest (hbit : value % 2 = 1) :
    clearSlot h l 1 value = settleFatal (h.setLog l { h.log l with latest := { (h.log l).latest with valid := false } }) l := by
  simp only [clearSlot, hbit, Nat.reduceBEq, Bool.false_eq_true, if_false]

theorem clearSlot_fatal (hbit : value % 2 = 1) :
    clearSlot h l 2 value = settleFatal (h.setLog l { h.log l with fatal := { (h.log l).fatal with valid := false } }) l := by
  simp only [clearSlot, hbit, Nat.reduceBEq, Bool.false_eq_true, if_false]

end

end

/-- Settles O21: each command and each timer has one lemma above. -/
theorem eventCommandsComplete : Obligations.EventCommandsComplete := by
  refine ⟨?claim, ?complete, ?other, ?message, ?unanswered, ?moderation, ?msix, ?first, ?latest, ?fatal⟩
  case claim =>
    intro s v n hroom hpick
    exact next_onHw (claim_of_pending hroom hpick)
  case complete =>
    intro s v value hservice
    exact next_onHw (complete_of_inService hservice)
  case other =>
    intro s v value hservice
    exact next_onHw (complete_of_other hservice)
  case message =>
    intro s v hmay hnew hvector hheld hpcie
    exact next_onHw (sendMessage_of_pcie hmay hnew hvector hheld hpcie)
  case unanswered =>
    intro s v hwait
    exact next_onHw (unansweredTimeout_of_unanswered hwait)
  case moderation =>
    intro s v
    exact exec_moderationExpiry v s
  case msix =>
    intro s v value hheld
    exact next_onHw (writeMsixCtl_of_free hheld)
  case first =>
    intro s log value hbit
    exact next_onHw (clearSlot_first hbit)
  case latest =>
    intro s log value hbit
    exact next_onHw (clearSlot_latest hbit)
  case fatal =>
    intro s log value hbit
    exact next_onHw (clearSlot_fatal hbit)

/-! ### GPIO (R648–R650) -/

theorem gpioConfig_of_accepted {q : Req} {h : Hw} (hpull : q.p 3 ≠ 3) (hfilter : q.p 5 ≤ 1000) :
    gpioConfig q h = (forAll (bitsOf 8 (q.p 0)) (fun p h => settlePin (h.setPin p { h.pin p with
      dir := q.p 1 == 1, od := q.p 2 == 1, pull := q.p 3, polarity := q.p 4 == 1, filterUs := q.p 5 }) p) h, some Reply.ok) := by
  simp only [gpioConfig, beq_eq_false_iff_ne.2 hpull, Nat.not_lt.2 hfilter, decide_false, Bool.or_self, Bool.false_eq_true, if_false]

/-- Settles O20: GPIO.CONFIG refuses ranges alone (`gpioConfig_of_accepted`), and the other commands and the filter have no case. -/
theorem gpioCommandsComplete : Obligations.GpioCommandsComplete := by
  refine ⟨?filter, ?config, ?set, ?query⟩
  case filter =>
    intro s pin high
    exact exec_gpioFilterExpiry pin high s
  case config =>
    intro s m mask d od pull pol us ha hpull hfilter
    refine congrArg Host.Outcome.next (runHw_served _ ha ?_)
    exact gpioConfig_of_accepted (q := theRequest s m [mask, d, od, pull, pol, us]) hpull hfilter
  case set =>
    intro s m mask x ha
    refine congrArg Host.Outcome.next (runHw_served _ ha ?_)
    rfl
  case query =>
    intro s m ha
    exact congrArg Host.Outcome.next (runHw_served id ha rfl)

/-! ### EVC_INSERV (R657) -/

theorem packBits_lt (l : List Bool) : packBits l < 2 ^ l.length := by
  induction l with
  | nil => exact Nat.one_pos
  | cons b r ih =>
    have hbit : b2n b < 2 := by cases b <;> decide
    rw [packBits, List.length_cons, Nat.pow_succ]
    omega

theorem tbit_packBits (l : List Bool) (i : Nat) : tbit (packBits l) i = l.getD i false := by
  induction l generalizing i with
  | nil => simp [packBits, tbit]
  | cons b r ih =>
    have hbit : b2n b < 2 := by cases b <;> decide
    cases i with
    | zero =>
      have hlow : (b2n b + 2 * packBits r) % 2 = b2n b := by omega
      rw [packBits, tbit, Nat.pow_zero, Nat.div_one, hlow]
      cases b <;> rfl
    | succ i =>
      have habove : (b2n b + 2 * packBits r) / 2 = packBits r := by omega
      rw [packBits, tbit, Nat.pow_succ', ← Nat.div_div_eq_div_mul, habove]
      exact ih i

theorem packBits_eq_zero {l : List Bool} (hl : ∀ b ∈ l, b = false) : packBits l = 0 := by
  induction l with
  | nil => rfl
  | cons b r ih =>
    rw [packBits, hl b List.mem_cons_self, ih fun c hc => hl c (List.mem_cons_of_mem b hc)]
    rfl

/-- The IN_SERVICE bits of sources 64n to 64n + 63. -/
def inServiceBits (h : Hw) (n : Nat) : List Bool := (List.range 64).map fun b => (h.source (64 * n + b)).inService.isSome

section
variable {n : Nat}

theorem readReg_inService (h : Hw) (hn : n < 16) (hphase : h.sys.phase ≠ 2) :
    (readReg h (0x23080 + 8 * n) 8).1 = packBits (inServiceBits h n) := by
  have haligned : (0x23080 + 8 * n) % 8 = 0 := by omega
  have hclaim : claimAt (0x23080 + 8 * n) = none := by
    have hbeyond : ¬ 0x23080 + 8 * n < 0x22800 := by omega
    simp only [claimAt, hbeyond, decide_false, Bool.and_false, Bool.false_and, Bool.false_eq_true, if_false]
  have hblock : (0x23080 + 8 * n) / 0x10000 = 2 := by omega
  have hoffset : (0x23080 + 8 * n) % 0x10000 = 0x3080 + 8 * n := by omega
  have hevents : readEvents h (0x3080 + 8 * n) = packBits (inServiceBits h n) := by
    have hsrc : ¬ 0x3080 + 8 * n < 0x2000 := by omega
    have hvec : ¬ 0x3080 + 8 * n < 0x2800 := by omega
    have hpend : ¬ 0x3080 + 8 * n < 0x3080 := by omega
    have hlow : 0x3080 ≤ 0x3080 + 8 * n := by omega
    have hhigh : 0x3080 + 8 * n < 0x3100 := by omega
    have hindex : (0x3080 + 8 * n - 0x3080) / 8 = n := by omega
    simp only [readEvents, hsrc, hvec, hpend, hlow, hhigh, hindex, decide_true, decide_false, Bool.and_false, Bool.and_self,
      Bool.false_eq_true, if_false, if_true, inServiceBits]
  simp only [readReg, accessLegal, haligned, hclaim, readWord, hblock, hoffset, hevents, beq_eq_false_iff_ne.2 hphase, beq_self_eq_true,
    Bool.and_self, Bool.true_or, Bool.not_true, Bool.false_eq_true, if_false, if_true]

/-- EVC_INSERV takes no write. -/
theorem writeWord_inService (h : Hw) (who : Requester) (value : Nat) (hn : n < 16) : writeWord h who (0x23080 + 8 * n) value = h := by
  have hblock : (0x23080 + 8 * n) / 0x10000 = 2 := by omega
  have hoffset : (0x23080 + 8 * n) % 0x10000 = 0x3080 + 8 * n := by omega
  have hsrc : ¬ 0x3080 + 8 * n < 0x2000 := by omega
  have hvec : ¬ 0x3080 + 8 * n < 0x2800 := by omega
  have hmsix : ¬ 0x8000 ≤ 0x3080 + 8 * n := by omega
  simp only [writeWord, hblock, hoffset, writeEvents, hsrc, hvec, hmsix, decide_false, Bool.false_and, Bool.false_eq_true, if_false]

theorem writeReg_inService (h : Hw) (who : Requester) (size value : Nat) (hn : n < 16) :
    writeReg h who (0x23080 + 8 * n) size value = h := by
  have hword : (0x23080 + 8 * n) / 8 * 8 = 0x23080 + 8 * n := by omega
  unfold writeReg
  dsimp only
  rw [hword, writeWord_inService h who _ hn, writeWord_inService h who _ hn]
  simp only [ite_self]

end

/-- Settles O11: the register reads as `inServiceBits` packed, and a write of any size comes to `writeWord_inService`. -/
theorem inServiceReads : Obligations.InServiceReads := by
  intro h n b hn hb hphase
  refine ⟨?bit, ?width, ?reset, ?write⟩
  case bit =>
    rw [readReg_inService h hn hphase, tbit_packBits, inServiceBits, List.getD_eq_getElem?_getD, List.getElem?_map,
      List.getElem?_range hb]
    rfl
  case width =>
    rw [readReg_inService h hn hphase]
    refine Nat.lt_of_lt_of_eq (packBits_lt _) ?_
    rw [inServiceBits, List.length_map, List.length_range]
  case reset =>
    rw [readReg_inService State.reset.hw hn (by decide)]
    refine packBits_eq_zero fun x hx => ?_
    obtain ⟨k, -, rfl⟩ := List.mem_map.1 hx
    rfl
  case write =>
    intro who size value
    exact writeReg_inService h who size value hn

end Sys2Proof.Machine
end

section
/-!
PROOFS. The clock block: gates, switches and ramps, the reference monitor and the PLL, the observation output and the crossings (R579–R599).
-/
namespace Sys2Proof.Machine
open Sys2Proof

/-! ### CLK.GATE and CLK.SWITCH (R581, R582, R590) -/

section
variable {q : Req} {h : Hw}

/-- A CLOSE of an open tile gate waits for the window of R588. -/
theorem clkGate_of_tileClose (hunit : q.p 0 = 0) (htile : q.p 1 < 32) (hclose : q.p 2 = 1) (hrun : h.pwr.state = 0)
    (hgroup : groupActive h = false) (hopen : tbit h.clk.gateTile (q.p 1) = false) :
    clkGate q h = (setWork (h.onClk fun c =>
      { c with gateRequests := c.gateRequests ++ [{ unit := 0, index := q.p 1, mailbox := q.m }] }) q.m 0xE01 [0, q.p 1] [], none) := by
  have hindex : ¬ 31 < q.p 1 := by omega
  simp only [clkGate, hunit, hindex, hclose, hrun, hgroup, gateClosed, hopen, Nat.reduceBEq, beq_self_eq_true, bne_self_eq_false,
    decide_false, Bool.not_true, Bool.and_self, Bool.and_false, Bool.false_and, Bool.or_self, Bool.false_eq_true, if_false, if_true,
    Bool.false_beq]

/-- An OPEN of a link's closed gate opens it at once, and CLK_FAB runs from then on. -/
theorem clkGate_of_linkOpen (hunit : q.p 0 = 1) (hclose : q.p 2 = 0) (hwhole : isolated h (5 * 64 + q.p 1) = false)
    (hclosed : tbit h.clk.gateLink (q.p 1) = true) :
    clkGate q h = (startDomain (moveGate h 1 (q.p 1) false) 1, some Reply.ok) := by
  simp only [clkGate, hunit, hclose, hwhole, gateClosed, hclosed, Nat.reduceBEq, beq_self_eq_true, Bool.not_false, Bool.and_false,
    Bool.false_and, Bool.or_self, Bool.false_eq_true, if_false, Bool.true_beq]

/-- A switch of a domain other than CLK_TILE that ends without a ramp is answered at once. -/
theorem clkSwitch_of_settled (hdomain : 1 ≤ q.p 0 ∧ q.p 0 ≤ 4) (hsource : q.p 1 < 3) (hdiv : q.p 2 ≠ 0)
    (hslow : sourceKhz h (q.p 1) ≤ 6000000 / fullDivider (q.p 0) * q.p 2) (haux : q.p 0 = 4 → sourceKhz h (q.p 1) = 100000 * q.p 2)
    (hidle : domainInUse h (q.p 0) = false) (hclk : h.clk.loss = false ∧ h.clk.returning = false)
    (hready : sourceReady h (q.p 1) = true) (hramp : ((switchDomain h (q.p 0) (q.p 1) (q.p 2)).domain (q.p 0)).ramping = false) :
    clkSwitch q h = (switchDomain h (q.p 0) (q.p 1) (q.p 2), some Reply.ok) := by
  have htile : (q.p 0 == 0) = false := beq_eq_false_iff_ne.2 (by omega)
  have hring : (q.p 1 == 3) = false := beq_eq_false_iff_ne.2 (by omega)
  have hauxFree : (q.p 0 == 4 && sourceKhz h (q.p 1) != 100000 * q.p 2) = false := by
    rw [Bool.and_eq_false_imp, beq_iff_eq, bne_eq_false_iff_eq]
    exact haux
  simp only [clkSwitch, Nat.not_lt.2 hdomain.2, hring, beq_eq_false_iff_ne.2 hdiv, Nat.not_lt.2 hslow, hauxFree, hidle, hclk.1, hclk.2,
    htile, hready, hramp, decide_false, Bool.not_true, Bool.false_and, Bool.or_self, Bool.false_eq_true, if_false]

end

/-! ### CLK_OBS (R592) -/

section
variable {c : Clocks} {v : Nat}

theorem writeObs_of_disabled (hoff : c.obsEnable = false) :
    writeObs c v = { c with
      obsEnable := tbit v 0, obsSel := fld v 1 4, obsDiv := fld v 5 4, obsIgnored := c.obsIgnored && !tbit v 9 } := by
  simp only [writeObs, hoff, Bool.not_false, if_true]

/-- An enabled output ignores a change of its signal or divider, and notes it. -/
theorem writeObs_of_enabled (hon : c.obsEnable = true) :
    writeObs c v = { c with
      obsEnable := tbit v 0, obsIgnored := c.obsIgnored && !tbit v 9 || fld v 1 4 != c.obsSel || fld v 5 4 != c.obsDiv } := by
  simp only [writeObs, hon, Bool.not_true, Bool.false_eq_true, if_false]

end

/-! ### The reference and the PLL (R583–R586) -/

section
variable {h : Hw}

/-- A good window of a reference that is within limits (that a window sets RING_READY is the model's choice). -/
theorem monitorWindow_of_good {e : Nat} (hedges : 80 ≤ e ∧ e ≤ 120) (href : h.clk.refOk = true) :
    monitorWindow h e = { h with
      always := { h.always with badRun := 0, goodRun := Nat.min (h.always.goodRun + 1) 1000 }
      clk := { h.clk with ringReady := true } } := by
  simp only [monitorWindow, hedges.1, hedges.2, href, Hw.onClk, decide_true, decide_false, Bool.and_self, Bool.and_false, Bool.not_true,
    Bool.false_and, Bool.false_eq_true, if_false, if_true, Nat.not_le.2 Nat.two_pos]
  rfl

/-- The second bad window in a row takes a locked PLL's reference away. -/
theorem monitorWindow_of_lost {e : Nat} (hedges : e < 80 ∨ 120 < e) (href : h.clk.refOk = true) (hbad : 1 ≤ h.always.badRun)
    (hlocked : h.clk.pllState = 2) :
    monitorWindow h e = clockLoss { h with
      always := { h.always with badRun := 2, goodRun := 0 }
      clk := { h.clk with ringReady := true, refOk := false, pllState := 3, returning := false } } := by
  have hwindow : (decide (80 ≤ e) && decide (e ≤ 120)) = false := by
    rw [Bool.and_eq_false_imp, decide_eq_true_iff, decide_eq_false_iff_not]
    omega
  have hsecond : 2 ≤ h.always.badRun + 1 := by omega
  have hrun : Nat.min (h.always.badRun + 1) 2 = 2 := Nat.min_eq_right hsecond
  simp only [monitorWindow, hwindow, href, hsecond, hrun, hlocked, Hw.onClk, decide_true, beq_self_eq_true, Bool.and_self, Bool.true_or,
    Bool.false_eq_true, if_false, if_true]
  rfl

/-- The PLL locks on return, and each domain that runs on RING ramps up from it. -/
theorem pllLocked_of_returning (hlocking : h.clk.pllState = 1) (hreturn : h.clk.returning = true) (href : h.clk.refOk = true) :
    pllLocked h = returnDone (forBelow 5 (fun d h =>
      if (h.domain d).source == 2 then moveDomain h d 0 (pllStart d) (pllEnd h d) else h) (h.onClk fun c => { c with pllState := 2 })) := by
  simp only [pllLocked, hlocking, hreturn, href, Hw.onClk, bne_self_eq_false, Bool.not_true, Bool.or_self, Bool.false_eq_true, if_false,
    if_true]

theorem pllTimeout_of_locking (hlocking : h.clk.pllState = 1) (href : h.clk.refOk = true) :
    pllTimeout h = countClk (logOpen h 163 2 0x63 (some 1) (some 0)) 2 := by
  simp only [pllTimeout, hlocking, href, beq_self_eq_true, Bool.and_self, if_true]

theorem pllLost_of_locked (hlocked : h.clk.pllState = 2) (href : h.clk.refOk = true) :
    pllLost h = toRing ((clockLoss ((countClk (logOpen h 163 2 0x63 (some 2) (some 0)) 2).onClk fun c =>
      { c with pllState := 1 })).onClk fun c => { c with returning := true }) := by
  simp only [pllLost, hlocked, href, beq_self_eq_true, Bool.and_self, if_true]

/-! ### Ramps (R581, R584) -/

section
variable {d : Nat}

theorem rampStep_of_ramping (hramp : (h.domain d).ramping = true) (hcoast : ((h.domain d).source == 0 && h.clk.pllState != 2) = false)
    (hfar : (h.domain d).target + 1 < (h.domain d).divider) :
    rampStep h d = h.setDomain d { h.domain d with divider := (h.domain d).divider - 1 } := by
  simp only [rampStep, hramp, hcoast, Nat.not_le.2 hfar, Bool.not_true, Bool.or_self, Bool.false_eq_true, if_false]

/-- A domain on a PLL that coasts keeps its divider. -/
theorem rampStep_of_coasting (hsource : (h.domain d).source = 0) (hpll : h.clk.pllState ≠ 2) : rampStep h d = h := by
  simp only [rampStep, hsource, bne_iff_ne.2 hpll, beq_self_eq_true, Bool.and_self, Bool.or_true, if_true]

theorem rampStep_of_last (hramp : (h.domain d).ramping = true) (hcoast : ((h.domain d).source == 0 && h.clk.pllState != 2) = false)
    (hnear : (h.domain d).divider ≤ (h.domain d).target + 1) :
    rampStep h d = returnDone (settleSwitch
      (switchEnded (h.setDomain d { h.domain d with divider := (h.domain d).target, ramping := false }) d) d) := by
  simp only [rampStep, hramp, hcoast, hnear, Bool.not_true, Bool.or_self, Bool.false_eq_true, if_false, if_true]

end

/-! ### The window of a close, and crossings (R588, R597) -/

section
variable {u i : Nat} {r : GateRequest}

/-- The request that a window ends is forgotten. -/
def forgetGate (h : Hw) (r : GateRequest) : Hw := h.onClk fun c => { c with gateRequests := c.gateRequests.filter (fun x => x != r) }

/-- A quiescent unit's gate closes, and the mailbox that still waits is answered. -/
theorem gateWindowEnd_of_quiescent (hfind : h.clk.gateRequests.find? (fun x => x.unit == u && x.index == i) = some r)
    (hquiet : quiescent (forgetGate h r) u i = true) :
    gateWindowEnd h u i =
      if (workOf h r.mailbox 0xE01).isSome then answer (moveGate (forgetGate h r) u i true) r.mailbox Reply.ok
      else moveGate (forgetGate h r) u i true := by
  rw [forgetGate] at hquiet
  simp only [gateWindowEnd, hfind, hquiet, if_true, forgetGate]
  rfl

end

theorem openCrossing_of_sensed {i : Nat} (hsensed : h.sys.fusesSensed = true) (hperst : i = 0 → h.pcie.perstLow = false) :
    openCrossing h i = { h with always := { h.always with crossings := KMap.mod h.always.crossings i fun x =>
      { x with isOpen := true, peerInReset := false } } } := by
  have hlive : (i == 0 && h.pcie.perstLow) = false := by
    rw [Bool.and_eq_false_imp, beq_iff_eq]
    exact hperst
  simp only [openCrossing, hsensed, hlive, Bool.not_false, Bool.and_self, if_true]

end

/-- Settles O36: each command, event and register has one lemma above (that REF_OK clearing during a return counts as the same loss is log
entry 32). -/
theorem clocksComplete : Obligations.ClocksComplete := by
  refine ⟨?tileClose, ?linkOpen, ?switch, ?query, ?obsDisabled, ?obsEnabled, ?good, ?lost, ?locked, ?lockTimeout, ?lossOfLock, ?ramp, ?coast,
    ?lastStep, ?unasked, ?asked, ?crossing⟩
  case tileClose =>
    intro s m i ha htile hrun hgroup hopen
    refine congrArg Host.Outcome.next (runHw_unanswered ha ?_)
    exact clkGate_of_tileClose (q := theRequest s m [0, i, 1]) rfl htile rfl hrun hgroup hopen
  case linkOpen =>
    intro s m i ha hwhole hclosed
    refine congrArg Host.Outcome.next (runHw_served (fun h => startDomain (moveGate h 1 i false) 1) ha ?_)
    exact clkGate_of_linkOpen (q := theRequest s m [1, i, 0]) rfl rfl hwhole hclosed
  case switch =>
    intro s m d src div ha hdomain hsource hdiv hslow haux hidle hclk hready hramp
    refine congrArg Host.Outcome.next (runHw_served (fun h => switchDomain h d src div) ha ?_)
    exact clkSwitch_of_settled (q := theRequest s m [d, src, div]) hdomain hsource hdiv hslow haux hidle hclk hready hramp
  case query =>
    intro s m ha
    exact congrArg Host.Outcome.next (runHw_served id ha rfl)
  case obsDisabled =>
    intro s v hoff
    exact next_onHw (congrArg (fun c => { s.hw with clk := c }) (writeObs_of_disabled hoff))
  case obsEnabled =>
    intro s v hon
    exact next_onHw (congrArg (fun c => { s.hw with clk := c }) (writeObs_of_enabled hon))
  case good =>
    intro s e hedges href
    exact next_onHw (monitorWindow_of_good hedges href)
  case lost =>
    intro s e hedges href hbad hlocked
    exact next_onHw (monitorWindow_of_lost hedges href hbad hlocked)
  case locked =>
    intro s hlocking hreturn href
    exact next_onHw (pllLocked_of_returning hlocking hreturn href)
  case lockTimeout =>
    intro s hlocking href
    exact next_onHw (pllTimeout_of_locking hlocking href)
  case lossOfLock =>
    intro s hlocked href
    exact next_onHw (pllLost_of_locked hlocked href)
  case ramp =>
    intro s d hramp hfar hcoast
    exact next_onHw (rampStep_of_ramping hramp hcoast hfar)
  case coast =>
    intro s d hsource hpll
    exact next_onHw (g := id) (rampStep_of_coasting hsource hpll)
  case lastStep =>
    intro s d hramp hnear hcoast
    exact next_onHw (rampStep_of_last hramp hcoast hnear)
  case unasked =>
    intro s u i r hfind hquiet hwork
    exact next_onHw ((gateWindowEnd_of_quiescent hfind hquiet).trans (if_neg (by rw [hwork]; exact Bool.false_ne_true)))
  case asked =>
    intro s u i r w hfind hquiet hwork
    exact next_onHw ((gateWindowEnd_of_quiescent hfind hquiet).trans (if_pos (by rw [hwork]; rfl)))
  case crossing =>
    intro s i hsensed hperst
    exact next_onHw (openCrossing_of_sensed hsensed hperst)

end Sys2Proof.Machine
end

section
/-!
PROOFS. Resets, feeds, power states, the power limit and heat (R523, R544, R594–R596, R603–R629, R643).
-/
namespace Sys2Proof.Machine
open Sys2Proof

/-! ### Resets (R523, R594–R596, R643) -/

section
variable {h : Hw}

/-- Bring-up is tried, after an instruction that needs RESET_N low has ended. -/
theorem resetRelease_of_low (hlow : h.sys.resetLow = true) :
    resetRelease h =
      let g := if extInstruction h.tap.instruction then { h with tap := tapReset h.tap } else h
      tryStart { g with sys := { g.sys with resetLow := false } } := by
  simp only [resetRelease, hlow, Bool.not_true, Bool.false_eq_true, if_false]

theorem resetRelease_of_high (hhigh : h.sys.resetLow = false) : resetRelease h = h := by
  simp only [resetRelease, hhigh, Bool.not_false, if_true]

theorem zenithRestart_of_unasked (hrestart : h.fw.restart = false) (hreload : h.fw.reload = false) : zenithRestart h = h := by
  simp only [zenithRestart, hrestart, hreload, Bool.or_self, Bool.not_false, if_true]

/-- A restart shuts the core's crossing, boots the other slot after RELOAD, and answers every BUSY mailbox. -/
theorem zenithRestart_of_asked (hasked : h.fw.restart = true ∨ h.fw.reload = true) :
    zenithRestart h =
      let g := shutCrossing { h with always := { h.always with zenith := true } } 1
      let g := if h.fw.reload then writeSysFw g (1 - h.sys.slot) true else g
      forBelow 16 (fun m h => if (h.mailbox m).state == 1 then answer h m { status := stAborted, reason := rRestart } else h)
        { g with fw := { g.fw with restart := false, reload := false, update := none }
                 changes := g.changes.map (fun c => { c with answers := false })
                 switching := g.switching.map (fun w => { w with answers := false }) } := by
  have hany : (h.fw.restart || h.fw.reload) = true := Bool.or_eq_true_iff.2 hasked
  simp only [zenithRestart, hany, Bool.not_true, Bool.false_eq_true, if_false]
  rfl

end

/-- Settles O37: a release and a restart have one lemma above for each case (that they change nothing where nothing asks for them is log
entry 1), and the other resets have no case. -/
theorem resetsComplete : Obligations.ResetsComplete := by
  refine ⟨?reset, ?release, ?releaseExt, ?high, ?unasked, ?asked, ?tap⟩
  case reset =>
    intro s
    exact exec_resetN s
  case release =>
    intro s hlow hext
    refine next_onHw ((resetRelease_of_low hlow).trans ?_)
    simp only [hext, Bool.false_eq_true, if_false]
  case releaseExt =>
    intro s hlow hext
    refine next_onHw ((resetRelease_of_low hlow).trans ?_)
    simp only [hext, if_true]
  case high =>
    intro s hhigh
    exact next_onHw (g := id) (resetRelease_of_high hhigh)
  case unasked =>
    intro s hrestart hreload
    exact next_onHw (g := id) (zenithRestart_of_unasked hrestart hreload)
  case asked =>
    intro s hasked
    exact next_onHw (zenithRestart_of_asked hasked)
  case tap =>
    intro s
    exact exec_tapReset s

/-! ### Feeds (R603–R609, R629) -/

section
variable {h : Hw} {b : Bool}

/-- Whether a feed is good: `true` names feed B. -/
def feedIsGood (h : Hw) (b : Bool) : Bool := if b then h.pwr.bGood else h.pwr.aGood

@[simp] theorem feedLevel_pwr (h : Hw) (b : Bool) : (feedLevel h b).pwr = h.pwr := by
  unfold feedLevel
  split <;> rw [setLevel_frame]

/-- A feed is no longer good, whether by overvoltage (its last sample lies above 30 V, log entry 22), and its loss is counted. -/
def feedDropped (h : Hw) (b : Bool) : Hw :=
  let ov := decide (3000 < (if b then h.pwr.sample.feedB.1 else h.pwr.sample.feedA.1))
  let g := feedLevel (countClk (h.onPwr fun p => if b then { p with bGood := false, bOv := ov } else { p with aGood := false, aOv := ov })
    (64 + b2n b)) b
  if ov then countClk g 66 else g

/-- The other feed is the only one that can still be good. -/
theorem feedDropped_good (h : Hw) (b : Bool) :
    ((feedDropped h b).pwr.aGood || (feedDropped h b).pwr.bGood) = if b then h.pwr.aGood else h.pwr.bGood := by
  have hpwr : ∀ (c : Bool) (g : Hw), (if c then countClk g 66 else g).pwr = g.pwr := by
    intro c g
    cases c <;> rfl
  unfold feedDropped
  dsimp only
  rw [hpwr, feedLevel_pwr]
  cases b
  · exact Bool.false_or _
  · exact Bool.or_false _

theorem feedLost_of_bad (hbad : feedIsGood h b = false) : feedLost h b = h := by
  rw [feedIsGood] at hbad
  simp only [feedLost, hbad, Bool.not_false, if_true]

theorem feedLost_of_good (hgood : feedIsGood h b = true) :
    feedLost h b =
      let ov := decide (3000 < (if b then h.pwr.sample.feedB.1 else h.pwr.sample.feedA.1))
      let e := feedDropped h b
      if e.pwr.aGood || e.pwr.bGood then logOpen e 163 0 0x64 (some (b2n b + 256 * b2n ov)) (some 0)
      else countClk (logOpen ((freshBits 32 e).2.onPwr fun p => { p with holdup := true }) 163 2 0x65 (some (freshBits 32 e).1) (some 0)) 67 := by
  rw [feedIsGood] at hgood
  simp only [feedLost, hgood, Bool.not_true, Bool.false_eq_true, if_false, feedDropped, decide_eq_true_eq]

/-- A feed counts as good, and its event follows. -/
def feedRaised (h : Hw) (b : Bool) : Hw := feedLevel (h.onPwr fun p => if b then { p with bGood := true } else { p with aGood := true }) b

/-- A hold-up ends, which is counted unless a feed reset came first. -/
def holdupEnded (g : Hw) : Hw :=
  if g.pwr.holdup then (if g.pwr.feedReset then g else countClk g 68).onPwr fun p => { p with holdup := false } else g

theorem feedRaised_holdup (h : Hw) (b : Bool) : (feedRaised h b).pwr.holdup = h.pwr.holdup := by
  rw [feedRaised, feedLevel_pwr]
  cases b <;> rfl

theorem feedRaised_feedReset (h : Hw) (b : Bool) : (feedRaised h b).pwr.feedReset = h.pwr.feedReset := by
  rw [feedRaised, feedLevel_pwr]
  cases b <;> rfl

theorem feedRaised_alwaysOn (h : Hw) (b : Bool) : (feedRaised h b).pwr.alwaysOn = h.pwr.alwaysOn := by
  rw [feedRaised, feedLevel_pwr]
  cases b <;> rfl

theorem holdupEnded_alwaysOn (g : Hw) : (holdupEnded g).pwr.alwaysOn = g.pwr.alwaysOn := by
  unfold holdupEnded
  split
  · split <;> rfl
  · rfl

theorem holdupEnded_of_fed (hfed : h.pwr.holdup = false) : holdupEnded (feedRaised h b) = feedRaised h b := by
  rw [holdupEnded, feedRaised_holdup, hfed, if_neg Bool.false_ne_true]

theorem holdupEnded_of_holdup (hholdup : h.pwr.holdup = true) :
    holdupEnded (feedRaised h b) =
      (if h.pwr.feedReset then feedRaised h b else countClk (feedRaised h b) 68).onPwr fun p => { p with holdup := false } := by
  rw [holdupEnded, feedRaised_holdup, hholdup, if_pos rfl, feedRaised_feedReset]

theorem feedGood_of_alwaysOn (halways : h.pwr.alwaysOn = true) :
    feedGood h b = tryStart ((holdupEnded (feedRaised h b)).onPwr fun p => { p with feedReset := false }) :=
  if_pos ((holdupEnded_alwaysOn _).trans ((feedRaised_alwaysOn h b).trans halways))

theorem feedGood_of_stopped (hoff : h.pwr.alwaysOn = false) : feedGood h b = holdupEnded (feedRaised h b) :=
  if_neg (Bool.eq_false_iff.1 ((holdupEnded_alwaysOn _).trans ((feedRaised_alwaysOn h b).trans hoff)))

theorem busUndervoltage_of_holdup (hholdup : h.pwr.holdup = true) :
    busUndervoltage h =
      let g := fullReset (h.onPwr fun p => { p with feedReset := true, railsOn := 2 ^ 11 })
      { g with always := { g.always with feed := true } } := by
  simp only [busUndervoltage, hholdup, Bool.not_true, Bool.false_eq_true, if_false]

theorem busUndervoltage_of_fed (hfed : h.pwr.holdup = false) : busUndervoltage h = h := by
  simp only [busUndervoltage, hfed, Bool.not_false, if_true]

theorem alwaysOnLoss_of_reset (hreset : h.pwr.feedReset = true) :
    alwaysOnLoss h = h.onPwr fun p => { p with alwaysOn := false, thermTrip := false, tripResetSeen := false, railsOn := 0 } := by
  simp only [alwaysOnLoss, hreset, Bool.not_true, Bool.false_eq_true, if_false]

theorem alwaysOnLoss_of_running (hrunning : h.pwr.feedReset = false) : alwaysOnLoss h = h := by
  simp only [alwaysOnLoss, hrunning, Bool.not_false, if_true]

/-- The straps that the reset samples are a free value (log entry 16). -/
theorem powerOnReset_of_fed (hoff : h.pwr.alwaysOn = false) (hgood : h.pwr.aGood = true ∨ h.pwr.bGood = true) :
    powerOnReset h = tryStart
      { freeCount := h.freeCount + 1, fuses := h.fuses, fw := { flash := h.fw.flash }
        sys := { resetLow := h.sys.resetLow }, smb := { straps := (freshBits 2 h).1 }, pcie := { perstLow := h.pcie.perstLow }
        pwr := { aGood := h.pwr.aGood, bGood := h.pwr.bGood, sample := h.pwr.sample } } := by
  have hfed : (h.pwr.aGood || h.pwr.bGood) = true := Bool.or_eq_true_iff.2 hgood
  rw [powerOnReset, hoff, hfed]
  rfl

theorem powerOnReset_of_other (hother : h.pwr.alwaysOn = true ∨ h.pwr.aGood = false ∧ h.pwr.bGood = false) : powerOnReset h = h := by
  have hnone : (h.pwr.alwaysOn || !(h.pwr.aGood || h.pwr.bGood)) = true := by
    rcases hother with e | ⟨ea, eb⟩
    · rw [e, Bool.true_or]
    · rw [ea, eb]
      exact Bool.or_true _
  rw [powerOnReset, if_pos hnone]

end

/-- Settles O38: each event has its lemmas above (that the last sample tells an overvoltage is log entry 22, that an event which cannot happen
changes nothing log entry 1). -/
theorem feedsComplete : Obligations.FeedsComplete := by
  refine ⟨?bad, ?spare, ?none, ?good, ?goodOff, ?holdup, ?holdupOff, ?bus, ?busFed, ?always, ?alwaysRunning, ?powerOn, ?powerOther⟩
  case bad =>
    intro s b hbad
    exact next_onHw (g := id) (feedLost_of_bad hbad)
  case spare =>
    intro s b hgood hother
    exact next_onHw ((feedLost_of_good hgood).trans (if_pos ((feedDropped_good s.hw b).trans hother)))
  case none =>
    intro s b hgood hother
    refine next_onHw ((feedLost_of_good hgood).trans (if_neg ?_))
    rw [feedDropped_good s.hw b, hother]
    exact Bool.false_ne_true
  case good =>
    intro s b hfed halways
    refine next_onHw ((feedGood_of_alwaysOn halways).trans ?_)
    rw [holdupEnded_of_fed hfed]
    rfl
  case goodOff =>
    intro s b hfed hoff
    exact next_onHw ((feedGood_of_stopped hoff).trans (holdupEnded_of_fed hfed))
  case holdup =>
    intro s b hholdup halways
    refine next_onHw ((feedGood_of_alwaysOn halways).trans ?_)
    rw [holdupEnded_of_holdup hholdup]
    rfl
  case holdupOff =>
    intro s b hholdup hoff
    exact next_onHw ((feedGood_of_stopped hoff).trans (holdupEnded_of_holdup hholdup))
  case bus =>
    intro s hholdup
    exact next_onHw (busUndervoltage_of_holdup hholdup)
  case busFed =>
    intro s hfed
    exact next_onHw (g := id) (busUndervoltage_of_fed hfed)
  case always =>
    intro s hreset
    exact next_onHw (alwaysOnLoss_of_reset hreset)
  case alwaysRunning =>
    intro s hrunning
    exact next_onHw (g := id) (alwaysOnLoss_of_running hrunning)
  case powerOn =>
    intro s hoff hgood
    exact next_onHw (powerOnReset_of_fed hoff hgood)
  case powerOther =>
    intro s hother
    exact next_onHw (g := id) (powerOnReset_of_other hother)

/-! ### PWR.LIMIT (R619) -/

section
variable {s : State} {m : Fin 16}

/-- A word within the low twelve bits is its own field. -/
theorem land_lowBits_eq_iff (x : Nat) : Nat.land x (2 ^ 12 - 1) = x ↔ x < 2 ^ 12 := by
  rw [show Nat.land x (2 ^ 12 - 1) = x % 2 ^ 12 from Nat.and_two_pow_sub_one_eq_mod x 12]
  exact Nat.mod_eq_iff_lt (by decide)

/-- The shared checks of a PWR.LIMIT of eight bytes: nothing but its reserved bits can fail. -/
theorem checkRequest_pwrLimit (hlock : s.hw.tap.unlock ≠ 1) (hlen : (s.hw.mailbox m).len = 8) (hpart : (s.hw.mailbox m).part = 0) :
    checkRequest s.hw m [.f 12] false =
      (if 2 ^ 12 ≤ (s.hw.mailbox m).body ∨ (s.hw.mailbox m).reserved ≠ 0 then some (Reply.denied rReserved) else none,
        [fld (s.hw.mailbox m).body 0 12]) := by
  have hreserved : (Nat.land (s.hw.mailbox m).body (2 ^ 12 - 1) != (s.hw.mailbox m).body || (s.hw.mailbox m).reserved != 0) = true
      ↔ 2 ^ 12 ≤ (s.hw.mailbox m).body ∨ (s.hw.mailbox m).reserved ≠ 0 := by
    rw [Bool.or_eq_true_iff, bne_iff_ne, bne_iff_ne, ne_eq, land_lowBits_eq_iff, Nat.not_lt]
  have hparams : readParams (s.hw.mailbox m).body [.f 12] [] 0 0 = ([fld (s.hw.mailbox m).body 0 12], 2 ^ 12 - 1, 2) := by
    simp [readParams, fieldBytes, alignUp]
  have hstop : alignUp 8 2 = 8 := by decide
  simp only [checkRequest, hparams, beq_eq_false_iff_ne.2 hlock, hlen, hpart, hstop, hreserved, bne_self_eq_false, Bool.false_and,
    Bool.and_false, Bool.or_self, Bool.false_eq_true, if_false, Nat.reduceLT, decide_false]
  split <;> rfl

/-- A request that breaks no rule is answered by its range (RESERVED comes before RANGE, log entry 7). -/
theorem execPwrLimit_of_asked {w : Nat} (ha : Asks s m 0xF02 [.f 12] false [w]) :
    execPwrLimit m s = .next (
      if w < 300 ∨ 1200 < w then served s m id (Reply.denied rRange)
      else served s m fun h => h.onPwr fun p => { p with limitNext := w }) := by
  refine congrArg Host.Outcome.next ?_
  by_cases hrange : w < 300 ∨ 1200 < w
  · rw [if_pos hrange]
    refine runHw_served _ ha ?_
    have hdenied : (decide (w < 300) || decide (1200 < w)) = true := by simpa using hrange
    simp only [theRequest, Req.p, List.getD_cons_zero, hdenied, if_true, id]
  · rw [if_neg hrange]
    refine runHw_served _ ha ?_
    have htaken : (decide (w < 300) || decide (1200 < w)) = false := by simpa using hrange
    simp only [theRequest, Req.p, List.getD_cons_zero, htaken, Bool.false_eq_true, if_false]

end

/-- Settles O12: the shared checks find a reserved bit (`checkRequest_pwrLimit`), and the command's own check the range; that RESERVED is
answered where both fail is log entry 7. -/
theorem pwrLimitAnswers : Obligations.PwrLimitAnswers := by
  intro s m hrun hlock hlen hpart
  have hcheck := checkRequest_pwrLimit hlock hlen hpart
  by_cases hreserved : 2 ^ 12 ≤ (s.hw.mailbox m).body ∨ (s.hw.mailbox m).reserved ≠ 0
  · rw [if_pos hreserved] at hcheck ⊢
    exact congrArg Host.Outcome.next (runCommand_of_refused _ hrun hcheck)
  · rw [if_neg hreserved] at hcheck ⊢
    obtain ⟨hbody, -⟩ := not_or.1 hreserved
    have hfield : fld (s.hw.mailbox m).body 0 12 = (s.hw.mailbox m).body := by
      rw [fld, Nat.pow_zero, Nat.div_one, Nat.mod_eq_of_lt (Nat.not_le.1 hbody)]
    rw [hfield] at hcheck
    exact execPwrLimit_of_asked ⟨hrun, hcheck, hpart⟩

/-! ### Power states (R614, R617) -/

section
variable {q : Req} {h : Hw}

/-- From RUN to HOLD, with nothing under way that keeps the module in RUN. -/
theorem pwrState_of_hold (hasked : q.p 0 = 1) (hrun : h.pwr.state = 0) (hopen : poolOpen h = true)
    (hpair : h.pair.state ≠ 1 ∧ h.pair.state ≠ 2) (hdesc : descriptorExecuting h = false) (hinst : instanceOpen h = false)
    (hbist : h.bist.running = []) (htiles : (List.range 32).any (fun t => !tbit h.clk.gateTile t && tileBusy h t) = false) :
    pwrState q h = (enterHold h, some Reply.ok) := by
  simp only [pwrState, hasked, hrun, hopen, beq_eq_false_iff_ne.2 hpair.1, beq_eq_false_iff_ne.2 hpair.2, hdesc, hinst, hbist, htiles,
    Nat.reduceBEq, List.isEmpty_nil, beq_self_eq_true, Bool.not_true, Bool.and_false, Bool.false_and, Bool.or_self, Bool.false_eq_true,
    if_false]

/-- From HOLD to RUN: the stacks leave self-refresh, and the gates that HOLD closed open again. -/
theorem pwrState_of_run (hasked : q.p 0 = 0) (hhold : h.pwr.state = 1) (hopen : poolOpen h = true) :
    pwrState q h =
      (reopenTiles (leaveSelfRefresh (h.onPwr fun p => { p with state := 0, wake := false }) false), some Reply.ok) := by
  simp only [pwrState, hasked, hhold, hopen, Nat.reduceBEq, bne_self_eq_false, beq_self_eq_true, Bool.not_true, Bool.and_false,
    Bool.false_and, Bool.false_eq_true, if_false, if_true]

theorem wakeHold_of_asked (hhold : h.pwr.state = 1) (hwake : h.pwr.wake = true) :
    wakeHold h = reopenTiles (leaveSelfRefresh
      (countClk (h.onPwr fun p => { p with state := 0, wake := false, wakes := satInc 16 p.wakes }) 72) false) := by
  simp only [wakeHold, hhold, hwake, beq_self_eq_true, Bool.and_self, if_true]

/-! ### The fault of a regulator (R612) -/

/-- Finding the cause may take a free value; it changes no part of the power block. -/
theorem faultCause_pwr (h : Hw) (p : Nat) : (faultCause h p).2.pwr = h.pwr := by
  unfold faultCause
  dsimp only
  split
  · rfl
  · split
    · rfl
    · split <;> rfl

/-- The status bit that a fault of PAGE `p` with CAUSE `c` sets (PMBus 1.4, log entry 22). -/
def faultBit (h : Hw) (p c : Nat) (x : PmbusStatus) : PmbusStatus :=
  if c == 4 then { x with vout := Nat.lor x.vout (if (railLimits p).1 < (railSample h.pwr.sample p).1 then 0x80 else 0x10) }
  else if c == 5 then (if p < 2 then { x with input := Nat.lor x.input 0x04 } else { x with iout := Nat.lor x.iout 0x80 })
  else { x with temperature := Nat.lor x.temperature 0x80 }

theorem regulatorFault_eq (h : Hw) (p : Nat) :
    regulatorFault h p =
      let c := (faultCause h p).1
      let g := (faultCause h p).2
      let g := { g with smb := { g.smb with pages := KMap.mod g.smb.pages p (faultBit h p c) } }
      let g := g.onPwr fun w => if p == 11 then w else { w with railsOn := putBit w.railsOn p false }
      let g := logOpen g 163 3 0x67 (some (p * 256 + c)) (some 0)
      let g := { g with always := { g.always with feed := true }, sys := { g.sys with heldInReset := true } }
      raise (moduleReset g) 0x32B (p * 256 + c) := by
  have hpwr := faultCause_pwr h p
  unfold regulatorFault faultBit
  generalize faultCause h p = x at hpwr ⊢
  obtain ⟨c, g⟩ := x
  dsimp only at hpwr ⊢
  rw [hpwr]

/-! ### The limiter and heat (R618–R623) -/

section
variable {w : Nat}

/-- A period from 95% of the limit up to it leaves the divider. -/
theorem limiterPeriod_of_near (hbelow : w < h.pwr.limitW) (hnear : 95 * h.pwr.limitW ≤ 100 * w) (hcool : h.pwr.throttle = false) :
    limiterPeriod h w = settleTile (h.onPwr fun p => { p with
      powerW := Nat.min 4095 w, overPeriods := 0, limitW := p.limitNext, limitMiss := false }) := by
  simp only [limiterPeriod, Nat.lt_asymm hbelow, Nat.not_lt.2 hnear, hbelow, hcool, Hw.onPwr, decide_false, Nat.reduceBEq,
    Bool.false_and, Bool.false_eq_true, if_false, if_true]

/-- A period above the limit counts, and slows CLK_TILE by one. -/
theorem limiterPeriod_of_above (habove : h.pwr.limitW < w) (hdiv : h.pwr.limitDiv < 16) (hcool : h.pwr.throttle = false) :
    limiterPeriod h w = settleTile ((countClk h 69).onPwr fun p => { p with
      powerW := Nat.min 4095 w, limitDiv := p.limitDiv + 1, overPeriods := 0, limitW := p.limitNext }) := by
  have hstep : Nat.min 16 (h.pwr.limitDiv + 1) = h.pwr.limitDiv + 1 := Nat.min_eq_right hdiv
  have hroom : (h.pwr.limitDiv == 16) = false := beq_eq_false_iff_ne.2 (Nat.ne_of_lt hdiv)
  simp only [limiterPeriod, habove, Nat.lt_asymm habove, hstep, hroom, hcool, Hw.onPwr, countClk, decide_true, Nat.reduceBEq,
    Bool.and_false, Bool.false_and, Bool.false_eq_true, if_false, if_true]

end

theorem throttleStart_of_cool {n : Nat} (hcool : h.pwr.throttle = false) (hsensor : n < 48) :
    throttleStart h n = settleTile (countClk (logOpen (setLevel (h.onPwr fun p =>
      { p with throttle := true, limitDiv := Nat.max 8 p.limitDiv }) 0x32A true (thermalInfo h n)) 163 0 0x66 (some (thermalInfo h n)) (some 0)) 70) := by
  simp only [throttleStart, hcool, Nat.not_le.2 hsensor, decide_false, Bool.or_self, Bool.false_eq_true, if_false]

theorem tripRelease_of_seen (htrip : h.pwr.thermTrip = true) (hseen : h.pwr.tripResetSeen = true) :
    tripRelease h = tryStart (h.onPwr fun p => { p with thermTrip := false, tripResetSeen := false }) := by
  simp only [tripRelease, htrip, hseen, Bool.and_self, if_true]

end

/-- Settles O39: each state change and each period has one lemma above (that a state change ends in its row is log entry 17); telemetry, the
fault of a regulator (its status bits are log entry 22), the end of a throttle and a trip have no case, and POWER_W saturates by log entry 32. -/
theorem powerComplete : Obligations.PowerComplete := by
  refine ⟨?limit, ?query, ?hold, ?run, ?wake, ?telemetry, ?regulator, ?near, ?above, ?throttle, ?throttleEnd, ?trip, ?release⟩
  case limit =>
    intro s m w ha hrange
    refine (execPwrLimit_of_asked ha).trans (congrArg Host.Outcome.next (if_neg ?_))
    exact not_or.2 ⟨Nat.not_lt.2 hrange.1, Nat.not_lt.2 hrange.2⟩
  case query =>
    intro s m ha
    exact congrArg Host.Outcome.next (runHw_served id ha rfl)
  case hold =>
    intro s m ha hrun hopen hpair hdesc hinst hbist htiles
    refine (exec_pwrState m s).trans (commit_congr (congrArg resumeParked (runHw_served _ ha ?_)))
    exact pwrState_of_hold (q := theRequest s m [1]) rfl hrun hopen hpair hdesc hinst hbist htiles
  case run =>
    intro s m ha hhold hopen
    refine (exec_pwrState m s).trans (commit_congr (congrArg resumeParked (runHw_served
      (fun h => reopenTiles (leaveSelfRefresh (h.onPwr fun p => { p with state := 0, wake := false }) false)) ha ?_)))
    exact pwrState_of_run (q := theRequest s m [0]) rfl hhold hopen
  case wake =>
    intro s hhold hwake
    exact (exec_holdWake s).trans (commit_resumed (wakeHold_of_asked hhold hwake))
  case telemetry =>
    intro s t
    exact exec_telemetrySample t s
  case regulator =>
    intro s p
    refine next_onHw ((regulatorFault_eq s.hw p).trans ?_)
    unfold faultBit
    rfl
  case near =>
    intro s w hbelow hnear hcool
    exact next_onHw (limiterPeriod_of_near hbelow hnear hcool)
  case above =>
    intro s w habove hdiv hcool
    exact next_onHw (limiterPeriod_of_above habove hdiv hcool)
  case throttle =>
    intro s n hcool hsensor
    exact next_onHw (throttleStart_of_cool hcool hsensor)
  case throttleEnd =>
    intro s n
    exact exec_thermalThrottleEnd n s
  case trip =>
    intro s n
    exact exec_thermalTrip n s
  case release =>
    intro s htrip hseen
    exact next_onHw (tripRelease_of_seen htrip hseen)

end Sys2Proof.Machine
end

section
/-!
PROOFS. The SMBus target (R547, R548, R611, R639–R642, R684), the test access port (R643–R646), and the self-test, repair and firmware
commands (R562–R575).
-/
namespace Sys2Proof.Machine
open Sys2Proof

/-! ### PMBus (R639–R642, R684) -/

section
variable {h : Hw} {x : SmbXfer} {on : Nat → Bool}

/-- A read on a page of its command returns its bytes (R641). -/
theorem smbRead_of_page (n : Nat) (value : Hw → List Byte) (hon : smbOn h = true) (hread : x.read = true) (hdata : x.data = [])
    (hpage : on h.smb.page = true) : smbRead h x on n value = h.onSmb fun b => { b with returned := value h } := by
  simp only [smbRead, hon, hread, hdata, hpage, List.isEmpty_nil, Bool.and_self, Bool.not_true, Bool.false_eq_true, if_false, if_true]

/-- A read on another page sets CML and returns 0xFF bytes (R641). -/
theorem smbRead_of_otherPage (n : Nat) (value : Hw → List Byte) (hon : smbOn h = true) (hpage : on h.smb.page = false) :
    smbRead h x on n value = (cmlBit h 0x02).onSmb fun b => { b with returned := List.replicate n 0xFF#8 } := by
  simp only [smbRead, hon, hpage, Bool.and_false, Bool.not_true, Bool.false_eq_true, if_false]

theorem pmbusPage_of_read (hon : smbOn h = true) (hread : x.read = true) (hdata : x.data = []) :
    pmbusPage h x = h.onSmb fun b => { b with returned := leBytes 1 h.smb.page } := by
  simp only [pmbusPage, hon, hread, Bool.not_true, Bool.false_eq_true, if_false, if_true]
  exact smbRead_of_page 1 _ hon hread hdata rfl

theorem pmbusPage_of_write {b : Byte} (hon : smbOn h = true) (hwrite : x.read = false) (hdata : x.data = [b])
    (hpage : b.toNat ≤ 11 ∨ b.toNat = 255) (hpec : x.badPec = false) : pmbusPage h x = h.onSmb fun c => { c with page := b.toNat } := by
  have hlegal : (decide (b.toNat ≤ 11) || b.toNat == 0xFF) = true := by simpa using hpage
  simp only [pmbusPage, hon, hwrite, hdata, hpec, hlegal, Bool.not_true, Bool.false_eq_true, if_false, if_true]

theorem pmbusPage_of_badPec {b : Byte} (hon : smbOn h = true) (hwrite : x.read = false) (hdata : x.data = [b]) (hpec : x.badPec = true) :
    pmbusPage h x = cmlBit h 0x20 := by
  simp only [pmbusPage, hon, hwrite, hdata, hpec, Bool.not_true, Bool.false_eq_true, if_false, if_true]

theorem clearFaults_of_accepted (hon : smbOn h = true) (hwrite : x.read = false) (hdata : x.data = []) (hpec : x.badPec = false) :
    clearFaults h x = h.onSmb fun b => { b with cml := 0, pages := if b.page == 0xFF then [] else KMap.erase b.pages b.page } := by
  simp only [clearFaults, hon, hwrite, hdata, hpec, List.isEmpty_nil, Bool.not_true, Bool.or_self, Bool.false_eq_true, if_false]

theorem clearFaults_of_badPec (hon : smbOn h = true) (hwrite : x.read = false) (hdata : x.data = []) (hpec : x.badPec = true) :
    clearFaults h x = cmlBit h 0x20 := by
  simp only [clearFaults, hon, hwrite, hdata, hpec, List.isEmpty_nil, Bool.not_true, Bool.or_self, Bool.false_eq_true, if_false, if_true]

/-- Once the fuses are sensed, SYS_STATE reads with a free time (R548, log entry 16). -/
theorem readSysState_of_sensed (hsensed : h.sys.fusesSensed = true) :
    readSysState h = (sysStateLow h + 2 ^ 32 * (freshBits 32 h).1, (freshBits 32 h).2) := by
  simp only [readSysState, hsensed, Bool.not_true, Bool.false_eq_true, if_false]
  rfl

end

/-- Settles O40: a read returns its value on a page of its command, and each write has a lemma for its right and its wrong PEC. -/
theorem pmbusStatusComplete : Obligations.PmbusStatusComplete := by
  refine ⟨?page, ?pageRead, ?pagePec, ?clearPec, ?clear, ?capability, ?mode, ?modeOther, ?byte, ?word, ?vout, ?iout, ?input, ?temperature,
    ?cml, ?invalid, ?alert, ?timeout⟩
  case page =>
    intro s x b hon hwrite hdata hpage hpec
    exact next_onHw (pmbusPage_of_write hon hwrite hdata hpage hpec)
  case pageRead =>
    intro s x hon hread hdata
    exact next_onHw (pmbusPage_of_read hon hread hdata)
  case pagePec =>
    intro s x b hon hwrite hdata hpec
    exact next_onHw (pmbusPage_of_badPec hon hwrite hdata hpec)
  case clearPec =>
    intro s x hon hwrite hdata hpec
    exact next_onHw (clearFaults_of_badPec hon hwrite hdata hpec)
  case clear =>
    intro s x hon hwrite hdata hpec
    exact next_onHw (clearFaults_of_accepted hon hwrite hdata hpec)
  case capability =>
    intro s x hon hread hdata hpage
    exact next_onHw (smbRead_of_page 1 _ hon hread hdata hpage)
  case mode =>
    intro s x hon hread hdata hpage
    exact next_onHw (smbRead_of_page 1 _ hon hread hdata hpage)
  case modeOther =>
    intro s x hon _ _ hpage
    exact next_onHw (smbRead_of_otherPage 1 _ hon hpage)
  case byte =>
    intro s x hon hread hdata hpage
    exact next_onHw (smbRead_of_page 1 _ hon hread hdata hpage)
  case word =>
    intro s x hon hread hdata hpage
    exact next_onHw (smbRead_of_page 2 _ hon hread hdata hpage)
  case vout =>
    intro s x hon hread hdata hpage
    exact next_onHw (smbRead_of_page 1 _ hon hread hdata hpage)
  case iout =>
    intro s x hon hread hdata hpage
    exact next_onHw (smbRead_of_page 1 _ hon hread hdata hpage)
  case input =>
    intro s x hon hread hdata hpage
    exact next_onHw (smbRead_of_page 1 _ hon hread hdata hpage)
  case temperature =>
    intro s x hon hread hdata hpage
    exact next_onHw (smbRead_of_page 1 _ hon hread hdata hpage)
  case cml =>
    intro s x hon hread hdata hpage
    exact next_onHw (smbRead_of_page 1 _ hon hread hdata hpage)
  case invalid =>
    intro s k hon
    have hnot : ¬(!smbOn s.hw) = true := by rw [hon]; decide
    exact next_onHw (if_neg hnot)
  case alert =>
    intro s hon halert
    exact next_onHw (if_pos (Bool.and_eq_true_iff.2 ⟨hon, halert⟩))
  case timeout =>
    intro s hon
    exact next_onHw (if_pos hon)

/-- Settles O41: a read of a sample returns it on a page of its command; a command without a page answers on any, PAGE 0xFF included (log
entry 22). -/
theorem pmbusReadingsComplete : Obligations.PmbusReadingsComplete := by
  refine ⟨?vin, ?iin, ?pin, ?vout, ?iout, ?pout, ?temperature, ?revision, ?id, ?model, ?serial, ?state, ?die, ?temp, ?feed⟩
  case vin =>
    intro s x hon hread hdata hpage
    exact next_onHw (smbRead_of_page 2 _ hon hread hdata hpage)
  case iin =>
    intro s x hon hread hdata hpage
    exact next_onHw (smbRead_of_page 2 _ hon hread hdata hpage)
  case pin =>
    intro s x hon hread hdata hpage
    exact next_onHw (smbRead_of_page 2 _ hon hread hdata hpage)
  case vout =>
    intro s x hon hread hdata hpage
    exact next_onHw (smbRead_of_page 2 _ hon hread hdata hpage)
  case iout =>
    intro s x hon hread hdata hpage
    exact next_onHw (smbRead_of_page 2 _ hon hread hdata hpage)
  case pout =>
    intro s x hon hread hdata hpage
    exact next_onHw (smbRead_of_page 2 _ hon hread hdata hpage)
  case temperature =>
    intro s x hon hread hdata hpage
    exact next_onHw (smbRead_of_page 2 _ hon hread hdata hpage)
  case revision =>
    intro s x hon hread hdata
    exact next_onHw (smbRead_of_page 1 _ hon hread hdata rfl)
  case id =>
    intro s x hon hread hdata
    exact next_onHw (smbRead_of_page 4 _ hon hread hdata rfl)
  case model =>
    intro s x hon hread hdata
    exact next_onHw (smbRead_of_page 7 _ hon hread hdata rfl)
  case serial =>
    intro s x hon hread hdata
    exact next_onHw (smbRead_of_page 9 _ hon hread hdata rfl)
  case state =>
    intro s x hon hread hdata hsensed
    refine next_onHw ?_
    rw [readSysState_of_sensed hsensed]
    exact smbRead_of_page (h := (freshBits 32 s.hw).2) 9 _ hon hread hdata rfl
  case die =>
    intro s x hon hread hdata
    exact next_onHw (smbRead_of_page 9 _ hon hread hdata rfl)
  case temp =>
    intro s x hon hread hdata
    exact next_onHw (smbRead_of_page 9 _ hon hread hdata rfl)
  case feed =>
    intro s x hon hread hdata
    exact next_onHw (smbRead_of_page 9 _ hon hread hdata rfl)

/-! ### The test access port (R643–R646) -/

section
variable {h : Hw}

/-- With RESET_N low, an instruction that drives the pins takes what it samples (R643, log entry 19). -/
theorem tapExt_of_low {code : Nat} (d : Nat) (hlow : h.sys.resetLow = true) (hcode : code ≠ 6) (hcode' : code ≠ 7) :
    tapExt h code d = tapSample h code d := by
  simp only [tapExt, hlow, beq_false_of_ne hcode, beq_false_of_ne hcode', Bool.or_self, Bool.false_eq_true, if_false, if_true]

/-- With RESET_N low, HIGHZ and CLAMP select the one-bit register (R643). -/
theorem tapExt_of_low_bypass {code : Nat} (d : Nat) (hlow : h.sys.resetLow = true) (hcode : code = 6 ∨ code = 7) :
    tapExt h code d = tapSelect h code (2 * d) := by
  have hcode' : (code == 6 || code == 7) = true := by simpa using hcode
  simp only [tapExt, hlow, hcode', if_true]

/-- With RESET_N high, it acts as BYPASS and is counted as refused (R643). -/
theorem tapExt_of_high (code d : Nat) (hhigh : h.sys.resetLow = false) :
    tapExt h code d = h.onTap fun t => { t with instruction := 0xFF, shiftOut := 2 * d, extRefused := true } := by
  simp only [tapExt, hhigh, Bool.false_eq_true, if_false]
  rfl

/-- With a nonce, an open pool and a try left, the signature alone decides an unlock (R645, log entry 12). -/
theorem tapUnlock_of_nonce {k : Nat} (g : Nat) (hnonce : h.tap.nonce = some k) (hfails : h.tap.fails < 8) (hphase : h.sys.phase = 1)
    (hopen : poolOpen h = true) :
    tapUnlock h g =
      if Config.ecdsaVerify (Config.keyHash 4) (Config.sha384 (leBytes 8 (tapSerial h) ++ leBytes 16 k ++ [1#8])) (leBytes 96 g) then
        (forBelow 64 (fun n h => linkDisable h n) (forBelow 12 (fun e h => closeGates h e) (tapSelect h 0x11 0))).onTap
          fun t => { t with unlock := 1 }
      else h.onTap fun t => { t with instruction := 0x11, shiftOut := 0, unlock := 3, fails := satInc 4 t.fails } := by
  have hnonce' : (tapSelect h 0x11 0).tap.nonce = some k := hnonce
  have hfails' : decide (8 ≤ (tapSelect h 0x11 0).tap.fails) = false := decide_eq_false (Nat.not_le.2 hfails)
  have hphase' : ((tapSelect h 0x11 0).sys.phase != 1) = false := bne_eq_false_iff_eq.2 hphase
  have hopen' : poolOpen (tapSelect h 0x11 0) = true := hopen
  have hserial : tapSerial (tapSelect h 0x11 0) = tapSerial h := rfl
  unfold tapUnlock
  dsimp only
  rw [hnonce', hfails', hphase', hopen', hserial]
  dsimp only
  simp only [Bool.not_true, Bool.false_or, Bool.not_eq_true', ← Bool.not_eq_true, ite_not]
  rfl

end

/-- Settles O42: an instruction that needs RESET_N low has a lemma for the pin low and one for it high, an unlock is decided by its signature
alone, and the other instructions have no case. -/
theorem jtagInstructionsComplete : Obligations.JtagInstructionsComplete := by
  refine ⟨?idcode, ?bypass, ?sample, ?extest, ?pulse, ?train, ?highz, ?clamp, ?refused, ?challenge, ?unlock, ?status⟩
  case idcode =>
    intro s d
    exact exec_jtagIdcode d s
  case bypass =>
    intro s d
    exact exec_jtagBypass d s
  case sample =>
    intro s d
    exact exec_jtagSamplePreload d s
  case extest =>
    intro s d hlow
    exact next_onHw (tapExt_of_low d hlow (by decide) (by decide))
  case pulse =>
    intro s d hlow
    exact next_onHw (tapExt_of_low d hlow (by decide) (by decide))
  case train =>
    intro s d hlow
    exact next_onHw (tapExt_of_low d hlow (by decide) (by decide))
  case highz =>
    intro s d hlow
    exact next_onHw (tapExt_of_low_bypass d hlow (.inl rfl))
  case clamp =>
    intro s d hlow
    exact next_onHw (tapExt_of_low_bypass d hlow (.inr rfl))
  case refused =>
    intro s d hhigh
    exact next_onHw (tapExt_of_high 0x03 d hhigh)
  case challenge =>
    intro s d
    exact exec_jtagDbgChallenge d s
  case unlock =>
    intro s g k hnonce hfails hphase hopen
    exact next_onHw (tapUnlock_of_nonce g hnonce hfails hphase hopen)
  case status =>
    intro s d
    exact exec_jtagDbgStatus d s

/-! ### Self-test and repair (R562–R575) -/

section
variable {q : Req} {h : Hw}

/-- A tile that is idle and not under test starts its test; the answer comes with the end (R566). -/
theorem bistRun_of_idleTile (hblock : q.p 0 = 0) (htile : q.p 1 < 32) (hmode : q.p 2 ≤ 1) (hidle : tileIdle h (q.p 1) = true)
    (hnew : KMap.has h.bist.running (q.p 0 * 64 + q.p 1) = false) :
    bistRun q h =
      (setWork (h.onBist fun x => { x with running := KMap.ins x.running (q.p 0 * 64 + q.p 1) (16 * q.p 2 + q.m) }) q.m 0xD01
        [q.p 0 * 64 + q.p 1] [q.p 2], none) := by
  have hnamed : blockNamed (q.p 0) (q.p 1) = true := by
    rw [hblock]
    exact decide_eq_true htile
  unfold bistRun
  dsimp only
  rw [hnamed, hnew, hblock, hidle]
  simp only [hmode, beq_self_eq_true, Bool.true_or, Bool.and_self, decide_true, Bool.not_true, Bool.or_self, Bool.false_eq_true, if_false,
    if_true]

/-- With no test under way and enough fuse entries, the repairs are fused one after another (R574, log entry 3). -/
theorem repairCommit_of_room (hrunning : h.bist.running = [])
    (hroom : (h.bist.repairs.filter (fun r => r.kind == 0)).length ≤ fuseEntries - h.fuses.repairs.length) :
    repairCommit q h =
      let r := fuseAll h.bist.repairs h
      (recordRepairs (r.2.2.2.onBist fun b => { b with repairs := r.2.2.1 }), some (Reply.ok (items [.f 32 r.1, .f 32 r.2.1]))) := by
  unfold repairCommit
  dsimp only
  rw [hrunning, if_neg (by decide), if_neg (Nat.not_lt.2 hroom)]

/-- A passed test of a block that is not DRAM keeps its record, re-initialises the block, and answers where it alone was waited for
(R566–R568). -/
theorem selfTestEnd_of_pass {s : State} {m : Nat} {o : TestOutcome} {k : Work}
    (hrunning : KMap.find? s.hw.bist.running (o.block * 64 + o.index) = some m) (hm : m < 16) (hblock : o.block ≠ 7) (hpass : o.result = 0)
    (hwaits : k.waits = [o.block * 64 + o.index])
    (hwork : workOf (reinit (s.hw.onBist fun x => { x with running := KMap.erase x.running (o.block * 64 + o.index), records := KMap.set x.records (o.block * 64 + o.index) (testRecord s.hw o 0) }) o.block o.index) m 0xD01 = some k) :
    selfTestEnd s m o = s.onHw fun h =>
      let r := testRecord h o 0
      answer (reinit (h.onBist fun x => { x with running := KMap.erase x.running (o.block * 64 + o.index), records := KMap.set x.records (o.block * 64 + o.index) r })
        o.block o.index) m (Reply.ok (testBytes o.block o.index r)) := by
  have hmode : m / 16 = 0 := Nat.div_eq_of_lt hm
  have hmailbox : (m % 16 != m) = false := by rw [Nat.mod_eq_of_lt hm, bne_self_eq_false]
  simp only [selfTestEnd, hrunning, hmailbox, hmode, hpass, beq_false_of_ne hblock, State.onHw, hwork, hwaits, beq_self_eq_true,
    Bool.false_eq_true, if_false, if_true, Bool.false_and, Nat.reduceBEq]

/-- The clearing ends where it was under way (R571). -/
theorem debugUnlocked_of_clearing {s : State} (hunlock : s.hw.tap.unlock = 1) :
    debugUnlocked s =
      { s.onHw (fun h => ((clearArrays h).onTap fun t => { t with unlock := 2 }).onSys fun x => { x with debug := true }) with pool := {} } := by
  simp only [debugUnlocked, hunlock, bne_self_eq_false, Bool.false_eq_true, if_false]

/-- BEGIN with no update under way opens one (R562). -/
theorem fwUpdate_of_begin (htarget : q.p 0 ≤ 1) (hbegin : q.p 1 = 0) (hfree : h.fw.update = none) :
    fwUpdate q h = (updateBegin h q.m (q.p 0), some Reply.ok) := by
  have hlegal : (decide (1 < q.p 0) || q.p 1 == 3) = false := by simp [hbegin, htarget]
  unfold fwUpdate
  dsimp only
  rw [hlegal, hfree, hbegin]
  rfl

end

/-- Settles O44: a test that starts, a commit with room, a test that passes, the end of a clearing and an update that begins have a lemma
each; the queries and FW.ACTIVATE answer from their request (log entry 3 leaves free what a fuse reads back). -/
theorem selfTestAndFirmwareComplete : Obligations.SelfTestAndFirmwareComplete := by
  refine ⟨?run, ?query, ?commit, ?repairs, ?ends, ?unlocked, ?update, ?fwQuery, ?activate⟩
  case run =>
    intro s m b i md ha ⟨hblock, htile, hmode⟩ hidle hnew
    refine congrArg Host.Outcome.next (runHw_changed (f := fun h => setWork (h.onBist fun x =>
      { x with running := KMap.ins x.running (b * 64 + i) (16 * md + m.val) }) m 0xD01 [b * 64 + i] [md]) ha ?_)
    exact bistRun_of_idleTile (q := theRequest s m [b, i, md]) hblock htile hmode hidle hnew
  case query =>
    intro s m b i ha hnamed
    refine congrArg Host.Outcome.next (runHw_served id ha ?_)
    simp only [theRequest, Req.p, List.getD_cons_zero, List.getD_cons_succ, hnamed, if_true, id_eq]
  case commit =>
    intro s m ha hrunning hroom
    refine congrArg Host.Outcome.next ((runHw_served (fun h => recordRepairs ((fuseAll h.bist.repairs h).2.2.2.onBist fun b =>
      { b with repairs := (fuseAll h.bist.repairs h).2.2.1 })) ha (repairCommit_of_room hrunning hroom)).trans ?_)
    simp only [served, State.onHw]
  case repairs =>
    intro s m ha
    exact congrArg Host.Outcome.next (runHw_served id ha rfl)
  case ends =>
    intro s m o k hrunning hblock hpass _ hwaits hwork
    exact congrArg Host.Outcome.next (selfTestEnd_of_pass hrunning m.isLt hblock hpass hwaits hwork)
  case unlocked =>
    intro s hunlock
    exact congrArg Host.Outcome.next (debugUnlocked_of_clearing hunlock)
  case update =>
    intro s m t n ha htarget hfree
    refine congrArg Host.Outcome.next (runHw_served (fun h => updateBegin h m t) ha ?_)
    exact fwUpdate_of_begin (q := theRequest s m [t, 0, n, 0, 0]) htarget rfl hfree
  case fwQuery =>
    intro s m ha
    exact congrArg Host.Outcome.next (runHw_served id ha rfl)
  case activate =>
    intro s m ha
    exact congrArg Host.Outcome.next (runHw_served (fun h =>
      { h.onFlash (fun fl => writeSelection fl h.sys.slot false 0) with sys := { h.sys with trial := false } }) ha rfl)

end Sys2Proof.Machine
end
